-- ==== Sys2Proof/Word.lean ====
section
/-!
DEFINITION. The word types of the Ihleo 4.2 adapter and the keyed list in which the state holds sparse
tables. Bit vectors stand for what the manual numbers or compares as bits; counts are natural numbers.
-/

namespace Sys2Proof

/-- One byte of a byte-addressed structure (R6). -/
abbrev Byte := BitVec 8
/-- A cell is 16 B, the unit of transactions and of credits (glossary, R110). -/
abbrev Cell := BitVec 128
/-- Global physical address: PKG[57:46], DIE[45:38], OFFSET[37:0] (R209). -/
abbrev Gpa := BitVec 58
/-- Line address GPA[57:7] (R250). -/
abbrev LineAddr := BitVec 51
/-- Tenancy identifier (R298). -/
abbrev Ten := BitVec 8
/-- TAG of a request (R225). -/
abbrev Tag := BitVec 12
/-- Package identity, PKG (R209). -/
abbrev Pkg := BitVec 12
/-- Die identity, DIE (R209). -/
abbrev Die := BitVec 8
/-- Flit sequence number (R119). -/
abbrev Fseq := BitVec 12
/-- Training generation (R159). -/
abbrev Gen := BitVec 4
/-- Reduction identifier (R277). -/
abbrev Rid := BitVec 12
/-- Semaphore identifier (R211). -/
abbrev Sid := BitVec 16
/-- Queue identifier (R210). -/
abbrev Qid := BitVec 20
/-- The epoch counter is 48 bits wide and wraps (R171). -/
abbrev Epoch := BitVec 48
/-- A port coded as CPORT: 0–7 for W0–W7, 8 for X0, 9 for X1 (R30). -/
abbrev PortId := Fin 10
/-- Bundle index within a wire port (R66). -/
abbrev BundleId := Fin 12
/-- Physical lane of a reach port (R91). -/
abbrev LaneId := Fin 16
/-- Data wire d0–d63 (R63). -/
abbrev WireId := Fin 64
/-- Calendar slot index (R173). -/
abbrev SlotId := BitVec 12
/-- Engine index (R271). -/
abbrev EngineId := Fin 8
/-- Twin pair index (R312). -/
abbrev PairId := Fin 4

/-- A table keyed by a number, held as a list of pairs with keys strictly rising. -/
abbrev NMap (α : Type) := List (Nat × α)

end Sys2Proof
end

