-- ==== Sys2Proof/Syntax.lean ====
section
/-!
DEFINITION. The commands the block takes: one constructor of `Instr` per row of spec/opcode_table.json,
with the operands the row's rule names. Frames, words and messages arrive as the bits the spec lays out.
-/

namespace Sys2Proof

/-- IFI channels on which the die presents transactions (R31). -/
inductive IngCh where
  | req | inr | snp | msg | sch | red
deriving DecidableEq, Repr

/-- IFI channels on which the adapter presents transactions (R31). -/
inductive EgCh where
  | rsp | inb | snp | msg | sch | red
deriving DecidableEq, Repr

/-- The credit field on which a return arrives from the die (R34, R39). -/
inductive CreditField where
  | ecr (ch : EgCh)
  | evt
deriving DecidableEq, Repr

/-- The three access paths of the Almanac (R371). -/
inductive Path where
  | cfg | ring | mgmt
deriving DecidableEq, Repr

/-- The reset inputs (R47). -/
inductive ResetInput where
  | porst | wrst | drst
deriving DecidableEq, Repr

/-- Target of a sleep handshake (R87). -/
inductive SleepTarget where
  | nap | dormant
deriving DecidableEq, Repr

/-- One IFI ingress cell slot with CV = 1: its sideband (R30) and its 128 data bits. The cells of a transaction may span
cycles (R32): `ago` is how many cc before the command's own cc the cell was presented. -/
structure IfiCell where
  cch : BitVec 4
  csop : Bool
  ceop : Bool
  cten : Ten
  cport : BitVec 4
  cslot : SlotId
  data : Cell
  ago : Nat := 0
deriving DecidableEq, Repr

/-- Where a transaction waits that a command serves: in the ingress buffer of an IFI channel, in the
receive cell buffer of a port, or handed over to the own receive path (R444); `k` counts from the oldest. -/
inductive Place where
  | ifi (ch : IngCh) (k : Nat)
  | rx (q : PortId) (k : Nat)
  | own (k : Nat)
deriving DecidableEq, Repr

/-- A flit as it reaches the sequence check: its 2048 bits as received (R110), the bundle it came on,
and whether a reach port marked its slot bad (R96). Of a wire port the bits are the samples of d0–d63 in the order of
R63, `vld` holds the 32 samples of VLD (R64), and `spares` those of s0–s3, empty where the spares follow their wires. -/
structure RxFlit where
  bits : BitVec 2048
  bundle : Nat
  slotBad : Bool
  vld : BitVec 32 := 0xFFFFFFFF
  spares : List (BitVec 32) := []
deriving DecidableEq, Repr

/-- A reach codeword as it is received, after the lanes are deskewed: its 544 symbols in the order of R94. -/
structure Codeword where
  symbols : List (BitVec 10)
deriving DecidableEq, Repr

/-- What a timed training operation measured: units that failed (bundle or lane, wire), eye words per
bundle (phase code and eye width of each wire, R83), lane settings (R101), the write point of each bundle's retiming
FIFO at A1, in UI (R68), and the lanes whose pair is inverted (R91). -/
structure Measured where
  bad : List (Nat × Nat)
  eyes : List (Nat × List (BitVec 16))
  eqs : List (Nat × List Byte)
  fifo : List (Nat × Nat) := []
  flips : List Nat := []
deriving DecidableEq, Repr

/-- Captures of one wire in the loopback patterns of R414, from which R415 derives its fault code: its value in L1 and
L2, at its own step of L3 and L4, whether it captured 1 at any other step of L3 (`otherL3`) and 1 at every other step
of L4 (`otherL4`), whether L5 found a parity error, and the eye width of L6 in 64ths of a UI. -/
structure WireObs where
  q : PortId
  b : BundleId
  wire : Nat
  inL1 : Bool
  inL2 : Bool
  ownL3 : Bool
  ownL4 : Bool
  otherL3 : Bool
  otherL4 : Bool
  parityL5 : Bool
  eye : Nat
deriving DecidableEq, Repr

/-- Symbol errors of one reach lane in XL1 (R414). -/
structure LaneObs where
  q : PortId
  l : LaneId
  errors : Nat
deriving DecidableEq, Repr

/-- The structures that field repair covers (R332). -/
inductive Structure where
  | replay | receive | hold | rlc | filter | calendar | staging
deriving DecidableEq, Repr

/-- The word in which an uncorrectable error is read (R333). -/
inductive ErrorSite where
  | replay (q : PortId) (index : Nat)
  | receive (q : PortId) (index : Nat)
  | hold (q : PortId) (index : Nat)
  | rlc (la : LineAddr) (waiting : Bool)
  | filter (la : LineAddr) (bothCopies : Bool)
  | calendar (q : PortId) (slot : SlotId)
  | staging (rid : Rid)
deriving DecidableEq, Repr

/-- The commands of the block, one constructor per row of spec/opcode_table.json. -/
inductive Instr where
  /-- IFI_INGRESS_TRANSACTION (R32). The die presents a whole transaction in IFI ingress cell slots against held credit, and the adapter takes it into the channel's ingress buffer. -/
  | ifiIngressTransaction (cells : List IfiCell)
  /-- IFI_EGRESS_FILL (R442). In each cc the adapter fills the egress cell slots with due SCH cells first, then RSP, INB, SNP, MSG and RED cells by round robin. -/
  | ifiEgressFill
  /-- IFI_CREDIT_RETURN (R34). A credit return arrives on an IFI credit field and may be spent from the next cc; a waiting SCH cell then goes out flagged MISS. -/
  | ifiCreditReturn (field : CreditField) (n : Nat)
  /-- IFI_WAKE (R38). IFI_WAKE is sampled high on AON while CORE is stopped, and the adapter starts the core PLL. -/
  | ifiWake (high : Bool)
  /-- QUIESCE (R305). A QUIESCE event on EVT makes the tenancy DRAINING, stops admission, parks uncommitted work, voids slots and recalls its credit partition. -/
  | quiesce (ten : Ten)
  /-- READMIT (R308). A READMIT event on EVT makes a quiesced tenancy ADMITTED again and resumes its parked transactions, or is held while it drains. -/
  | readmit (ten : Ten)
  /-- EVT_UNKNOWN_CODE (R40). A die-to-adapter event with an unlisted code is ignored, counted as a protocol error and its credit returned. -/
  | evtUnknownCode (ecode : BitVec 8)
  /-- DRAIN_END (R305). The last counted non-preemptible work of a draining tenancy completes, and the tenancy becomes QUIESCED. -/
  | drainEnd (ten : Ten)
  /-- DRAIN_BOUND (R306). The drain reaches 8,000 cc, its remaining work is detached and the detach interrupt cause is raised. -/
  | drainBound (ten : Ten)
  /-- CFG_NO_OPERATION (R42). A write of OP = 0 or of an ignored OP value starts no command. -/
  | cfgNoOperation (op : BitVec 4)
  /-- CFG_READ (R369). A CFG READ command returns the whole value of an entry of at most 32 B and sets SIZE. -/
  | cfgRead
  /-- CFG_WRITE (R369). A CFG WRITE command writes SEGLEN bytes from DATA0 to the target entry after the checks of R367. -/
  | cfgWrite
  /-- CFG_READ_SEG (R371). A CFG READ_SEG command returns one segment of a snapshot, taking the snapshot when SEGOFF is 0. -/
  | cfgReadSeg
  /-- CFG_WRITE_SEG (R370). A CFG WRITE_SEG command stages one segment and, on the last, checks and installs the whole BLOB or TABLE value. -/
  | cfgWriteSeg
  /-- CFG_ABORT (R43). A CFG ABORT command ends the open segmented transfer with the abort status and leaves the previous value in force. -/
  | cfgAbort
  /-- CFG_WORD_WRITE (R443). A write to the INDEX, SUB, SEGOFF, SEGLEN or DATA words of the CFG window is taken, or ignored while BUSY. -/
  | cfgWordWrite (word : BitVec 4) (data : BitVec 32)
  /-- SEGMENT_TRANSFER_TIMEOUT (R44). A segmented transfer or snapshot left 1 ms without a segment is discarded and its entry released. -/
  | segmentTransferTimeout (path : Path)
  /-- ALMANAC_WRITE (R368). A write to an Almanac entry that has no row of its own is checked and installed, taking effect in CORE as its owning chapter states. -/
  | almanacWrite (index : BitVec 16) (sub : BitVec 8) (bytes : List Byte)
  /-- RESET_INPUT_ASSERT (R48). PORST_N, WRST_N or DRST_N asserts, parks the pins within 100 ns and abandons internal resets and CFG commands. -/
  | resetInputAssert (input : ResetInput)
  /-- COLD_RESET (R405). PORST_N is released and the adapter captures straps, reads fuses, scans DIE_ALIAS rows, clears classes V, D, W and C and starts up. -/
  | coldReset (dieId : Die) (role : BitVec 3) (pos : BitVec 6)
  /-- WARM_RESET (R407). WRST_N is released and the adapter clears classes V, D and W and performs start-up steps S4 to S7. -/
  | warmReset
  /-- DIE_RESET (R407). DRST_N is released, or REFCLK or VDD_CORE returns, and the adapter clears classes V and D and performs start-up from S4 or S3. -/
  | dieReset
  /-- REFERENCE_LOSS (R46). The monitor sees no REFCLK edge for 1 µs and parks every pin as under DRST_N. -/
  | referenceLoss
  /-- REFCLK_RETURN (R46). REFCLK edges have returned for 10 µs and the adapter performs a DIE reset with last_reset set to REFLOSS. -/
  | refclkReturn
  /-- VDD_CORE_LOSS (R395). VDD_CORE falls without a reset and the AON monitor parks the pins as for DRST_N. -/
  | vddCoreLoss
  /-- VDD_CORE_RETURN (R395). VDD_CORE has been valid for 10 µs after a loss and the adapter performs a DIE reset. -/
  | vddCoreReturn
  /-- STRAP_SAMPLE (R49). Every 1 ms the straps are sampled and a difference from the capture sets strap_mismatch. -/
  | strapSample (dieId : Die) (role : BitVec 3) (pos : BitVec 6)
  /-- THERMAL_SAMPLE (R53). Every 1 µs each thermal input is read twice and an equal pair is accepted, updating the thermal level and the tempo demand. -/
  | thermalSample (local1 local2 below1 below2 : BitVec 8)
  /-- THERMAL_OVERLOAD (R205). The demand has exceeded sch_tempo_max for 1 ms, and the adapter sends THERM_TRIP and opens a service record. -/
  | thermalOverload
  /-- CORE_PLL_LOCK (R391). The core PLL declares lock and CORE becomes usable, after reset release or a wake cause. -/
  | corePllLock
  /-- CORE_STOP (R392). All stop conditions have held for 64 cc, CORE and SUP stop and IFI_READY falls. -/
  | coreStop
  /-- RING_JOIN (R382). Within 20 µs after PORST_N release the ring agent starts to drive SB_CO and SB_DO. -/
  | ringJoin
  /-- PORT_SUPPLY_OFF (R142). The supply of a port goes off and the port enters OFF with its traffic held. -/
  | portSupplyOff (q : PortId)
  /-- LINK_PORT_ENABLE (R142). A write of link_port_enable takes the port to OFF with 0, or lets it leave OFF into DETECT with 1. -/
  | linkPortEnable (q : PortId) (value : Bool)
  /-- HELLO_FRAME (R70). A hello frame is accepted on TRK, and two identical accepted frames advance detection, start a wake or take a port out of HOLD. -/
  | helloFrame (q : PortId) (b : BundleId) (frame : BitVec 32)
  /-- RESET_HELLO (R155). A hello or training frame with RSTF = 1 is accepted and the port starts a LINK_FULL with full training or abandons its attempt. -/
  | resetHello (q : PortId)
  /-- WTX_PLL_LOCK (R75). The WTX PLL of a wire port locks in DETECT and RDY is reported in the next hello. -/
  | wtxPllLock (q : PortId)
  /-- XPH_PLL_LOCK (R99). The XPH PLL of a reach port locks and RDY is reported in its training frames. -/
  | xphPllLock (q : PortId)
  /-- TRAIN_START (R74). A TRAIN_START training message is received on TRK with its FAST_OK flag. -/
  | trainStart (q : PortId) (fastOk : Bool)
  /-- STEP_DONE (R74). A STEP_DONE training message is received, and the step ends once both sides have sent and received it. -/
  | stepDone (q : PortId) (step : BitVec 4)
  /-- REPAIR_MAP (R74). A REPAIR_MAP training message is received and the transmitter applies the map and echoes it. -/
  | repairMap (q : PortId) (b : BundleId) (map : BitVec 20) (tcrc : Bool)
  /-- MAP_ACK (R74). A MAP_ACK training message echoing the repair map is received and both sides apply it. -/
  | mapAck (q : PortId) (b : BundleId) (map : BitVec 20)
  /-- TRAINING_ABORT (R80). An ABORT training message is received and both sides return to T1. -/
  | trainingAbort (q : PortId) (reason : BitVec 8)
  /-- FATAL_PARITY_ERROR (R80). A parity error on TRK after T1, or on any wire in use from A2, ends the training attempt with ABORT. -/
  | fatalParityError (q : PortId)
  /-- TRAINING_RETRY (R77). With no bundle or lane remaining, the 1 ms retry restarts full training from detection. -/
  | trainingRetry (q : PortId)
  /-- TRAINING_FRAME (R100). A reach training frame is received per lane, carrying step completion, equaliser requests, precoding and abort reasons. -/
  | trainingFrame (q : PortId) (lane : LaneId) (header : BitVec 64)
  /-- LATENCY_MARKER (R102). A latency marker or its echo is received in XA3 and the loop L is measured. -/
  | latencyMarker (q : PortId) (echo : Bool) (lmk : BitVec 4) (turn : BitVec 12) (sentAt : Nat)
  /-- FAULT_RETRY (R139). The fault retry timer expires and the port clears RA and TA and starts full training from DETECT. -/
  | faultRetry (q : PortId)
  /-- CLOCK_LOSS (R72). No CLKP edge has been seen on a bundle for 16 cc and clock loss is declared. -/
  | clockLoss (q : PortId) (b : BundleId)
  /-- TRK_LOSS (R72). No valid TRK word or training message has been seen on a bundle for 64 cc and TRK loss is declared. -/
  | trkLoss (q : PortId) (b : BundleId)
  /-- BUNDLE_LOST (R73). The 128-cc loss window ends with a bundle still healthy, and BUNDLE_LOST is reported for each lost bundle. -/
  | bundleLost (q : PortId)
  /-- LANE_LOSS (R105). A reach lane sees low amplitude or CDR loss of lock for 32 cc and declares a lane loss. -/
  | laneLoss (q : PortId) (l : LaneId)
  /-- LANE_LOST (R105). The 128-cc window ends with lanes still healthy, LANE_LOST is reported and a LINK_FULL is requested. -/
  | laneLost (q : PortId)
  /-- LANE_DEGRADED (R105). A lane's corrected symbols in one 1 ms window reach the degrade threshold and it is marked degraded. -/
  | laneDegraded (q : PortId) (l : LaneId)
  /-- CODEWORD (R96). A reach codeword is decoded and its header checked, its flit slots handed on and its CCTL code acted on. -/
  | codeword (q : PortId) (cw : Codeword)
  /-- FIFO_DRIFT (R68). The retiming FIFO write point drifts more than 8 UI from its ALIGN value and LINK_RETRAIN is requested. -/
  | fifoDrift (q : PortId) (b : BundleId)
  /-- KEEPALIVE (R71). A valid TRK word with code KEEPALIVE is received and keeps the TRK detector satisfied. -/
  | keepalive (q : PortId) (b : BundleId)
  /-- TRK_WORD_INVALID (R71). A TRK word fails TSYNC or TCHK, or carries an unknown code, and is counted. -/
  | trkWordInvalid (q : PortId) (b : BundleId) (word : BitVec 32)
  /-- SLEEP_REQ (R87). A sleep request for NAP or DORMANT arrives and is answered with SLEEP_ACK or SLEEP_NAK. -/
  | sleepReq (q : PortId) (target : SleepTarget)
  /-- SLEEP_ACK (R87). A sleep acknowledgement arrives and the port enters the target state 16 cc later. -/
  | sleepAck (q : PortId) (target : SleepTarget)
  /-- SLEEP_NAK (R87). A sleep refusal arrives, the port stays awake and its idle count restarts. -/
  | sleepNak (q : PortId)
  /-- SLEEP_REQ_TIMEOUT (R87). A sleep request receives no answer within 256 cc and the port stays in its state. -/
  | sleepReqTimeout (q : PortId)
  /-- SLEEP_ENTRY (R87). 16 cc after the SLEEP_ACK the port enters NAP or DORMANT. -/
  | sleepEntry (q : PortId)
  /-- SPARE_REQ (R86). A SPARE_REQ arrives and the transmitter answers SPARE_GO and drives the named wire on the spare from the next word. -/
  | spareReq (q : PortId) (b : BundleId) (wire : WireId)
  /-- SPARE_GO (R86). A SPARE_GO arrives and the receiver reads the named wire from the spare and updates the spare map. -/
  | spareGo (q : PortId) (b : BundleId) (wire : WireId)
  /-- SPARE_REQ_REPEAT (R86). 64 cc pass without SPARE_GO and the receiver repeats the request, giving up after 16 copies. -/
  | spareReqRepeat (q : PortId) (b : BundleId) (wire : WireId)
  /-- LIVE_SWAP_TRIGGER (R85). A data wire's located errors in a 1 ms window reach the swap threshold and the receiver requests a swap or refuses it. -/
  | liveSwapTrigger (q : PortId) (b : BundleId) (wire : WireId)
  /-- SPARE_FAILED (R84). Mismatches of an idle spare against its copied wire reach the swap threshold within 1 ms and the group's spare is flagged failed. -/
  | spareFailed (q : PortId) (b : BundleId) (group : Fin 4)
  /-- FULL_REQ (R146). A FULL_REQ code is received and the port starts a LINK_FULL. -/
  | fullReq (q : PortId)
  /-- RETRAIN_REQ (R146). A RETRAIN_REQ code is received and the port enters RETRAIN, unless a LINK_FULL is in progress. -/
  | retrainReq (q : PortId)
  /-- RETRAIN_COMPLETE (R147). A retrain completes at the same width, the port returns to ACTIVE and replays from O. -/
  | retrainComplete (q : PortId)
  /-- OWN_PLL_LOSS (R154). The port's own WTX or XPH PLL loses lock and its transmit pins are parked as for OFF for 1 µs. -/
  | ownPllLoss (q : PortId)
  /-- PLL_LOSS_PARK_END (R154). The 1 µs park after own PLL loss ends and the port enters DETECT with RSTF = 0, keeping its state. -/
  | pllLossParkEnd (q : PortId)
  /-- NAP_WAKE_PATTERN (R88). The partner's static-high TRK sets the level latch and the port restarts its forwarded clock. -/
  | napWakePattern (q : PortId)
  /-- NAP_WAKE_COMPLETE (R88). After re-acquisition, 8 valid TRK words arrive and the port is ACTIVE again. -/
  | napWakeComplete (q : PortId)
  /-- NAP_WAKE_TIMEOUT (R88). No valid TRK word arrives on a bundle within 128 cc of the wake cause and a loss is reported. -/
  | napWakeTimeout (q : PortId) (silent : List BundleId)
  /-- DORMANT_WAKE_COMPLETE (R89). The wire DORMANT wake finishes fast T1, T2, A1 and A2 and the port is ACTIVE without PARAM. -/
  | dormantWakeComplete (q : PortId) (ok : Bool)
  /-- SIGNAL_DETECT (R109). AON sees signal detect on a sleeping reach port and starts its PLL for a wake. -/
  | signalDetect (q : PortId)
  /-- REACH_WAKE_COMPLETE (R109). The reach wake forms of XT1, XA1, XA2 and the marker check finish and the port is ACTIVE, or turns into fast training. -/
  | reachWakeComplete (q : PortId) (ok : Bool)
  /-- PORT_WAKE (R399). A wake cause reaches a port in NAP or DORMANT and AON starts its wake. -/
  | portWake (q : PortId)
  /-- IDLE_ENTRY (R396). A port sees no activity for pm_idle_entry cc and enters IDLE. -/
  | idleEntry (q : PortId)
  /-- NAP_IDLE_EXPIRY (R398). A wire port sees no activity for pm_nap_idle cc and sends SLEEP_REQ for NAP. -/
  | napIdleExpiry (q : PortId)
  /-- DORMANT_IDLE_EXPIRY (R398). A port sees no activity for pm_dormant_idle cc and requests DORMANT, first waking from NAP if needed. -/
  | dormantIdleExpiry (q : PortId)
  /-- PM_WAKE_PORTS (R399). A write of pm_wake_ports wakes each sleeping port whose bit is set. -/
  | pmWakePorts (mask : BitVec 16)
  /-- FLIT_SLOT_FILL (R11). For each flit slot the link layer sends a replay, an owned scheduled flit, a control flit or an on-demand flit, in that order. -/
  | flitSlotFill (q : PortId)
  /-- FLIT_RECEIVE (R119). The flits of one cc reach the sequence check and are accepted in order, dropped or found bad, and their acknowledgements processed. -/
  | flitReceive (q : PortId) (flits : List RxFlit)
  /-- ACK_DELAY_EXPIRY (R121). An accepted flit stays unacknowledged for link_ack_delay cc with no outgoing flit and an ACKO flit is sent. -/
  | ackDelayExpiry (q : PortId)
  /-- ACK_TIMEOUT (R125). The ack timer reaches its limit while U > 0 and the sender starts a replay. -/
  | ackTimeout (q : PortId)
  /-- NAK_GUARD_EXPIRY (R120). The NAK guard runs out and a further NAK for the same E is allowed. -/
  | nakGuardExpiry (q : PortId)
  /-- CREDIT_DELAY_EXPIRY (R132). A VC's credit delay count reaches link_credit_delay and a CTRL flit of CREDIT cells returns every pending count. -/
  | creditDelayExpiry (q : PortId)
  /-- CREDIT_TIMEOUT (R139). A VC waits for credit with no return for link_credit_timeout cc and the port starts a LINK_FULL. -/
  | creditTimeout (q : PortId)
  /-- CREDIT (R136). A CREDIT control cell in an accepted CTRL flit is applied to the per-VC credit counts. -/
  | credit (q : PortId)
  /-- UNKNOWN_CTRL (R135). A control cell of unknown CTYPE is ignored and counted. -/
  | unknownCtrl (q : PortId)
  /-- LINK_RESET_REQ_RETRAIN (R142). A write of 1 to link_reset_req requests LINK_RETRAIN of the port. -/
  | linkResetReqRetrain (q : PortId)
  /-- LINK_RESET_REQ_FULL (R142). A write of 2 to link_reset_req requests LINK_FULL of the port, or full training from FAULT. -/
  | linkResetReqFull (q : PortId)
  /-- OFFER (R157). A PARAM OFFER is received, checked for legality, and answered with ECHO of the agreed GEN and mask. -/
  | offer (q : PortId) (body : BitVec 1920)
  /-- ECHO (R157). A PARAM ECHO is received and compared with the local result, answered with COMMIT or ABORT. -/
  | echo (q : PortId) (body : BitVec 1920)
  /-- COMMIT (R157). A PARAM COMMIT equal to the local one is received. -/
  | commit (q : PortId) (body : BitVec 1920)
  /-- PARAM_ABORT (R162). A PARAM ABORT is received, failing the attempt and clearing receive state on a sequence mismatch. -/
  | paramAbort (q : PortId)
  /-- ENTER_ACTIVE (R161). After COMMIT has been sent for 16 cc and received, the port enters ACTIVE, settles sequence and credit state and replays or re-packs. -/
  | enterActive (q : PortId)
  /-- OFFER_REPEAT (R163). A side waiting for its receive buffer to empty repeats its OFFER every 256 cc. -/
  | offerRepeat (q : PortId)
  /-- PARAM_TIMEOUT (R139). The PARAM timeout expires and the attempt fails back to TRAIN. -/
  | paramTimeout (q : PortId)
  /-- STABLE_ACTIVE (R149). The port has been continuously ACTIVE for 100,000 cc and TA, and RA where U was 0, return to 0. -/
  | stableActive (q : PortId)
  /-- LONG_HOLD_NOTICE (R153). A port has stayed in HOLD or FAULT for link_hold_notice cc and the long-hold interrupt cause is raised. -/
  | longHoldNotice (q : PortId)
  /-- XPHY_PATH_DELAY_RESET (R104). A write of 1 to xphy_path_delay_reset makes the next XA3 store a newly computed path delay. -/
  | xphyPathDelayReset (q : PortId)
  /-- EPOCH_FREEZE (R200). At F_n the leap count of the next epoch is frozen, armed calendar switches are checked and assigned payloads are reviewed. -/
  | epochFreeze
  /-- EPOCH_HEAD_CELL (R187). At T_n minus 63 an EPOCH head cell with the leap count is presented on each port with a non-empty calendar. -/
  | epochHeadCell
  /-- EPOCH_BOUNDARY (R193). At T_n the epoch advances, leap slots are inserted, calendars switch, beacons are placed and tempo is renewed. -/
  | epochBoundary
  /-- SCH_PAYLOAD (R178). An SCH transaction of 15 cells for a TX slot is assigned to the next occurrence of that slot, or refused. -/
  | schPayload (k : Nat)
  /-- SLOT_ACCEPT (R178). At the accept cc of an occurrence the payload is taken as the scheduled flit, or a VOID is sent for a late or quiesced payload. -/
  | slotAccept (q : PortId) (slot : SlotId)
  /-- SCHED_FLIT (R183). A received SCHED flit is assigned to an epoch and occurrence and held to its deadline, or presented late or discarded. -/
  | schedFlit (q : PortId)
  /-- DEADLINE (R188). At deadline D a held flit is presented on IFI-SCH or handed to its forwarding port, and a proxied RX slot sends its message. -/
  | deadline (q : PortId) (slot : SlotId)
  /-- BEACON (R194). A live epoch beacon is accepted and checked against the local epoch, joining an unjoined adapter or counting mismatches. -/
  | beacon (q : PortId)
  /-- LEAP_REQ (R199). A LEAP_REQ cell is merged into the leap table, with catch-up when its epoch is closed, and flooded when it raised a value. -/
  | leapReq (q : PortId)
  /-- TEMPO (R199). A TEMPO cell is merged over its span of epochs and flooded when it raised a value. -/
  | tempo (q : PortId)
  /-- LEAP_NOTICE (R202). A LEAP_NOTICE cell is flooded once and DFAULT with reason 1 is presented. -/
  | leapNotice (q : PortId)
  /-- DFAULT (R202). A DFAULT cell is flooded once and presented on IFI-SCH with its reason. -/
  | dfault (q : PortId)
  /-- VOID (R190). A VOID cell is presented as a VOID head cell for an RX slot or forwarded as reason 3 for an RXF slot. -/
  | voidCell (q : PortId)
  /-- SCH_DOMAIN_ENABLE (R195). A write of 1 to sch_domain_enable starts the root at epoch 0 or waits for a live beacon to join. -/
  | schDomainEnable
  /-- SCH_DOMAIN_DISABLE (R446). A write of 0 to sch_domain_enable takes the adapter out of its domain and releases held and assigned scheduled traffic. -/
  | schDomainDisable
  /-- SCH_REJOIN (R196). A write of 1 to sch_rejoin clears the join until a live beacon is accepted. -/
  | schRejoin
  /-- SCH_LEAP_REQUEST (R198). A write of K to sch_leap_request originates a LEAP_REQ for epoch c + L. -/
  | schLeapRequest (k : BitVec 8)
  /-- SCH_SWITCH_EPOCH (R177). A write of sch_switch_epoch arms a calendar switch at that epoch. -/
  | schSwitchEpoch (epoch : BitVec 64)
  /-- RD (R215). A read request is decoded, routed, served by the RLC or carried to the target die over INB. -/
  | rd (pl : Place)
  /-- WR (R215). A write request is decoded, routed, served by the RLC or carried to the target die over INB. -/
  | wr (pl : Place)
  /-- WRP (R215). A masked line write is decoded, routed, served by the RLC or carried to the target die over INB. -/
  | wrp (pl : Place)
  /-- FENCE (R237). A FENCE completes OK once every earlier transaction of its tenancy has completed. -/
  | fence (pl : Place)
  /-- AADD (R217). An atomic add on an 8-B value is carried to the target die, which returns the old value. -/
  | aadd (pl : Place)
  /-- AAND (R217). An atomic AND on an 8-B value is carried to the target die, which returns the old value. -/
  | aand (pl : Place)
  /-- AOR (R217). An atomic OR on an 8-B value is carried to the target die, which returns the old value. -/
  | aor (pl : Place)
  /-- AXOR (R217). An atomic XOR on an 8-B value is carried to the target die, which returns the old value. -/
  | axor (pl : Place)
  /-- ASWAP (R217). An atomic swap on an 8-B value is carried to the target die, which returns the old value. -/
  | aswap (pl : Place)
  /-- ACAS (R217). An atomic compare-and-swap on an 8-B value is carried to the target die, which returns the old value. -/
  | acas (pl : Place)
  /-- AMAX (R217). An atomic signed maximum on an 8-B value is carried to the target die, which returns the old value. -/
  | amax (pl : Place)
  /-- AMIN (R217). An atomic signed minimum on an 8-B value is carried to the target die, which returns the old value. -/
  | amin (pl : Place)
  /-- AMAXU (R217). An atomic unsigned maximum on an 8-B value is carried to the target die, which returns the old value. -/
  | amaxu (pl : Place)
  /-- AMINU (R217). An atomic unsigned minimum on an 8-B value is carried to the target die, which returns the old value. -/
  | aminu (pl : Place)
  /-- MSG (R230). A message is routed by QID to its home and presented on the home die's IFI-MSG, or taken for a proxied TX slot. -/
  | msg (pl : Place)
  /-- MSGC (R231). The home die's answer to a message is carried back to the requester as CPL. -/
  | msgc (pl : Place)
  /-- SEM_INIT (R233). The home initialises a semaphore with a value and owner. -/
  | semInit (pl : Place)
  /-- SEM_SIGNAL (R233). The home adds a count to a semaphore and grants queued waiters in FIFO order. -/
  | semSignal (pl : Place)
  /-- SEM_WAIT (R233). The home takes a count from a semaphore or queues the waiter until a grant. -/
  | semWait (pl : Place)
  /-- SEM_TRY (R233). The home takes a count from a semaphore or completes with WOULD_BLOCK. -/
  | semTry (pl : Place)
  /-- SEM_READ (R233). The home returns the semaphore's value without change. -/
  | semRead (pl : Place)
  /-- BAR_INIT (R233). The home sets up a barrier with its expected arrival count. -/
  | barInit (pl : Place)
  /-- BAR_ARRIVE (R233). The home counts an arrival at a barrier and releases every waiter when the count is reached. -/
  | barArrive (pl : Place)
  /-- SEM_FREE (R233). The owner frees a semaphore and every waiter completes with NO_SEM. -/
  | semFree (pl : Place)
  /-- UNKNOWN_OPCODE (R214). A transaction with an illegal or unimplemented opcode is discarded and completed with BAD_ARG or UNSUPPORTED_AT_PARTNER. -/
  | unknownOpcode (pl : Place)
  /-- TRANSACTION_COMMIT (R225). A waiting transaction obtains a TAG and credit, places its first cell in a flit and is committed to its port. -/
  | transactionCommit (q : PortId)
  /-- CPL (R226). A completion reaches the requester's adapter, is matched against its TAG and presented, frees the TAG and releases ordering waits. -/
  | cpl (pl : Place)
  /-- INR_CPL (R218). The target die answers an INB request with CPL on IFI-INR, which is checked and carried back. -/
  | inrCpl (k : Nat)
  /-- LOCAL_HANDOVER (R444). A transaction whose destination resolves to the own die enters the own receive path in the next cc without a link crossing. -/
  | localHandover (k : Nat)
  /-- TXN_OWN_PKG_WRITE (R220). A write of txn_own_pkg moves the package SELF bit to the new value. -/
  | txnOwnPkgWrite (pkg : BitVec 16)
  /-- CRD (R257). The home serves a coherence read, presenting it on INB and sending snoops and the grant when the answer arrives. -/
  | crd (pl : Place)
  /-- CRDX (R257). The home serves a request for ownership with data, invalidating or forwarding from other holders. -/
  | crdx (pl : Place)
  /-- CUPG (R257). The home serves an upgrade of a held S or O line, invalidating other holders. -/
  | cupg (pl : Place)
  /-- CWRL (R257). The home serves ownership without data for a full-line write. -/
  | cwrl (pl : Place)
  /-- CWB (R259). The home serves a dirty writeback, writing it through INB or answering WBACK STALE. -/
  | cwb (pl : Place)
  /-- CEVC (R259). The home serves a clean eviction notice and answers WBACK. -/
  | cevc (pl : Place)
  /-- CACK (R262). A requester's acknowledgement reaches the home and releases its tracker entry or removes a stale requester. -/
  | cack (pl : Place)
  /-- CFETCH (R258). The home fetches line data from the directory to forward to a requester left without data. -/
  | cfetch (la : LineAddr)
  /-- GNT (R261). A grant reaches the requester, which completes once it also holds the data and acknowledgements. -/
  | gnt (pl : Place)
  /-- WBACK (R259). A writeback acknowledgement reaches the evicting die and frees its victim entry and TAG. -/
  | wback (pl : Place)
  /-- SNPS (R260). A share snoop is answered by the holder from its RLC or victim buffer. -/
  | snps (pl : Place)
  /-- SNPX (R260). An invalidate-and-forward snoop is answered by the holder. -/
  | snpx (pl : Place)
  /-- SNPI (R260). An invalidate snoop is answered by the holder with IACK. -/
  | snpi (pl : Place)
  /-- SNPF (R260). A flush snoop returns dirty data to the home and invalidates the line. -/
  | snpf (pl : Place)
  /-- SNPR (R260). A region flush applies SNPF to every line of a 4-KiB region, one per cc, and ends with SRSPR. -/
  | snpr (pl : Place)
  /-- SRSP (R257). A snoop answer reaches the home and updates the filter, fetching data or counting a lost line. -/
  | srsp (pl : Place)
  /-- SRSPR (R266). A region flush completion reaches the home and lets it remove the region entry. -/
  | srspr (pl : Place)
  /-- FWD (R261). A forwarded line reaches the requester and supplies the data of its transaction. -/
  | fwd (pl : Place)
  /-- IACK (R261). An invalidation acknowledgement reaches the requester and counts toward ACKCNT. -/
  | iack (pl : Place)
  /-- DIRECTORY_SNOOP (R255). The local directory issues a snoop on IFI-SNP and the home snoops every holder and answers with one SRSP. -/
  | directorySnoop (k : Nat)
  /-- RLC_ENABLE (R244). A write of rlc_enable turns the RLC on or evicts every line and serves CA = 1 as CA = 0. -/
  | rlcEnable (value : Bool)
  /-- RLC_WAYS_ENABLED (R244). A write of rlc_ways_enabled disables ways and evicts their lines. -/
  | rlcWaysEnabled (mask : BitVec 16)
  /-- RLC_FLUSH (R244). A write of 1 to rlc_flush evicts every line of the RLC. -/
  | rlcFlush
  /-- RLC_EVICTION (R244). One line per cc of a flush or way disable is evicted in ascending set and way order. -/
  | rlcEviction
  /-- TXN_ABSENT_MAP_WRITE (R269). A write of txn_absent_map that adds a range installs it and recalls every filter entry that overlaps it. -/
  | txnAbsentMapWrite (rows : List (BitVec 64))
  /-- ROPEN (R279). A reduction descriptor is checked and the RID opened with its staging reserved, answered by RSTAT OPENED. -/
  | ropen (k : Nat)
  /-- RCONT (R291). A local contribution is converted to carry format and staged, or refused with CONT_REFUSED. -/
  | rcont (k : Nat)
  /-- RBLK (R281). A child's carry blocks arrive and are staged, sent to the orphan pool, discarded or found bad. -/
  | rblk (pl : Place)
  /-- RRES (R284). Result blocks from the parent are presented on IFI-RED and sent on to the children. -/
  | rres (pl : Place)
  /-- RABORT (R290). A RID is abandoned at this adapter and its staged blocks discarded, answered by RSTAT ABORTED. -/
  | rabort (k : Nat)
  /-- BLOCK_START (R280). Once every contribution of the next block is staged, the engine combines them in fixed order and sends or delivers the result. -/
  | blockStart (rid : Rid)
  /-- BLOCK_STAGE_RESUME (R281). A staging or orphan slot frees and a waiting contribution block is taken again. -/
  | blockStageResume
  /-- IFR_ABORT_RID (R290). A write of ifr_abort_rid aborts that RID as RABORT does. -/
  | ifrAbortRid (value : BitVec 16)
  /-- IFR_ENGINES_ENABLED (R294). A write of ifr_engines_enabled takes engines out of service and moves their RIDs. -/
  | ifrEnginesEnabled (mask : BitVec 8)
  /-- RESIDUE_ERROR (R294). An adder residue mismatch takes the engine out of service and opens a service record. -/
  | residueError (e : EngineId) (residue : BitVec 2)
  /-- RID_MOVE (R294). At its next block boundary a RID of an engine leaving service starts moving to a peer. -/
  | ridMove (rid : Rid)
  /-- RID_MOVE_END (R294). 16 cc after it started the move ends and RSTAT MOVED is presented. -/
  | ridMoveEnd (rid : Rid)
  /-- TCREDIT (R321). A TCREDIT cell is applied by cumulative count so that a duplicate return is not applied twice. -/
  | tcredit (q : PortId)
  /-- TOUT (R323). A TOUT cell takes the named unit of the local twin pair out. -/
  | tout (q : PortId)
  /-- TWIN_OUT_NOTICE (R319). A unit has been OUT for twin_out_notice cc and a service record opens. -/
  | twinOutNotice (k : PairId) (unitB : Bool)
  /-- BULK_COPY_DONE (R320). The bulk copy and FIFO alignment of a catching-up unit end, making it ready to join. -/
  | bulkCopyDone (k : PairId) (unitB : Bool) (aligned : Bool)
  /-- TWIN_JOIN (R320). At the first epoch boundary after catch-up the unit becomes STANDBY and the merge takes its copies. -/
  | twinJoin (k : PairId) (unitB : Bool)
  /-- DUAL_ACTION_END (R321). 16 cc after a join each unit sends a resynchronising TCREDIT flit, and header returns and vigil compare resume. -/
  | dualActionEnd (k : PairId)
  /-- SRAM_ROW_FAILED (R331). A protected row fails and is copied to a spare row, or the structure is downsized when spares run out. -/
  | sramRowFailed (st : Structure) (unit words : Nat)
  /-- UNCORRECTABLE_ERROR (R333). An uncorrectable word is read before repair and is contained per structure. -/
  | uncorrectableError (loc : ErrorSite)
  /-- ALIAS_ROW_WRITE (R328). A write of a DIE_ALIAS row burns it into field fuses once. -/
  | aliasRowWrite (row : Fin 16) (value : BitVec 64)
  /-- SVC_CLOSE (R336). A write of svc_close clears OPEN on one record or on all. -/
  | svcClose (value : BitVec 8)
  /-- FW_PORT_MODE (R346). A write of fw_port_mode selects native, firewall-native or UCIe mode for an OFF port. -/
  | fwPortMode (q : PortId) (mode : BitVec 8)
  /-- CAP_COMPAT_LEVEL (R344). A write of cap_compat_level changes the level that ROPENs are checked against from the next cc. -/
  | capCompatLevel (level : BitVec 8)
  /-- FIREWALL_ADMIT (R356). A request waiting at a firewall rule's bucket is admitted once the bucket holds its cells. -/
  | firewallAdmit (q : PortId) (k : Nat)
  /-- UCIE_SIDEBAND_LOSS (R352). The UCIe sideband is lost for 1 µs and PARTNER_LOST is reported. -/
  | ucieSidebandLoss (q : PortId)
  /-- UCIE_LINKERROR (R352). A UCIe LINKERROR is reported as PARTNER_LOST. -/
  | ucieLinkerror (q : PortId)
  /-- RING_FRAME_FORWARD (R377). A ring frame is forwarded with its TTL lowered, truncated when TTL is 0, and counted when its CRC fails. -/
  | ringFrameForward (frame : List Byte)
  /-- RING_READ (R378). A READ frame addressed to the agent or broadcast is served and a RESP placed. -/
  | ringRead (frame : List Byte)
  /-- RING_WRITE (R378). A WRITE frame addressed to the agent or broadcast is served and a RESP placed. -/
  | ringWrite (frame : List Byte)
  /-- RING_READ_SEG (R378). A READ_SEG frame addressed to the agent is served as the CFG command and a RESP placed. -/
  | ringReadSeg (frame : List Byte)
  /-- RING_WRITE_SEG (R378). A WRITE_SEG frame addressed to the agent is served as the CFG command and a RESP placed. -/
  | ringWriteSeg (frame : List Byte)
  /-- RING_ABORT (R378). An ABORT frame addressed to the agent ends its ring transfer and a RESP is placed. -/
  | ringAbort (frame : List Byte)
  /-- NOTICE (R381). A NOTICE frame carrying irq_status is sent to the controller at most once per 1 ms. -/
  | notice
  /-- MRD (R383). A management read is served by the target adapter's Almanac and answered by CPL. -/
  | mrd (pl : Place)
  /-- MWR (R383). A management write is served by the target adapter's Almanac and answered by CPL. -/
  | mwr (pl : Place)
  /-- MRDS (R383). A management segmented read is served by the target adapter's Almanac and answered by CPL. -/
  | mrds (pl : Place)
  /-- MWRS (R383). A management segmented write is served by the target adapter's Almanac and answered by CPL. -/
  | mwrs (pl : Place)
  /-- MABT (R383). A management abort ends the management path's transfer and is answered by CPL. -/
  | mabt (pl : Place)
  /-- SUP_RESTART (R387). A write of 1 to sup_restart performs a SUP reset. -/
  | supRestart
  /-- WATCHDOG_EXPIRY (R387). No supervisor heartbeat arrives within 1 ms and the watchdog performs a SUP reset. -/
  | watchdogExpiry
  /-- SUP_START (R387). The supervisor restarts from ROM, adopts a verified patch bank and resumes its abandoned work. -/
  | supStart
  /-- IRQ_CLEAR (R388). A write of irq_clear clears the interrupt status bits written 1. -/
  | irqClear (mask : BitVec 32)
  /-- EXTEST (R412). The EXTEST instruction forces every wire port OFF and drives and captures bumps from the boundary register. -/
  | extest (drive capture : List Bool)
  /-- IDCODE (R410). The IDCODE instruction selects the identification register. -/
  | idcode
  /-- SAMPLE_PRELOAD (R409). The SAMPLE/PRELOAD instruction captures the bumps in service into the boundary register. -/
  | samplePreload (preload capture : List Bool)
  /-- IXTEST (R414). The IXTEST instruction forces the masked ports OFF and runs the loopback patterns at Update-DR. -/
  | ixtest (control : BitVec 16)
  /-- IXTEST_DONE (R415). The loopback patterns end and each wire's fault code and each lane's errors are stored. -/
  | ixtestDone (wires : List WireObs) (lanes : List LaneObs)
  /-- MBIST (R416). The MBIST instruction runs March C- over the selected structures while DRST_N is asserted, or is refused. -/
  | mbist (select : BitVec 8)
  /-- MBIST_DONE (R416). The memory test ends and its result is set in TESTSTAT. -/
  | mbistDone (failing : List (BitVec 8))
  /-- TESTSTAT (R417). The TESTSTAT instruction selects the test status register. -/
  | teststat
  /-- STACKCFG (R413). The STACKCFG instruction sets SECEN, joining the secondary TAP into the chain. -/
  | stackcfg (secen : Bool)
  /-- BYPASS (R409). The BYPASS instruction, or any unlisted code, presents a one-bit register. -/
  | bypass (code : BitVec 8)
  /-- IXT_FUSE_WRITE (R420). A write of ixt_fuse_write burns the fused spare map of a receive bundle once. -/
  | ixtFuseWrite (q : PortId) (b : BundleId) (value : BitVec 32)
  /-- TRACE_ARM (R426). A write of 1 to trace_arm empties the buffer, writes TSFULL and enters ARMED or RUNNING. -/
  | traceArm
  /-- TRACE_STOP (R426). A write of 0 to trace_arm enters STOPPED. -/
  | traceStop
  /-- TRACE_MARK (R424). A write of trace_mark writes a MARK record while trace is RUNNING. -/
  | traceMark (value : BitVec 32)
  /-- TRACE_RECORD (R427). Each cc one record leaves the capture queue into the buffer or TRACE_OUT, with LOST records marking dropped events. -/
  | traceRecord
  /-- PORT_SUPPLY_ON (R59). The supply of a port (VDD_WPHY or VDD_XPHY) becomes valid again after being off, so the port may leave OFF. -/
  | portSupplyOn (q : PortId)
  /-- TRAINING_STEP_COMPLETE (R75). A timed training operation of this side (phase sweep, parity frames, alignment, CDR lock, equaliser tuning or PRBS check) finishes, and the side sends STEP_DONE or XDONE. -/
  | trainingStepComplete (q : PortId) (m : Measured)
  /-- TEST_LOGIC_RESET (R409). TRST_N low, or TMS held high, puts the TAP in Test-Logic-Reset, making IDCODE current, clearing SECEN and releasing ports held OFF by EXTEST or IXTEST. -/
  | testLogicReset
  /-- TSFULL (R424). The 40-bit trace timestamp wraps and a TSFULL record carrying the full timestamp is produced. -/
  | tsfull
  /-- VDD_AON_LOSS (R60). VDD_AON leaves its valid range and every pin of the block takes its unpowered state, with the ring carried by the bypass. -/
  | vddAonLoss
deriving DecidableEq, Repr

end Sys2Proof
end

