-- ==== Sys2Proof/Decode.lean ====
section
/-!
DEFINITION. The table word decoder of the block. spec/opcode_table.json gives none of its rows any bits:
commands arrive as events and transactions, whose bit layouts are decoded in Sys2Proof/Machine/Codec.lean.
-/

namespace Sys2Proof

/-- No row of the table gives bits, so no word spells a command. -/
def decodeTableWord (_nbits _w : Nat) : Option Instr := none

end Sys2Proof
end

