-- ==== Sys2Proof/Config.lean ====
section
/-!
DEFINITION. What one elaboration of the adapter fixes (R4, R429, R430), and the member limits.
-/

namespace Sys2Proof.Config

/-- The elaboration of an instance (R4, R390, R429). The member is fixed and cannot be changed. -/
structure Elab where
  /-- Member code: 0 S, 1 M, 2 L, 3 X (R4). -/
  member : Nat
  /-- IHL_BUNDLES_Wp of each built wire port, in ascending order; its length is IHL_WIRE_PORTS. -/
  bundles : List Nat
  reachPorts : Nat
  reachLanes : Nat
  rlcKib : Nat
  exportEntries : Nat
  ifr : Nat
  twin : Bool
  firewall : Bool
  calEntries : Nat
  semHome : Nat
  qrange : Nat
  /-- The die is the base of a stack, so the secondary TAP exists (R56, R413). -/
  stackBase : Bool
  /-- Fused build number and die number (R1, ident_unique). -/
  build : Nat
  unique : Nat
deriving DecidableEq, Repr

/-- A power of two. -/
def isPow2 (n : Nat) : Bool := (List.range 24).any fun i => n == 2 ^ i

/-- The column of R429 for each member, with the cross-parameter rules of R430. -/
def Elab.legal (e : Elab) : Bool :=
  let nw := e.bundles.length
  let maxW := match e.member with | 0 => 1 | 1 => 4 | 2 => 6 | _ => 8
  let maxB := match e.member with | 0 => 1 | 1 => 4 | 2 => 8 | _ => 12
  let maxX := match e.member with | 2 => 1 | 3 => 2 | _ => 0
  let maxRlc := match e.member with | 0 => 0 | 1 => 1024 | 2 => 2048 | _ => 8192
  let maxIfr := match e.member with | 0 => 0 | 1 => 1 | 2 => 4 | _ => 8
  decide (e.member ≤ 3) && decide (1 ≤ nw) && decide (nw ≤ maxW)
    && e.bundles.all (fun b => decide (1 ≤ b) && decide (b ≤ maxB))
    && decide (e.bundles.foldl (· + ·) 0 ≤ 64)
    && decide (e.reachPorts ≤ maxX)
    && (if e.reachPorts = 0 then e.reachLanes == 0
        else e.reachLanes == 4 || e.reachLanes == 8 || e.reachLanes == 16)
    && (e.rlcKib == 0 || (decide (512 ≤ e.rlcKib) && decide (e.rlcKib ≤ maxRlc) && isPow2 e.rlcKib))
    && decide (65536 ≤ e.exportEntries) && decide (e.exportEntries ≤ 524288) && isPow2 e.exportEntries
    && decide (e.ifr ≤ maxIfr)
    && (!e.twin || (decide (2 ≤ e.member) && decide (2 ≤ nw) && !decide e.bundles.Nodup))
    && (!e.firewall || decide (e.member = 3))
    && decide (1024 ≤ e.calEntries) && decide (e.calEntries ≤ 4096) && decide (e.calEntries % 256 = 0)
    && decide (e.semHome ≤ 4096) && decide (e.qrange ≤ 1024)

/-- The full Ihleo-X build of R434. DESIGN CHOICE (log entry 3): the elaboration of `State.reset`. -/
def fullX : Elab where
  member := 3
  bundles := [8, 8, 8, 8, 8, 8, 8, 8]
  reachPorts := 2
  reachLanes := 16
  rlcKib := 8192
  exportEntries := 65536
  ifr := 8
  twin := true
  firewall := true
  calEntries := 4096
  semHome := 4096
  qrange := 1024
  stackBase := false
  build := 0
  unique := 0

/-- Beat lanes per direction, N_BEAT (R29). -/
def Elab.nBeat (e : Elab) : Nat :=
  e.bundles.foldl (· + ·) 0 + e.reachPorts * (if e.reachLanes = 16 then 2 else 1)

/-- The port exists (R362): a built wire port, or a built reach port at 8 or 9. -/
def Elab.portBuilt (e : Elab) (q : Nat) : Bool :=
  if q < 8 then decide (q < e.bundles.length) else decide (q - 8 < e.reachPorts) && decide (q < 10)

/-- The port is a reach port (R30: 8 for X0, 9 for X1). -/
def isReach (q : Nat) : Bool := decide (8 ≤ q)

/-- Built bundles of a wire port, or built lanes of a reach port. -/
def Elab.units (e : Elab) (q : Nat) : Nat :=
  if q < 8 then e.bundles.getD q 0 else if q - 8 < e.reachPorts then e.reachLanes else 0

/-- Replay depth as built: 1024 flits on a wire port, 2048 on a reach port (R126). -/
def replayDepth (q : Nat) : Nat := if isReach q then 2048 else 1024

/-- Receive cell buffer as built (R128). -/
def Elab.rxCells (e : Elab) (q : Nat) : Nat := if isReach q then 16384 else 1024 * e.units q

/-- Hold buffer as built, in flits (R185). -/
def Elab.holdFlits (e : Elab) (q : Nat) : Nat := if isReach q then 1024 else 64 * e.units q

/-- Sets of the Remote Line Cache (R241). -/
def Elab.rlcSets (e : Elab) : Nat := e.rlcKib / 2

/-- Park store in cells (R304). -/
def Elab.parkCells (e : Elab) : Nat := 64 * e.nBeat

/-- TXID of a NOTICE frame, by the timestamp at which it is sent: R375 says that the originator chooses it and R381
does not say how. A free value (log entry 60). -/
opaque noticeTxid : Nat → BitVec 4

/-- The SIZE that a RESP or a status cell shows for a command that set none, by the timestamp and the status of the
command: R375 and R384 place the field and state no value for it there. A free value (log entry 61). -/
opaque unstatedSize : Nat → Nat → BitVec 32

/-- Whether this side asks for precoding when `xphy_precoding` leaves the choice to XT2, by port and time of the training
(R99 and the entry table state no criterion). A free value (log entry 109). -/
opaque preChoice : Nat → Nat → Bool

/-- XEQ that a receiver in XT2 requests, by port, lane and cc: R99 and R100 give the request and no search rule. A free
value (log entry 109). -/
opaque eqRequest : Nat → Nat → Nat → BitVec 4

/-- Largest setting of a transmitter tap, and its preset (R100 names a limit and a preset and gives neither). Free values
(log entry 109). -/
opaque tapMax : Nat → Nat
opaque tapPreset : Nat → Nat

/-- Level from which the precoding of a lane starts, by port and logical lane: R93 gives the precoder and no start. A free
value (log entry 109). -/
opaque preStart : Nat → Nat → Nat

/-- Content of a wire in a parity frame of the steps for which R79 gives none, by wire and cc. A free value (log
entry 110). -/
opaque trainPattern : Nat → Nat → BitVec 31

/-- What d0–d63 hold in a cc without a flit before the first flit after a training, by port and bundle. A free value (log
entry 110). -/
opaque idleUi : Nat → Nat → BitVec 64

/-- Depth in cells of an egress buffer of the IFI, by channel code: R36 has the buffer and no entry or rule gives its
depth. A free value (log entry 12). -/
opaque egressDepth : Nat → Nat

end Sys2Proof.Config
end

