-- ==== Sys2Proof/Machine/Bits.lean ====
section
/-!
DEFINITION. Bit fields, byte order (R6), saturating counts and the keyed lists: the helpers every part of
the machine uses.
-/

namespace Sys2Proof.Machine

/-- Bits [lo + len − 1 : lo] of a value (R6: bit 0 is the least significant). -/
def bitsOf (v lo len : Nat) : Nat := (v >>> lo) % 2 ^ len

/-- Bit `i` of a value as a truth value. -/
def bitAt (v i : Nat) : Bool := bitsOf v i 1 == 1

/-- A field of `len` bits placed at bit `lo`. -/
def field (v lo len : Nat) : Nat := (v % 2 ^ len) <<< lo

/-- 1 for true, 0 for false. -/
def b2n (b : Bool) : Nat := if b then 1 else 0

/-- The `n` little-endian bytes of a value (R6). -/
def toBytes : (n v : Nat) → List Byte
  | 0, _ => []
  | n + 1, v => BitVec.ofNat 8 v :: toBytes n (v / 256)

/-- The value of a little-endian byte string (R6). -/
def ofBytes : List Byte → Nat
  | [] => 0
  | b :: bs => b.toNat + 256 * ofBytes bs

/-- A count that stops at the largest value of its width ("saturating" in the entry tables). -/
def satAdd (width a b : Nat) : Nat := min (a + b) (2 ^ width - 1)

/-- Lookup in a keyed list. -/
def mget {α : Type} : NMap α → Nat → Option α
  | [], _ => none
  | (k', v) :: m, k => if k' = k then some v else mget m k

/-- Lookup with the value an unlisted key reads as. -/
def mgetD {α : Type} (m : NMap α) (k : Nat) (d : α) : α := (mget m k).getD d

/-- Insert or replace, keeping the keys rising. -/
def mset {α : Type} (cells : NMap α) (key : Nat) (val : α) : NMap α :=
  match cells with
  | [] => [(key, val)]
  | cell :: higher =>
    if key < cell.1 then (key, val) :: cell :: higher
    else if cell.1 = key then (key, val) :: higher
    else cell :: mset higher key val

/-- Remove a key. -/
def mdel {α : Type} (cells : NMap α) (key : Nat) : NMap α :=
  match cells with
  | [] => []
  | cell :: higher => if cell.1 = key then higher else cell :: mdel higher key

/-- Keys strictly rising: the one canonical form of a keyed list. -/
def mwf {α : Type} : NMap α → Bool
  | [] => true
  | [_] => true
  | (k, _) :: (k', v') :: m => decide (k < k') && mwf ((k', v') :: m)

/-- The list without its element at an index. -/
def dropAt {α : Type} : Nat → List α → List α
  | _, [] => []
  | 0, _ :: xs => xs
  | n + 1, x :: xs => x :: dropAt n xs

/-- The list with its element at an index replaced. -/
def setAt {α : Type} : Nat → α → List α → List α
  | _, _, [] => []
  | 0, y, _ :: xs => y :: xs
  | n + 1, y, x :: xs => x :: setAt n y xs

/-- The elements of a list with their positions. -/
def withIdx {α : Type} (xs : List α) : List (Nat × α) := (List.range xs.length).zip xs

/-- Replace every element that satisfies a test. -/
def mapIf {α : Type} (p : α → Bool) (f : α → α) (xs : List α) : List α :=
  xs.map fun x => if p x then f x else x

/-- The sum of a list of counts. -/
def sumNat (xs : List Nat) : Nat := xs.foldl (· + ·) 0

/-- Consecutive pieces of `n` elements. -/
def chunk {α : Type} (fuel n : Nat) (xs : List α) : List (List α) :=
  match fuel with
  | 0 => []
  | fuel + 1 => if xs.isEmpty || n == 0 then [] else xs.take n :: chunk fuel n (xs.drop n)

/-- The number of pieces of size `n` that hold `a` things: ⌈a / n⌉. -/
def ceilDiv (a n : Nat) : Nat := (a + n - 1) / n

/-- Data bytes as cells of 16 B, the last one filled with 0 (R212). -/
def bytesToCells (bs : List Byte) : List Cell :=
  (chunk bs.length 16 bs).map fun c => BitVec.ofNat 128 (ofBytes c)

/-- The bytes of data cells, cut at a length (R212). -/
def cellsToBytes (n : Nat) (cs : List Cell) : List Byte :=
  ((cs.map fun c => toBytes 16 c.toNat).flatten).take n

/-- One 128-B line as eight data cells (R215). -/
def lineToCells (v : BitVec 1024) : List Cell :=
  (List.range 8).map fun i => v.extractLsb' (128 * i) 128

/-- Eight data cells as one 128-B line (R215). -/
def cellsToLine (cs : List Cell) : BitVec 1024 :=
  BitVec.ofNat 1024 (ofBytes (cellsToBytes 128 cs))

end Sys2Proof.Machine
end

