-- ==== Sys2Proof/Machine/State.lean ====
section
/-!
DEFINITION. The state of one Ihleo instance: every register, table, buffer, queue and pin level the spec
gives the block, as plain data, and the queue of waiting commands. `State.reset` is the machine at the end
of step S2 of a COLD start (R405): straps captured, every entry at its default, CORE starting, ports OFF.
-/

namespace Sys2Proof.Machine
open Sys2Proof

/-- Why a step stops with a fault. -/
inductive Fault where
  /-- Raised by every command that names a port, bundle, lane, engine or pair that is not elaborated: R362
  says such a unit does not exist, so no such event can occur. Safe: the hardware never goes on from it. -/
  | noSuchUnit
  /-- Raised by IFI_INGRESS_TRANSACTION for a cell presented without credit while the ingress buffer has
  room: R34 says the adapter's behaviour for that cell is not specified. Safe. -/
  | ingressWithoutCredit
deriving DecidableEq, Repr

/-- Why a step has no meaning. -/
inductive Refusal where
  /-- Raised by an arm of exec whose command has no meaning yet. Safe: nothing is claimed of it. -/
  | notModelled (mnemonic : String)
deriving DecidableEq, Repr

/-! ### Transactions -/

/-- Bits [127:60] of a head cell, by kind (R209–R212, R250, R276–R278, R383). -/
inductive Head where
  | mem (fen ca : Bool) (len : BitVec 8) (gpa : Gpa)
  | msg (fen ord : Bool) (mlen : BitVec 8) (dpkg : Pkg) (qid : Qid)
  | sync (fen : Bool) (dpkg : Pkg) (sid : Sid) (arg : BitVec 32)
  | cpl (status len ropc : BitVec 8) (rval : BitVec 32)
  | coh (cst : BitVec 4) (data dty stale vb : Bool) (ackcnt : BitVec 4) (la : LineAddr)
  | blk (rid : Rid) (blk : BitVec 24) (nb fmt : BitVec 4) (resc satf nanf : Bool) (dpkg : Pkg) (ddie : Die)
  | rabort (rid : Rid)
  | rstat (status : BitVec 8) (rkind : BitVec 4) (rid : Rid) (rblkx : BitVec 24)
      (sresc ssat snan : Bool) (reng : BitVec 4)
  | mgmt (fen : Bool) (dpkg : Pkg) (ddie : Die) (index : BitVec 16) (sub : BitVec 8)
      (alen : BitVec 6) (mseg : BitVec 14)
  | other (bits : BitVec 68)
deriving DecidableEq, Repr

/-- A transaction: the common head layout of R208 (in source form TAG and SPORT hold RQID), the rest of the
head, and its data cells. -/
structure Txn where
  opc : BitVec 8
  ten : Ten
  tag : Tag
  sport : BitVec 4
  spkg : Pkg
  sdie : Die
  head : Head
  data : List Cell
deriving DecidableEq, Repr

/-- A transaction held in a buffer, with what the source adapter has decided about it. -/
structure Waiting where
  txn : Txn
  /-- CPORT and CSLOT of an SCH transaction (R30). -/
  cport : BitVec 4 := 0
  cslot : SlotId := 0
  /-- Acceptance order on the IFI (the order "earlier" of the ordering rules). -/
  seq : Nat := 0
  /-- cc of acceptance; of an SCH payload the cc of its CSOP cell. -/
  at_ : Nat := 0
  /-- cc of the CEOP cell of an SCH payload (R178). -/
  endAt : Nat := 0
  /-- Step of R219 that the transaction stands at: 0 not yet decoded, 6 ordering hold, 8 waiting for local
  service, 9 routed and waiting for a usable port, a TAG and credit, 10 waiting at a firewall bucket (R356),
  11 admitted by the firewall and not yet decoded, 12 an SCH payload that is assigned, 13 formed here for
  this die and not yet handed over (R444). -/
  step : Nat := 0
  /-- The address after the window rewrite of R222. -/
  gpa : Gpa := 0
  /-- Preferred port and alternates of the route entry taken at step 7 (R220). -/
  route : List Nat := []
  /-- The VC on which it arrived over a link. -/
  vc : Nat := 0
  /-- Where it came from: none for the adapter itself, a port for a forwarded transaction. -/
  from_ : Option Nat := none
  /-- It was parked under QUIESCE: it stays in the park store, without IFI credit, until it is committed (R304, R308). -/
  parked : Bool := false
  /-- Blocks of an RCONT or RBLK already taken (R281). -/
  taken : Nat := 0
  /-- The TAG of a miss-tracker or victim entry that this coherence transaction serves. -/
  line : Option LineAddr := none
  /-- Port and TAG that are free again once this completion is presented, or leaves toward a third-party die (R225). -/
  frees : Option (Nat × Nat) := none
deriving DecidableEq, Repr

/-- A flit: the header fields of R111, R113 and the fifteen payload cells (R110). -/
structure Flit where
  ftype : BitVec 4
  gen : Gen := 0
  fseq : Fseq := 0
  ackseq : Fseq := 0
  ackk : BitVec 2 := 0
  crvc : BitVec 4 := 0
  crcnt : BitVec 6 := 0
  slot : SlotId := 0
  leap : Bool := false
  beacon : Bool := false
  twin : Bool := false
  hold : Bool := false
  rply : Bool := false
  cells : List Cell := []
  /-- Leading cells that continue a transaction of an earlier flit; kept by the sender only (R164). -/
  lead : Nat := 0
deriving DecidableEq, Repr

/-! ### Ports -/

/-- The link states with the codes of R141. -/
inductive LinkState where
  | off | detect | train | align | param | active | retrain | hold | nap | dormant | fault
deriving DecidableEq, Repr

/-- The training step a port stands at (R75, R76, R99, R101). -/
inductive TrainStep where
  | idle | d1 | d2 | d3 | t1 | t2 | t3 | t4 | t5 | a1 | a2
  | xd1 | xd2 | xt1 | xt2 | xt3 | xa1 | xa2 | xa3
deriving DecidableEq, Repr

/-- A live swap that awaits its SPARE_GO (R86). -/
structure Swap where
  wire : Nat
  copies : Nat
deriving DecidableEq, Repr

/-- One bundle of a wire port. -/
structure Bundle where
  /-- `wphy_bundle_state`: 0–6. -/
  state : Nat := 0
  /-- Last accepted hello frame, and whether two identical ones have been accepted (R70). -/
  hello : Option (BitVec 32) := none
  twice : Bool := false
  /-- A loss declared since the last entry to a watching state (R72), and whether BUNDLE_LOST has reported it (R73). -/
  lost : Bool := false
  told : Bool := false
  /-- `wphy_spare_map`, 28 bits (R82). -/
  spareMap : Nat := 0
  /-- `wphy_eye_table`: phase code, integer UI and eye width of each wire. -/
  eyes : List (BitVec 16) := []
  /-- Wires that failed T3 of the last training; and of the last full training (R420). -/
  t3bad : List Nat := []
  t3full : List Nat := []
  /-- The map this receiver sent in REPAIR_MAP and whether MAP_ACK returned it (T5). -/
  mapAcked : Bool := false
  /-- Training messages of the TRK wire (R74): the first is the one that is repeated, since this cc; the others wait. -/
  msgs : List (BitVec 31) := []
  msgAt : Nat := 0
  /-- Write point of the retiming FIFO at ALIGN, in UI of its 128 (R68). -/
  fifo : Option Nat := none
  /-- Errors located on d0–d63 (keys 0–63) and mismatches of the idle spares (keys 64–67) in the 1-ms window with
  this number (R84, R85). -/
  errs : NMap Nat := []
  errsAt : Nat := 0
  /-- Last UI of d0–d63, which the wires hold in a cc without a flit (R64); none before the first flit after a training. -/
  lastUi : Option (BitVec 64) := none
  /-- The map this transmitter applied from the partner's REPAIR_MAP, with TCRC (R74, R84). -/
  txMap : Nat := 0
  txCrc : Bool := false
  swaps : List Swap := []
  /-- `ixt_fuse_proposal` and `ixt_result` (R415, R419). -/
  proposal : Nat := 0
  ixt : List (BitVec 16) := []
deriving DecidableEq, Repr

/-- One lane of a reach port. -/
structure Lane where
  /-- `xphy_lane_state`: 0–5. -/
  state : Nat := 0
  /-- `xphy_lane_symbol_errors`. -/
  errors : Nat := 0
  /-- `xphy_lane_eq`, 16 B. -/
  eq : List Byte := []
  lost : Bool := false
  /-- The lane passes in this direction at the training in progress. -/
  pass : Bool := true
  /-- The pair is inverted, found at XT1 and corrected in the receiver (R91). -/
  inverted : Bool := false
  /-- XLANE of the frames received on it: the partner's transmit lane (R100). -/
  peer : Option Nat := none
  /-- The four taps of the own transmitter on this lane, and the result of the last request for them (R100). -/
  taps : List Nat := [0, 0, 0, 0]
  eqs : Nat := 0
  ixtErrors : Nat := 0
deriving DecidableEq, Repr

/-- A PARAM message body as its fields (R138). -/
structure ParamMsg where
  pmt : BitVec 4 := 0
  rxclr : Bool := false
  gen : Gen := 0
  mask : BitVec 16 := 0
  die : Die := 0
  role : BitVec 3 := 0
  port : BitVec 4 := 0
  ipv : BitVec 16 := 0
  build : BitVec 16 := 0
  ffv : BitVec 8 := 0
  cfv : BitVec 8 := 0
  carry : BitVec 8 := 0
  compat : BitVec 8 := 0
  feat : BitVec 64 := 0
  rxnext : Fseq := 0
  txold : Fseq := 0
  txcnt : BitVec 12 := 0
  rxcells : BitVec 16 := 0
  shared : BitVec 16 := 0
  res : List (BitVec 16) := []
  rdepth : BitVec 16 := 0
  path : BitVec 16 := 0
deriving DecidableEq, Repr

/-- A control code that waits for the TRK words of a wire port or the codewords of a reach port (R71, R98): a code of
bundle scope names its bundle. -/
structure TrkCode where
  bundle : Option Nat
  code : Nat
  arg : Nat
deriving DecidableEq, Repr

/-- A training frame of a reach port that is sent once (R100, R102): a latency marker, the echo of one with the cc in
which the marker came, or an abort. -/
structure OnceFrame where
  lmk : Nat := 0
  echo : Bool := false
  since : Nat := 0
  abort : Nat := 0
deriving DecidableEq, Repr

/-- What the block presents at its ports in one core cycle (R28). What the PHY pins carry in a cc follows from the state
of their port (the file Pins). -/
inductive Output where
  | ifi (ch : EgCh) (csop ceop : Bool) (cport : BitVec 4) (cslot : SlotId) (ten : Ten) (data : Cell)
  | cfgAck
  | ifiCredit (ch : IngCh) (n : Nat)
  | evtCredit (n : Nat)
  | evt (code : BitVec 8) (ten : Ten) (arg : BitVec 32)
  | flit (q bundle : Nat) (f : Flit) (crcInverted : Bool)
  | codeword (q : Nat) (msg : BitVec 5140) (last : List Nat)
  | param (q : Nat) (m : ParamMsg)
  | ring (bytes : List Byte)
  | trace (record : BitVec 128)
  | bumps (cells : List Bool)
deriving DecidableEq, Repr

/-- The PARAM exchange of a port (R157). -/
structure ParamState where
  offered : Bool := false
  partner : Option ParamMsg := none
  gen : Gen := 0
  mask : Nat := 0
  echoSent : Bool := false
  /-- Own COMMIT sent since this cc; a partner COMMIT equal to it received. -/
  commitAt : Option Nat := none
  commitRcvd : Bool := false
  /-- Receive direction given up for this PARAM (R162). -/
  rxclr : Bool := false
deriving DecidableEq, Repr

/-- Who waits for the completion of a TAG (R225). -/
inductive TagUse where
  /-- A request of the die; completed on RSP, or on MSG for a message. -/
  | die
  /-- A coherence request of the RLC for a line. -/
  | rlc (la : LineAddr)
  /-- A CWB or CEVC of the victim buffer. -/
  | victim (la : LineAddr)
  /-- A message of a proxied RX slot (R360). -/
  | proxy (row : Nat)
deriving DecidableEq, Repr

/-- One allocated TAG. -/
structure TagInfo where
  opc : BitVec 8
  ten : Ten
  rqid : BitVec 16
  seq : Nat
  use_ : TagUse
  /-- Its completion has come and waits to be presented (R225, R226). -/
  done : Bool := false
deriving DecidableEq, Repr

/-- A transaction in the receive cell buffer of a port, or the part of it that has arrived (R129). -/
structure RxOpen where
  vc : Nat
  left : Nat
  cells : List Cell
deriving DecidableEq, Repr

/-- An accepted control cell that waits for the command that applies it. -/
structure CtrlIn where
  cell : Cell
  /-- Accepted with RPLY = 0 and HOLD = 0 (R194). -/
  live : Bool
  /-- cc of its sequence check. -/
  at_ : Nat
deriving DecidableEq, Repr

/-- An accepted SCHED flit with the epoch R183 gives it. -/
structure SchedIn where
  flit : Flit
  epoch : Option Epoch
  at_ : Nat
deriving DecidableEq, Repr

/-- A payload assigned to the next occurrence of its slot (R178); the epoch is that of the occurrence. -/
structure Assigned where
  slot : SlotId
  epoch : Epoch
  ten : Ten
  /-- Acceptance number of the transaction that waits in the SCH ingress buffer. -/
  seq : Nat := 0
  /-- Payload of a proxied slot (R360). -/
  cells : List Cell := []
deriving DecidableEq, Repr

/-- A flit in the hold buffer (R185). -/
structure Held where
  slot : SlotId
  epoch : Epoch
  deadline : Nat
  cells : List Cell
  rpld : Bool
  /-- The calendar row under which it arrived. -/
  row : Nat
  /-- Lost to an uncorrectable error (R333). -/
  lost : Bool := false
  /-- An RXF flit waits for this occurrence of its TXF slot: port, slot and epoch (R188). -/
  intended : Option (Nat × SlotId × Epoch) := none
  /-- The deadline has passed and the flit is handed over. -/
  handed : Bool := false
deriving DecidableEq, Repr

/-- AON retention of a sleeping port (R400). -/
structure Retained where
  mask : Nat
  width : Nat
  loop : Nat
  bundleStates : List Nat
  laneStates : List Nat
  vEntries : List (Nat × Nat)
deriving DecidableEq, Repr

set_option maxRecDepth 1500 in
/-- One port: PHY, training, link layer, buffers, calendar and power state. -/
structure Port where
  state : LinkState := .off
  idle : Bool := false
  supply : Bool := true
  testHeld : Bool := false
  /-- RSTF of the frames sent: from a reset until the port next reaches ACTIVE (R70). -/
  rstf : Bool := true
  pll : Bool := false
  partnerHello : Bool := false
  partnerRdy : Bool := false
  partnerDie : Die := 0
  partnerRole : BitVec 3 := 0
  /-- PPORT of the partner's last OFFER (R138). -/
  partnerPort : Nat := 0
  step : TrainStep := .idle
  fast : Bool := false
  fastOk : Bool := false
  doneSent : Bool := false
  doneRcvd : Bool := false
  /-- Class D results of an earlier training are held (R76). -/
  trained : Bool := false
  trainAt : Nat := 0
  /-- cc in which the step in progress began. -/
  stepAt : Nat := 0
  /-- Own transmit lanes that the partner reports as failing in its receive direction at XA1 (R106). -/
  partnerBad : List Nat := []
  /-- Physical lanes of the logical lanes 0 to w − 1, by direction (R91), and both at the last LINK_FULL (R147). -/
  rxLanes : List Nat := []
  txLanes : List Nat := []
  lastLanes : List Nat × List Nat := ([], [])
  /-- cc of the first accepted partner hello: the D2 window of 4 µs starts (R75); and HDIE, HROLE and HPORT of the
  first bundle with which the other bundles must agree (R77). -/
  gatherAt : Option Nat := none
  firstHello : Option (BitVec 14) := none
  /-- Codes that wait for TRK words or codewords, and training frames to be sent once, with the cc in which the first
  of them began. -/
  codes : List TrkCode := []
  once : List OnceFrame := []
  onceAt : Nat := 0
  bundles : List Bundle := []
  lanes : List Lane := []
  /-- First loss declaration of the 128-cc window (R73, R105). -/
  lossAt : Option Nat := none
  /-- cc and rank in the order of R143 of the strongest event that has acted last. -/
  struck : Option (Nat × Nat) := none
  /-- RA and TA, the attempt counts (R148, R149). -/
  ra : Nat := 0
  ta : Nat := 0
  /-- FSEQ at O when RETRAIN was last entered, none when U was 0 (R148). -/
  raMark : Option Fseq := none
  activeAt : Nat := 0
  holdAt : Nat := 0
  holdNoticed : Bool := false
  /-- Sequence state (R119–R126). U is the number of replay entries. -/
  gen : Gen := 0
  e : Fseq := 0
  o : Fseq := 0
  replay : List Flit := []
  replayLost : List Fseq := []
  replayPtr : Option Nat := none
  /-- Re-packed flits at the end of the replay buffer that have not been sent yet (R164). -/
  fresh : Nat := 0
  replayCnt : Nat := 0
  /-- cc of the last replay start; entries freed, credits returned by VC and shares of tenancies returned in this cc,
  which are usable from the next (R126, R132, R144). -/
  replayAt : Option Nat := none
  freedNow : Nat := 0
  lateUv : List Nat := List.replicate 16 0
  lateSt : NMap Nat := []
  ackAt : Option Nat := none
  nakOwed : Bool := false
  nakSent : Bool := false
  nakOver : Bool := false
  rplySeen : Bool := false
  ackOwed : Bool := false
  stripe : Nat := 0
  /-- Credits: U_v, pending returns, partner layout (R128, R131, R132). -/
  uv : List Nat := List.replicate 16 0
  pend : List Nat := List.replicate 16 0
  /-- Own layout as advertised at the last PARAM, by which received cells are checked (R128, R332). -/
  rsvA : List Nat := List.replicate 16 0
  shA : Nat := 0
  rsvP : List Nat := List.replicate 16 0
  shP : Nat := 0
  deficit : List Nat := List.replicate 16 0
  drr : Nat := 0
  drr0 : Nat := 0
  /-- cc since which the head of a VC has been ready with credit (R134), none when it is not. -/
  readyAt : List (Option Nat) := List.replicate 16 none
  /-- Charge FIFO of each VC and ST_t of each tenancy (R302). -/
  charges : List (List (Nat × Nat)) := List.replicate 16 []
  st : NMap Nat := []
  /-- Receive side. -/
  rx : List Waiting := []
  rxOpen : Option RxOpen := none
  ctrlIn : List CtrlIn := []
  schedIn : List SchedIn := []
  slotsIn : List RxFlit := []
  cwHalf : Option (BitVec 5120 × Bool × BitVec 3) := none
  cwBad : Nat := 0
  /-- Transmit side. Bundles that have carried a flit in this cc (R118). -/
  sentOn : List Nat := []
  /-- End of the flit slot that a UCIe module holds (R351). -/
  slotTill : Nat := 0
  /-- Reach port: flits that wait for the slots of the next codewords, the flit whose second half is due, whether the
  next codeword is the second of its pair, and the phase of the codeword clock in 1/170 codeword (R94, R95, R97). -/
  txSlots : List (Flit × Bool) := []
  txSplit : Option (Flit × Bool) := none
  cwSecond : Bool := false
  cwPhase : Nat := 0
  /-- Last PAM4 level sent on each logical lane, from which precoding goes on (R93); empty before the first codeword. -/
  txLast : List Nat := []
  waitq : List Waiting := []
  stream : List Cell := []
  /-- Leading cells of the stream whose transaction has its head in a sent flit (R129). -/
  streamLead : Nat := 0
  /-- VC of that transaction. -/
  streamVc : Nat := 0
  ctrlOut : List Cell := []
  credOut : Bool := false
  /-- Scheduled flits accepted here that wait to be sent, with the epoch of their acceptance (R193). -/
  schedOut : List (Flit × Epoch) := []
  param : ParamState := {}
  /-- PARAM messages of this side (R137): the first is the one that is repeated, since this cc; the others wait. -/
  params : List ParamMsg := []
  paramAt : Nat := 0
  mask : Nat := 0
  /-- Mask, width and loop of the last LINK_FULL, which a retrain or a fast training keeps (R77, R145). -/
  lastMask : Nat := 0
  lastWidth : Nat := 0
  lastLoop : Nat := 0
  /-- Agreed features and the partner's carry formats in force since the last COMMIT (R339, R400). -/
  feat : Nat := 0
  carry : Nat := 0
  /-- Offered mask of the training in progress. -/
  offer : Nat := 0
  width : Nat := 0
  loop : Nat := 0
  pathDelay : Nat := 0
  /-- Loop values of the markers of the XA3 in progress, and the partner's L and minimum width (R102). -/
  loops : List Nat := []
  partnerLoop : Nat := 0
  partnerMin : Nat := 16
  /-- The partner asked for precoding in this transmitter (XPRE, R100). -/
  txPre : Bool := false
  /-- Allocated TAGs (R225). -/
  tags : NMap TagInfo := []
  /-- Scheduled plane. -/
  calId : Nat := 0
  cal : List Nat := []
  calNew : Bool := false
  /-- Header and rows of a new calendar that has passed the check of F_n and switches at T_n (R177). -/
  calSwitch : Option (List Nat) := none
  /-- The calendar has been empty for one whole epoch (R13). -/
  calIdle : Bool := true
  assigned : List Assigned := []
  hold : List Held := []
  beaconEpoch : Option Epoch := none
  /-- Consecutive live beacons that failed for another reason than CALID (R196). -/
  desync : Nat := 0
  /-- 2 in DESYNC, 3 with a CALID mismatch, else 1 (R194, R196). -/
  schState : Nat := 1
  schLatency : Nat := 0
  /-- Power. -/
  idleAt : Nat := 0
  sleepReq : Option SleepTarget := none
  sleepReqAt : Nat := 0
  sleepTo : Option SleepTarget := none
  /-- Wake in progress since this cc; woken only to go to DORMANT (R398). -/
  wakeAt : Option Nat := none
  toDormant : Bool := false
  /-- This side began the wake and drives the wake pattern (R88); a wake cause that is held until entry (R90). -/
  waker : Bool := false
  wakeHeld : Bool := false
  retained : Option Retained := none
  sleepAt : Nat := 0
  /-- 1-µs park after own PLL loss (R154). -/
  pllPark : Bool := false
  /-- The 64 counters of R421. -/
  obs : List Nat := List.replicate 64 0
deriving DecidableEq, Repr

/-! ### Instance parts -/

/-- The CFG window (R42). -/
structure CfgWindow where
  index : BitVec 16 := 0
  sub : BitVec 8 := 0
  segoff : BitVec 16 := 0
  seglen : BitVec 6 := 0
  size : BitVec 32 := 0
  status : BitVec 8 := 0
  busy : Bool := false
  /-- OP of the command that waits for the supervisor (R368), 0 when none does. -/
  op : Nat := 0
  /-- Timestamp at which that command was accepted (the order of R44). -/
  since : Nat := 0
  data : List (BitVec 32) := List.replicate 8 0
  /-- Accesses whose CFG_ACK has not been pulsed: the cc in which it is due, and whether the access wrote OP (R41, R48). -/
  acks : List (Nat × Bool) := []
deriving DecidableEq, Repr

/-- An open segmented write, or a snapshot being read (R370, R371). -/
structure Transfer where
  key : Nat
  write : Bool
  bytes : List Byte
  next : Nat
deriving DecidableEq, Repr

/-- The supervisor and its patch bank (R385–R387). -/
structure Supervisor where
  state : Nat := 1
  /-- Verified patch bank: its revision and bytes. -/
  bank : Option (Nat × List Byte) := none
  rev : Nat := 0
  patchStatus : Nat := 0
  /-- Boot phase: the next start performs S5 and S6 of R405. -/
  boot : Bool := true
deriving DecidableEq, Repr

/-- A request kept per source of the ring, and the response to it (R380). -/
structure RingKept where
  src : Nat
  request : List Byte
  response : List Byte
  at_ : Nat
deriving DecidableEq, Repr

/-- The ring agent (R377–R382). -/
structure RingAgent where
  joined : Bool := false
  /-- RESP and NOTICE frames that wait to be sent (R378). -/
  waiting : List (List Byte) := []
  kept : List RingKept := []
  /-- Requests that wait for the supervisor (R368), each with the timestamp of its arrival (the order of R44). -/
  later : List (Nat × List Byte) := []
  noticeAt : Option Nat := none
  noticeOwed : Bool := false
deriving DecidableEq, Repr

/-- What the interrupt rules need of the recent causes: the cc of the newest IRQ_CAUSE event, whose EARG gathers every
group that rises in that cc (R40), and the AON cycle of the newest cause with the causes that occurred in it (R388). -/
structure IrqLog where
  at_ : Option Nat := none
  cycle : Nat := 0
  causes : List Nat := []
deriving DecidableEq, Repr

/-- A service record (R334). -/
structure SvcRecord where
  reason : Nat := 0
  ukind : Nat := 0
  unit_ : Nat := 0
  sub : Nat := 0
  open_ : Bool := false
  count : Nat := 0
  topen : Nat := 0
  tlast : Nat := 0
  detail : Nat := 0
deriving DecidableEq, Repr

/-- Thermal inputs (R53, R203–R205): level of each input, and the overload latch. -/
structure Thermal where
  levelLocal : Nat := 0
  levelBelow : Nat := 0
  demand : Nat := 0
  /-- The overload has been reported; it is not reported again before the demand has stayed at or below the maximum
  for 1 ms. -/
  tripped : Bool := false
  /-- cc since which the demand is at or below the maximum, none while it exceeds it. -/
  underAt : Option Nat := none
  /-- A TEMPO is owed at the end of this cc, for a rise of the demand or a boundary (R204, R206). -/
  owed : Bool := false
deriving DecidableEq, Repr

/-- Epochs and the flooding tables of the calendar domain (R170, R195, R199, R202). -/
structure Sched where
  joined : Bool := false
  epoch : Epoch := 0
  tn : Nat := 0
  n : Nat := 0
  /-- LT[c + 1 + i], AP[c − i]. -/
  lt : List Nat := List.replicate 32 0
  ap : List Nat := List.replicate 16 0
  /-- Leap slots in fact inserted in epochs c − i; a catch-up raises AP but not these (R199, R200). -/
  nh : List Nat := List.replicate 16 0
  /-- F of the next epoch has passed (R172). -/
  frozen : Bool := false
  /-- N of the next epoch once it is frozen (R200). -/
  nextN : Nat := 0
  /-- The last 16 distinct notice and fault cells (R202). -/
  seen : List Cell := []
  /-- The switch of the next epoch has passed its check (R177). -/
  switchOk : Bool := false
deriving DecidableEq, Repr

/-- A waiter in a semaphore's FIFO (R234). -/
structure Waiter where
  txn : Txn
  /-- A waiter of the own die keeps its acceptance number; others are answered over the link. -/
  local_ : Option Nat
  count : Nat
deriving DecidableEq, Repr

/-- A semaphore or barrier homed here (R232). -/
structure Sem where
  barrier : Bool
  value : Nat := 0
  owner : Ten
  expected : Nat := 0
  arrived : Nat := 0
  bgen : BitVec 16 := 0
  fifo : List Waiter := []
deriving DecidableEq, Repr

/-- A transaction of the own die that has not completed (the orders of R237). -/
structure OrdRec where
  seq : Nat
  ten : Ten
  opc : BitVec 8
  /-- CA = 0 line, semaphore or ordered queue it is ordered by; none for the others. -/
  key : Option (Nat × Nat)
  fen : Bool
  rqid : BitVec 16
deriving DecidableEq, Repr

/-- The five line states (R247). -/
inductive LineSt where
  | i | s | e | m | o
deriving DecidableEq, Repr

/-- A line in the RLC (R241). -/
structure RlcLine where
  set_ : Nat
  way : Nat
  st : LineSt
  data : BitVec 1024
  hint : Option Nat
deriving DecidableEq, Repr

/-- A local or proxied request that waits on a line (R248, R357). -/
structure LineReq where
  txn : Txn
  seq : Nat
  /-- Some port for a request that a firewall port admitted. -/
  proxy : Option Nat
  /-- Port and TAG that are free again once the completion of this proxied request leaves (R225). -/
  frees : Option (Nat × Nat) := none
deriving DecidableEq, Repr

/-- A miss-tracker entry (R243, R261). -/
structure Miss where
  la : LineAddr
  opc : BitVec 8
  port : Option Nat
  tag : Tag
  ten : Ten
  waiting : List LineReq
  gnt : Option (LineSt × Nat)
  acks : Nat
  data : Option (BitVec 1024)
  fwd : Option LineSt
  dirty : Bool
  policy : Nat
  /-- Its line or its data was lost to an uncorrectable error (R333): true when the waiting requests end with
  TARGET_ERROR, false when they start again. -/
  lost : Option Bool := none
  /-- Its transaction has ended without a way for the line: the state in which the line waits, in the data buffer, for a
  victim-buffer entry (R242). -/
  evict : Option LineSt := none
deriving DecidableEq, Repr

/-- A victim-buffer entry (R243). -/
structure Victim where
  la : LineAddr
  st : LineSt
  dirty : Bool
  data : BitVec 1024
  port : Option Nat
  tag : Tag
  flush : Bool
  /-- Requests that waited on the miss-tracker entry from which the line was evicted (R242); they wait for WBACK (R248). -/
  waiting : List LineReq := []
deriving DecidableEq, Repr

/-- The Remote Line Cache. -/
structure Rlc where
  lines : NMap RlcLine := []
  plru : NMap (BitVec 15) := []
  miss : List Miss := []
  victims : List Victim := []
  /-- Lines whose eviction a flush, disable or way removal still owes, in set and way order. -/
  owed : List LineAddr := []
  /-- The writes whose last WBACK has not come (R244). -/
  busy : Bool := false
deriving DecidableEq, Repr

/-- A holder of a line, by PKG and DIE (R265). -/
structure Holder where
  pkg : Pkg
  die : Die
deriving DecidableEq, Repr

/-- An entry of the export filter (R265). A line entry names its possible owner; a region entry has none. -/
structure FilterEntry where
  region : Bool
  /-- Line address, or line address of the first line of the region. -/
  la : LineAddr
  owner : Option Holder
  /-- The owner is in O, with or without sharers (R257, filter state OW); otherwise it may hold E or M. -/
  owned : Bool
  /-- Holders, the longest recorded first; the owner among them. -/
  holders : List Holder
  /-- Last use, for the pseudo-LRU choice of R266. -/
  used : Nat
deriving DecidableEq, Repr

/-- What a home line-tracker entry serves (R256): a request, a writeback, a directory snoop, or a recall of a
filter entry for the absent map or a lost entry (R269, R333). -/
inductive TrackKind where
  | request | writeback | snoop | recall
deriving DecidableEq, Repr

/-- A home line-tracker entry (R256). -/
structure Track where
  /-- Arrival number: a name for the entry. -/
  id : Nat
  la : LineAddr
  kind : TrackKind
  txn : Txn
  busy : Bool := false
  /-- Before the request proper: the line or region at `rla` is recalled first (R266, R267). -/
  recalling : Bool := false
  rla : LineAddr := 0
  region : Bool := false
  /-- Dirty data of the recall is discarded (R269). -/
  discard : Bool := false
  /-- The request is on INB, and its INR answer has come. -/
  presented : Bool := false
  inrDone : Bool := false
  nodata : Bool := false
  /-- State granted to the requester. -/
  grant : Option LineSt := none
  /-- Holders whose answers are awaited. -/
  awaiting : List Holder := []
  /-- The holder snooped as possible owner, and the opcode of that snoop. -/
  target : Option Holder := none
  tsnoop : BitVec 8 := 0
  needFetch : Bool := false
  fetching : Bool := false
  ackDone : Bool := false
  staleAck : Bool := false
  dataAck : Bool := false
  dirtyFwd : Bool := false
  /-- Directory snoop: dirty data returned and clean copies that remain. -/
  dirty : Option (BitVec 1024) := none
  remain : Bool := false
deriving DecidableEq, Repr

/-- The home side of coherence. -/
structure Home where
  filter : List FilterEntry := []
  track : List Track := []
  /-- Next arrival number, and the count behind `FilterEntry.used`. -/
  nextId : Nat := 0
  useCtr : Nat := 0
deriving DecidableEq, Repr

/-- A carry block (R274): NaN, a CB block of scale and integers, or 32 binary32 words. -/
inductive Carry where
  | nan
  | cb (s : Nat) (q : List Int)
  | fp (w : List (BitVec 32))
deriving DecidableEq, Repr

/-- The sticky flags of blocks (R276). -/
structure BlkFlags where
  resc : Bool := false
  sat : Bool := false
  nan : Bool := false
deriving DecidableEq, Repr

/-- A reduction descriptor (R277). -/
structure Desc where
  rid : Rid
  op : BitVec 2
  ifmt : BitVec 4
  cfmt : BitVec 2
  ofmt : BitVec 4
  contrib : Nat
  local_ : Bool
  allred : Bool
  sr : Bool
  nanZero : Bool
  satNan : Bool
  eng : Nat
  nblk : Nat
  ppkg : Pkg
  pdie : Die
  root : Bool
  seed : BitVec 32
  children : List Holder
deriving DecidableEq, Repr

/-- A staged contribution (R281): source 0 is the local one, j + 1 child slot j. -/
structure Staged where
  blk : Nat
  src : Nat
  carry : Carry
  flags : BlkFlags
deriving DecidableEq, Repr

/-- A RID that is OPEN or ABORTED (R279); FREE RIDs have no entry. -/
structure RidState where
  aborted : Bool
  desc : Desc
  ten : Ten
  eng : Nat
  window : Nat
  klo : Nat
  staged : List Staged
  flags : BlkFlags
  /-- Result blocks received from the parent. -/
  got : List Nat
  /-- RIDs of an engine out of service move: cc at which the move started (R294). -/
  moving : Option Nat
  /-- The cc in which its last group started: blocks that start in one cc are one group (R280). -/
  groupAt : Option Nat := none
deriving DecidableEq, Repr

/-- A block in the orphan pool (R281), with the bytes it arrived with. -/
structure Orphan where
  rid : Rid
  blk : Nat
  /-- It came in an RRES. -/
  res : Bool
  holder : Option Holder
  fmt : BitVec 4
  bytes : List Byte
  flags : BlkFlags
deriving DecidableEq, Repr

/-- The reduction engines (R271). -/
structure Ifr where
  rids : NMap RidState := []
  orphans : List Orphan := []
  /-- Engines that failed their residue check (R294). -/
  failed : List Nat := []
  /-- Blocks that each engine has started in this cc, at most 90 (R271, R280). -/
  starts : NMap Nat := []
  /-- Staging slots removed by field repair (R332). -/
  removed : Nat := 0
deriving DecidableEq, Repr

/-- A drain in progress (R305). -/
structure Drain where
  ten : Ten
  at_ : Nat
  readmit : Bool
deriving DecidableEq, Repr

/-- Tenancy control: DRAINING is 1 and QUIESCED is 2; unlisted TENs are ADMITTED (R298). -/
structure Tenancy where
  st : NMap Nat := []
  drains : List Drain := []
  park : List (IngCh × Waiting) := []
deriving DecidableEq, Repr

/-- Roles of a unit (R315). -/
inductive Role where
  | out | active | standby | catchup
deriving DecidableEq, Repr

/-- One twin pair (R315–R321). -/
structure Pair where
  roleA : Role := .out
  roleB : Role := .out
  readyA : Bool := false
  readyB : Bool := false
  /-- The dual-action window ends at this cc (R321). -/
  window : Option Nat := none
  rc : List Nat := List.replicate 16 0
  av : List Nat := List.replicate 16 0
  vigil : Nat := 0
  vigilAt : Nat := 0
  outA : Nat := 0
  outB : Nat := 0
  health : Nat := 0
deriving DecidableEq, Repr

/-- Firewall buckets in 1/1,024 cell (R356) and proxied messages waiting per row (R360). -/
structure Firewall where
  bucket : NMap Nat := []
  proxyRx : NMap Nat := []
  hits : NMap Nat := []
deriving DecidableEq, Repr

/-- Field repair (R331, R332): spare rows used and banks or ways removed, by structure and unit. -/
structure Repair where
  used : NMap Nat := []
  banks : NMap Nat := []
  emptyCal : List Nat := []
deriving DecidableEq, Repr

/-- The test access port (R409–R417). -/
structure Tap where
  instr : BitVec 8 := 1
  /-- The boundary register (R411): the cells that drive, and what Capture-DR last took. -/
  boundary : List Bool := []
  captured : List Bool := []
  secen : Bool := false
  ixMask : BitVec 16 := 0
  mbist : BitVec 8 := 0
  stat : Nat := 0
deriving DecidableEq, Repr

/-- An event that trace may record (R424). -/
structure TraceEvent where
  kind : Nat
  port : Nat
  sub : Nat
  bad : Bool
  data : BitVec 64
deriving DecidableEq, Repr

/-- The trace buffer (R423–R427). State codes as `trace_state`. -/
structure Trace where
  state : Nat := 0
  buf : NMap (BitVec 128) := []
  count : Nat := 0
  wptr : Nat := 0
  queue : List (BitVec 128) := []
  post : Option Nat := none
  rseq : Nat := 0
  /-- Events dropped since the last LOST record. -/
  lostOwed : Nat := 0
  /-- STREAM: cc from which TRACE_OUT is free for the next record. -/
  streamAt : Nat := 0
  /-- Events of this cc (R426). -/
  events : List TraceEvent := []
deriving DecidableEq, Repr

/-- Fuses that are written once (class F): manufacturer, spare maps, DIE_ALIAS rows. -/
structure Fuses where
  mfr : BitVec 11 := 0
  maps : NMap Nat := []
  mapsAtCold : NMap Nat := []
  mapWritten : List Nat := []
  alias_ : NMap Nat := []
deriving DecidableEq, Repr

/-- State of CORE (`pm_core_state`, R391, R392). -/
inductive CoreState where
  | stopped | starting | running
deriving DecidableEq, Repr

/-- Reset inputs held asserted and the strongest asserted since the last release (R48): 3 COLD, 2 WARM,
1 DIE. -/
structure ResetsHeld where
  porst : Bool := false
  wrst : Bool := false
  drst : Bool := false
  worst : Nat := 0
  /-- Instance held in reset by reference or supply loss (R46, R395). -/
  refLost : Bool := false
  vddLost : Bool := false
  aonLost : Bool := false
  /-- REFCLK has been lost since the last reset was performed: `last_reset` takes REFLOSS (R46). -/
  refSeen : Bool := false
deriving DecidableEq, Repr

/-- The state of one Ihleo instance. -/
structure State where
  elab_ : Config.Elab
  fuses : Fuses := {}
  /-- Scalar Almanac entries that differ from their default, by index · 256 + subindex (R362). -/
  alm : NMap Nat := []
  /-- TABLE entries that have been written: their rows as little-endian numbers (R363). -/
  tabs : NMap (List Nat) := []
  /-- BLOB statistics kept by index: status counts (R227), overruns (R310). -/
  counts : NMap Nat := []
  /-- The 64-bit timestamp in cc (R393). -/
  now : Nat := 0
  strapDie : Die := 0
  strapRole : BitVec 3 := 0
  strapPos : BitVec 6 := 0
  /-- DIE value and role in use, after any DIE_ALIAS adoption (R329). -/
  die : Die := 0
  role : BitVec 3 := 0
  held : ResetsHeld := {}
  core : CoreState := .starting
  coreAt : Nat := 0
  /-- cc of the last release from reset (R405, `pm_startup_ns`). -/
  resetAt : Nat := 0
  ifiReady : Bool := false
  ifiWake : Bool := false
  ingress : List (IngCh × Waiting) := []
  egress : List (EgCh × Waiting) := []
  /-- Credits the die holds per ingress channel, credits the adapter holds per egress channel (R34). -/
  icr : List Nat := List.replicate 6 0
  ecr : List Nat := List.replicate 6 0
  evtOut : List (BitVec 8 × Ten × BitVec 32) := []
  evtCr : Nat := 0
  evtIcr : Nat := 0
  irqs : IrqLog := {}
  /-- Round-robin pointer of R442, as a channel code. -/
  rr : Nat := 2
  cfg : CfgWindow := {}
  xfers : List (Path × Transfer) := []
  sup : Supervisor := {}
  ring : RingAgent := {}
  svc : List SvcRecord := List.replicate 32 {}
  therm : Thermal := {}
  sch : Sched := {}
  sems : NMap Sem := []
  ownQ : List Waiting := []
  localTags : NMap TagInfo := []
  ord : List OrdRec := []
  /-- Requests presented on IFI-INB whose answer on IFI-INR has not come (R218, R254). -/
  inbOut : List Txn := []
  seqNo : Nat := 1
  rlc : Rlc := {}
  home : Home := {}
  ifr : Ifr := {}
  ten : Tenancy := {}
  twins : List Pair := List.replicate 4 {}
  fw : Firewall := {}
  repair : Repair := {}
  tap : Tap := {}
  trace : Trace := {}
  /-- The ports, by CPORT code. SVC_REQ_N and IRQ_N are no fields: they follow from `svc` and `irq_status` (R54). -/
  ports : List Port := List.replicate 10 {}
  out : List Output := []
  /-- Commands that wait, first in, first out. -/
  pending : List Instr := []
deriving DecidableEq, Repr

/-- The bundles or lanes of a port as built, at their defaults. -/
def freshPort (e : Config.Elab) (q : Nat) : Port :=
  if e.portBuilt q then
    if Config.isReach q then { lanes := List.replicate (e.units q) {} }
    else { bundles := List.replicate (e.units q) {} }
  else {}

/-- The machine at the end of step S2 of COLD (R405), for an elaboration, fuses and straps. -/
def State.cold (e : Config.Elab) (f : Fuses) (dieId : Die) (role : BitVec 3) (pos : BitVec 6) : State :=
  { elab_ := e, fuses := f, strapDie := dieId, strapRole := role, strapPos := pos,
    die := dieId, role := role,
    ports := (List.range 10).map (freshPort e) }

/-- The machine right after reset: the end of step S2 of COLD (R405) for the full Ihleo-X build with every
fuse and strap at 0 (log entries 3 and 4). -/
def State.reset : State := State.cold Config.fullX {} 0 0 0

end Sys2Proof.Machine
end

