-- ==== Sys2Proof/Machine/Codec.lean ====
section
/-!
DEFINITION. The bit layouts of transactions: head cells (R208–R212, R250, R276–R278, R383), data cells
(R212), framing bytes (R129) and the cell counts of the opcodes (R213, R251, R383).
-/

namespace Sys2Proof.Machine
open Sys2Proof

/-- Bits [127:60] of a head cell (R209–R212, R250, R276, R278, R383); reserved bits are written 0. -/
def Head.encode : Head → BitVec 68
  | .mem fen ca len gpa => gpa ++ len ++ BitVec.ofBool ca ++ BitVec.ofBool fen
  | .msg fen ord mlen dpkg qid =>
    0#16 ++ qid ++ 0#8 ++ dpkg ++ mlen ++ 0#2 ++ BitVec.ofBool ord ++ BitVec.ofBool fen
  | .sync fen dpkg sid arg => arg ++ 0#4 ++ sid ++ dpkg ++ 0#3 ++ BitVec.ofBool fen
  | .cpl status len ropc rval => rval ++ 0#12 ++ ropc ++ len ++ status
  | .coh cst data dty stale vb ackcnt la =>
    la ++ 0#5 ++ ackcnt ++ BitVec.ofBool vb ++ BitVec.ofBool stale ++ BitVec.ofBool dty
      ++ BitVec.ofBool data ++ cst
  | .blk rid bk nb fmt resc satf nanf dpkg ddie =>
    ddie ++ dpkg ++ 0#1 ++ BitVec.ofBool nanf ++ BitVec.ofBool satf ++ BitVec.ofBool resc ++ fmt ++ nb
      ++ bk ++ rid
  | .rabort rid => 0#56 ++ rid
  | .rstat status rkind rid rblkx sresc ssat snan reng =>
    0#13 ++ reng ++ BitVec.ofBool snan ++ BitVec.ofBool ssat ++ BitVec.ofBool sresc ++ rblkx ++ rid
      ++ rkind ++ status
  | .mgmt fen dpkg ddie index sub alen mseg =>
    mseg ++ alen ++ sub ++ index ++ ddie ++ dpkg ++ 0#3 ++ BitVec.ofBool fen
  | .other bits => bits

/-- The kinds of head (the tables of R209–R212, R250, R276–R278 and R383). -/
inductive HeadKind where
  | mem | msg | sync | cpl | coh | blk | rabort | rstat | mgmt | other
deriving DecidableEq, Repr

/-- The kind of a head. -/
def Head.kind : Head → HeadKind
  | .mem .. => .mem
  | .msg .. => .msg
  | .sync .. => .sync
  | .cpl .. => .cpl
  | .coh .. => .coh
  | .blk .. => .blk
  | .rabort .. => .rabort
  | .rstat .. => .rstat
  | .mgmt .. => .mgmt
  | .other .. => .other

/-- Bit `i` of a head's bits, as a truth value. -/
def hbit (b : BitVec 68) (i : Nat) : Bool := b.getLsbD i

/-- Bits [127:60] read under the layout of a kind. Bit `i` of the argument is bit 60 + i of the cell. -/
def Head.decode : HeadKind → BitVec 68 → Head
  | .mem, b => .mem (hbit b 0) (hbit b 1) (b.extractLsb' 2 8) (b.extractLsb' 10 58)
  | .msg, b => .msg (hbit b 0) (hbit b 1) (b.extractLsb' 4 8) (b.extractLsb' 12 12) (b.extractLsb' 32 20)
  | .sync, b => .sync (hbit b 0) (b.extractLsb' 4 12) (b.extractLsb' 16 16) (b.extractLsb' 36 32)
  | .cpl, b => .cpl (b.extractLsb' 0 8) (b.extractLsb' 8 8) (b.extractLsb' 16 8) (b.extractLsb' 36 32)
  | .coh, b => .coh (b.extractLsb' 0 4) (hbit b 4) (hbit b 5) (hbit b 6) (hbit b 7) (b.extractLsb' 8 4)
      (b.extractLsb' 17 51)
  | .blk, b => .blk (b.extractLsb' 0 12) (b.extractLsb' 12 24) (b.extractLsb' 36 4) (b.extractLsb' 40 4)
      (hbit b 44) (hbit b 45) (hbit b 46) (b.extractLsb' 48 12) (b.extractLsb' 60 8)
  | .rabort, b => .rabort (b.extractLsb' 0 12)
  | .rstat, b => .rstat (b.extractLsb' 0 8) (b.extractLsb' 8 4) (b.extractLsb' 12 12)
      (b.extractLsb' 24 24) (hbit b 48) (hbit b 49) (hbit b 50) (b.extractLsb' 51 4)
  | .mgmt, b => .mgmt (hbit b 0) (b.extractLsb' 4 12) (b.extractLsb' 16 8) (b.extractLsb' 24 16)
      (b.extractLsb' 40 8) (b.extractLsb' 48 6) (b.extractLsb' 54 14)
  | .other, b => .other b

/-- Atomics, 0x10–0x19 (R217). -/
def isAtomic (opc : BitVec 8) : Bool := decide (0x10 ≤ opc.toNat) && decide (opc.toNat ≤ 0x19)
/-- RD, WR, WRP and the atomics (R209). -/
def isMem (opc : BitVec 8) : Bool := opc == 0x01 || opc == 0x02 || opc == 0x03 || isAtomic opc
/-- Synchronisation, 0x30–0x37 (R233). -/
def isSync (opc : BitVec 8) : Bool := decide (0x30 ≤ opc.toNat) && decide (opc.toNat ≤ 0x37)
/-- Coherence requests of a requester or an evicting die, 0x40–0x45 (R251). -/
def isCohReq (opc : BitVec 8) : Bool := decide (0x40 ≤ opc.toNat) && decide (opc.toNat ≤ 0x45)
/-- Snoops, 0x50–0x54 (R251). -/
def isSnoop (opc : BitVec 8) : Bool := decide (0x50 ≤ opc.toNat) && decide (opc.toNat ≤ 0x54)
/-- The coherence opcodes of R251. -/
def isCoh (opc : BitVec 8) : Bool :=
  isCohReq opc || isSnoop opc || opc == 0x46 || opc == 0x47 || opc == 0x48 || opc == 0x49
    || opc == 0x58 || opc == 0x59 || opc == 0x5C || opc == 0x5D
/-- The reduction opcodes of R275. -/
def isRed (opc : BitVec 8) : Bool := decide (0x60 ≤ opc.toNat) && decide (opc.toNat ≤ 0x65)
/-- The management opcodes of R383. -/
def isMgmt (opc : BitVec 8) : Bool := decide (0x70 ≤ opc.toNat) && decide (opc.toNat ≤ 0x74)

/-- The head layout an opcode selects (R213). -/
def kindOf (opc : BitVec 8) : HeadKind :=
  if isMem opc then .mem
  else if opc == 0x20 then .msg
  else if isSync opc then .sync
  else if opc == 0x80 || opc == 0x21 then .cpl
  else if isCoh opc then .coh
  else if opc == 0x60 || opc == 0x61 || opc == 0x65 then .blk
  else if opc == 0x63 then .rabort
  else if opc == 0x64 then .rstat
  else if isMgmt opc then .mgmt
  else .other

/-- The head cell of a transaction with a framing byte (R208). -/
def Txn.headCell (t : Txn) (frm : BitVec 8) : Cell :=
  t.head.encode ++ t.sdie ++ t.spkg ++ t.sport ++ t.tag ++ t.ten ++ t.opc ++ frm

/-- The transaction that a head cell and its data cells spell (R208). -/
def Txn.ofCells (h : Cell) (data : List Cell) : Txn :=
  let opc := h.extractLsb' 8 8
  { opc := opc, ten := h.extractLsb' 16 8, tag := h.extractLsb' 24 12, sport := h.extractLsb' 36 4,
    spkg := h.extractLsb' 40 12, sdie := h.extractLsb' 52 8,
    head := Head.decode (kindOf opc) (h.extractLsb' 60 68), data := data }

/-- RQID of a source-form head: SPORT above TAG (R208). -/
def Txn.rqid (t : Txn) : BitVec 16 := t.sport ++ t.tag

/-- The framing byte: LVC in [3:0], LCNT in [7:4] (R129). -/
def framing (vc cells : Nat) : BitVec 8 := BitVec.ofNat 4 (cells - 1) ++ BitVec.ofNat 4 vc

/-- All cells of a transaction on a link, framed (R129). -/
def Txn.linkCells (t : Txn) (vc : Nat) : List Cell :=
  t.headCell (framing vc (t.data.length + 1)) :: t.data

/-- All cells of a transaction on the IFI, framing byte 0 (R208). -/
def Txn.ifiCells (t : Txn) : List Cell := t.headCell 0 :: t.data

/-- Number of cells of a transaction. -/
def Txn.size (t : Txn) : Nat := t.data.length + 1

/-- FEN of a head that has one (R209–R211, R383). -/
def Txn.fen (t : Txn) : Bool :=
  match t.head with
  | .mem fen _ _ _ => fen
  | .msg fen _ _ _ _ => fen
  | .sync fen _ _ _ => fen
  | .mgmt fen _ _ _ _ _ _ => fen
  | _ => false

/-- CA of a memory request, false elsewhere. -/
def Txn.ca (t : Txn) : Bool := match t.head with | .mem _ ca _ _ => ca | _ => false

/-- LEN of a memory request or a completion. -/
def Txn.len (t : Txn) : Nat :=
  match t.head with | .mem _ _ len _ => len.toNat | .cpl _ len _ _ => len.toNat | _ => 0

/-- GPA of a memory request. -/
def Txn.gpa (t : Txn) : Gpa := match t.head with | .mem _ _ _ g => g | _ => 0

/-- LA of a coherence transaction. -/
def Txn.la (t : Txn) : LineAddr := match t.head with | .coh _ _ _ _ _ _ la => la | _ => 0

/-- DATA of a coherence transaction. -/
def Txn.cdata (t : Txn) : Bool := match t.head with | .coh _ d _ _ _ _ _ => d | _ => false

/-- DTY of a coherence transaction. -/
def Txn.dty (t : Txn) : Bool := match t.head with | .coh _ _ d _ _ _ _ => d | _ => false

/-- STALE of a coherence transaction. -/
def Txn.stale (t : Txn) : Bool := match t.head with | .coh _ _ _ st _ _ _ => st | _ => false

/-- VB of a coherence transaction. -/
def Txn.vb (t : Txn) : Bool := match t.head with | .coh _ _ _ _ v _ _ => v | _ => false

/-- CST of a coherence transaction. -/
def Txn.cst (t : Txn) : BitVec 4 := match t.head with | .coh c _ _ _ _ _ _ => c | _ => 0

/-- ACKCNT of a coherence transaction. -/
def Txn.ackcnt (t : Txn) : Nat := match t.head with | .coh _ _ _ _ _ a _ => a.toNat | _ => 0

/-- STATUS of a completion. -/
def Txn.status (t : Txn) : BitVec 8 := match t.head with | .cpl s _ _ _ => s | _ => 0

/-- ROPC of a completion. -/
def Txn.ropc (t : Txn) : BitVec 8 := match t.head with | .cpl _ _ r _ => r | _ => 0

/-- PKG of a global physical address (R209). -/
def gpaPkg (g : Gpa) : Pkg := g.extractLsb' 46 12
/-- DIE of a global physical address. -/
def gpaDie (g : Gpa) : Die := g.extractLsb' 38 8
/-- OFFSET of a global physical address. -/
def gpaOff (g : Gpa) : Nat := (g.extractLsb' 0 38).toNat
/-- A global physical address from its fields. -/
def mkGpa (pkg : Pkg) (die : Die) (off : Nat) : Gpa := pkg ++ die ++ BitVec.ofNat 38 off
/-- LA = GPA[57:7] (R250). -/
def lineOf (g : Gpa) : LineAddr := g.extractLsb' 7 51
/-- The address of the first byte of a line. -/
def lineGpa (la : LineAddr) : Gpa := la ++ 0#7
/-- PKG of a line address. -/
def laPkg (la : LineAddr) : Pkg := gpaPkg (lineGpa la)
/-- DIE of a line address. -/
def laDie (la : LineAddr) : Die := gpaDie (lineGpa la)

/-- Bytes of one block in a format code: element formats 0x0–0x8 (R272) and carry formats 0xA–0xC (R274). -/
def blockBytes (fmt : Nat) : Nat :=
  match fmt with
  | 0x0 => 17 | 0x1 => 25 | 0x2 => 25 | 0x3 => 33 | 0x4 => 33 | 0x5 => 33 | 0x6 => 64 | 0x7 => 64
  | 0x8 => 128 | 0xA => 33 | 0xB => 65 | 0xC => 128 | _ => 0

/-- The number of cells that the opcode and its length field require, none for an opcode of no exact count
(R213, R251, R275, R383). -/
def Txn.exactCells (t : Txn) : Option Nat :=
  let withData := 1 + (if t.cdata then 8 else 0)
  match t.opc.toNat with
  | 0x01 => some 1
  | 0x02 => some (1 + ceilDiv t.len 16)
  | 0x03 => some 10
  | 0x0F => some 1
  | 0x20 => match t.head with | .msg _ _ mlen _ _ => some (1 + ceilDiv mlen.toNat 16) | _ => none
  | 0x21 => some 1
  | 0x80 => some (1 + ceilDiv t.len 16)
  | 0x44 => some 9
  | 0x46 | 0x48 => some withData
  | 0x40 | 0x41 | 0x42 | 0x43 | 0x45 | 0x47 | 0x49 | 0x5D => some 1
  | 0x50 | 0x51 | 0x52 | 0x53 | 0x54 | 0x59 => some 2
  | 0x58 => some (1 + withData)
  | 0x5C => some 9
  | 0x60 | 0x61 | 0x65 =>
    match t.head with
    | .blk _ _ nb fmt _ _ _ _ _ => some (1 + ceilDiv (nb.toNat * blockBytes fmt.toNat) 16)
    | _ => none
  | 0x62 => some 4
  | 0x63 | 0x64 => some 1
  | 0x70 | 0x72 | 0x74 => some 1
  | 0x71 | 0x73 =>
    match t.head with | .mgmt _ _ _ _ _ alen _ => some (1 + ceilDiv alen.toNat 16) | _ => none
  | n => if 0x10 ≤ n ∧ n ≤ 0x19 then some 2 else if 0x30 ≤ n ∧ n ≤ 0x37 then some 1 else none

/-- The default VC of an opcode on a link (R213, R251). -/
def vcOf (opc : BitVec 8) : Nat :=
  let n := opc.toNat
  if n = 0x01 then 6 else if n = 0x02 ∨ n = 0x03 ∨ isAtomic opc then 7
  else if n = 0x20 then 5 else if isSync opc then 4
  else if isCohReq opc then 1 else if isSnoop opc then 3
  else if isCoh opc ∨ n = 0x80 ∨ n = 0x21 then 2
  else if isRed opc then 8 else 9

/-- A completion (R212): every status but OK carries no data, and RVAL only with WOULD_BLOCK and OVERFLOW. -/
def mkCpl (t : Txn) (status : BitVec 8) (rval : BitVec 32) (bytes : List Byte) : Txn :=
  let ok := status == 0
  { t with opc := 0x80,
           head := .cpl status (if ok then BitVec.ofNat 8 bytes.length else 0) t.opc
             (if ok || status == 0x02 || status == 0x07 then rval else 0),
           data := if ok then bytesToCells bytes else [] }

end Sys2Proof.Machine
end

