-- ==== Sys2Proof/Machine/Catalog.lean ====
section
/-!
DEFINITION. The catalogue of Almanac entries: one row per entry of the entry tables of the chapters, with
its unit, type, access right, persistence class, constant default and legal range (R362–R365).
-/

namespace Sys2Proof.Machine
open Sys2Proof

/-- The unit an entry belongs to, by the digits of its index (R389). -/
inductive UnitKind where
  | inst | wire | reach | port | portOrPool | bundle | lane | engine | pair
deriving DecidableEq, Repr

/-- Types of entries (R363). A BLOB has a fixed size in bytes. -/
inductive EntryType where
  | u8 | u16 | u32 | u64 | bool | enum | str | blob (size : Nat) | table
deriving DecidableEq, Repr

/-- Access rights (R364). -/
inductive Access where
  | ro | rw | wo | rwl | co
deriving DecidableEq, Repr

/-- Persistence classes (R365). -/
inductive Class where
  | v | d | w | c | f
deriving DecidableEq, Repr

/-- One entry, or a run of entries that differ in their subindex only. -/
structure Entry where
  base : Nat
  sub : Nat
  subEnd : Nat
  unit_ : UnitKind
  ty : EntryType
  acc : Access
  cls : Class
  dflt : Nat
  /-- Legal values as closed intervals; empty when every value of the type is legal. -/
  legal : List (Nat × Nat)
deriving DecidableEq, Repr

/-- Entries of spec/02_block_ports.md. -/
def entriesPorts : List Entry := [
  ⟨0x2100, 0x01, 0x01, .inst, .u8, .ro, .f, 0, []⟩,  -- ifi_beats
  ⟨0x2100, 0x02, 0x07, .inst, .u16, .ro, .f, 0, []⟩,  -- ifi_depth_req
  ⟨0x2101, 0x01, 0x01, .inst, .u8, .ro, .c, 0, []⟩,  -- strap_die_id
  ⟨0x2101, 0x02, 0x02, .inst, .enum, .ro, .c, 0, []⟩,  -- strap_die_role
  ⟨0x2101, 0x03, 0x03, .inst, .u8, .ro, .c, 0, []⟩,  -- strap_panel_pos
  ⟨0x2101, 0x04, 0x04, .inst, .bool, .ro, .c, 0, [(0, 1)]⟩,  -- strap_mismatch
  ⟨0x2102, 0x01, 0x01, .inst, .u8, .ro, .d, 0, []⟩,  -- temp_local
  ⟨0x2102, 0x02, 0x02, .inst, .u8, .ro, .d, 0, []⟩,  -- temp_below
  ⟨0x2103, 0x01, 0x01, .inst, .enum, .ro, .c, 0, []⟩,  -- last_reset
  ⟨0x2103, 0x02, 0x02, .inst, .u32, .ro, .c, 0, []⟩,  -- refclk_loss_count
  ⟨0x2105, 0x01, 0x01, .inst, .u32, .ro, .d, 0, []⟩   -- ifi_protocol_errors
  ]

/-- Entries of spec/03_wire_phy.md. -/
def entriesWirePhy : List Entry := [
  ⟨0x3000, 0x01, 0x01, .wire, .enum, .rwl, .w, 0, [(0, 1)]⟩,  -- wphy_repair_mode
  ⟨0x3000, 0x02, 0x02, .wire, .u16, .ro, .f, 0, []⟩,  -- wphy_bundles_built
  ⟨0x3000, 0x03, 0x03, .wire, .u16, .ro, .v, 0, []⟩,  -- wphy_trained_mask
  ⟨0x3000, 0x04, 0x04, .wire, .u32, .ro, .d, 0, []⟩,  -- wphy_train_attempts
  ⟨0x3000, 0x05, 0x05, .wire, .u32, .ro, .d, 0, []⟩,  -- wphy_train_fail_parity
  ⟨0x3000, 0x06, 0x06, .wire, .u32, .ro, .v, 0, []⟩,  -- wphy_last_train_ns
  ⟨0x3000, 0x07, 0x07, .wire, .u8, .rw, .w, 28, [(20, 40)]⟩,  -- wphy_marginal_threshold
  ⟨0x3000, 0x08, 0x08, .wire, .u8, .rwl, .w, 20, [(12, 32)]⟩,  -- wphy_pass_threshold
  ⟨0x3000, 0x09, 0x09, .wire, .u16, .rw, .w, 16, []⟩,  -- wphy_swap_threshold
  ⟨0x3000, 0x0B, 0x0B, .wire, .u32, .ro, .d, 0, []⟩,  -- wphy_live_swaps
  ⟨0x3000, 0x0C, 0x0C, .wire, .u32, .ro, .d, 0, []⟩,  -- wphy_loss_events
  ⟨0x3000, 0x0D, 0x0D, .wire, .u32, .ro, .d, 0, []⟩,  -- wphy_vld_ambiguous
  ⟨0x3000, 0x0E, 0x0E, .wire, .u32, .ro, .d, 0, []⟩,  -- wphy_drift_events
  ⟨0x3000, 0x0F, 0x0F, .wire, .u32, .ro, .d, 0, []⟩,  -- wphy_trk_invalid
  ⟨0x3000, 0x10, 0x10, .wire, .u32, .ro, .d, 0, []⟩,  -- wphy_swap_refused
  ⟨0x3010, 0x01, 0x01, .bundle, .u32, .ro, .f, 0, []⟩,  -- wphy_fused_map
  ⟨0x3010, 0x02, 0x02, .bundle, .u32, .ro, .d, 0, []⟩,  -- wphy_spare_map
  ⟨0x3010, 0x03, 0x03, .bundle, (.blob 140), .ro, .d, 0, []⟩,  -- wphy_eye_table
  ⟨0x3010, 0x04, 0x04, .bundle, .enum, .ro, .v, 0, []⟩   -- wphy_bundle_state
  ]

/-- Entries of spec/04_reach_phy.md. -/
def entriesReachPhy : List Entry := [
  ⟨0x4000, 0x01, 0x01, .reach, .u16, .ro, .f, 0, []⟩,  -- xphy_lanes_built
  ⟨0x4000, 0x02, 0x02, .reach, .u8, .ro, .v, 0, []⟩,  -- xphy_width
  ⟨0x4000, 0x03, 0x03, .reach, .u8, .rwl, .w, 0, [(1, 2), (4, 4), (8, 8), (16, 16)]⟩,  -- xphy_min_width
  ⟨0x4000, 0x04, 0x04, .reach, .u16, .ro, .v, 0, []⟩,  -- xphy_loop_cc
  ⟨0x4000, 0x05, 0x05, .reach, .u16, .ro, .d, 0, []⟩,  -- xphy_path_delay
  ⟨0x4000, 0x06, 0x06, .reach, .bool, .rwl, .v, 0, [(0, 1)]⟩,  -- xphy_path_delay_reset
  ⟨0x4000, 0x07, 0x07, .reach, .u32, .ro, .d, 0, []⟩,  -- xphy_uncorrectable
  ⟨0x4000, 0x08, 0x08, .reach, .u64, .ro, .d, 0, []⟩,  -- xphy_corrected_symbols
  ⟨0x4000, 0x09, 0x09, .reach, .u32, .rw, .w, 2240, []⟩,  -- xphy_degrade_threshold
  ⟨0x4000, 0x0A, 0x0A, .reach, .u32, .ro, .d, 0, []⟩,  -- xphy_train_attempts
  ⟨0x4000, 0x0B, 0x0B, .reach, .bool, .ro, .v, 0, [(0, 1)]⟩,  -- xphy_latency_exceeded
  ⟨0x4000, 0x0C, 0x0C, .reach, .enum, .rwl, .w, 0, [(0, 2)]⟩,  -- xphy_precoding
  ⟨0x4000, 0x0D, 0x0D, .reach, .u32, .ro, .d, 0, []⟩,  -- xphy_cctl_invalid
  ⟨0x4010, 0x01, 0x01, .lane, .enum, .ro, .v, 0, []⟩,  -- xphy_lane_state
  ⟨0x4010, 0x02, 0x02, .lane, .u64, .ro, .d, 0, []⟩,  -- xphy_lane_symbol_errors
  ⟨0x4010, 0x03, 0x03, .lane, (.blob 16), .ro, .d, 0, []⟩   -- xphy_lane_eq
  ]

/-- Entries of spec/05_link_layer.md. -/
def entriesLink : List Entry := [
  ⟨0x5000, 0x01, 0x01, .port, .enum, .ro, .v, 0, []⟩,  -- link_state
  ⟨0x5000, 0x02, 0x02, .port, .u8, .ro, .d, 0, []⟩,  -- link_gen
  ⟨0x5000, 0x03, 0x03, .port, .u16, .ro, .v, 0, []⟩,  -- link_mask
  ⟨0x5000, 0x04, 0x04, .port, .u16, .ro, .d, 0, []⟩,  -- link_tx_oldest
  ⟨0x5000, 0x05, 0x05, .port, .u16, .ro, .d, 0, []⟩,  -- link_tx_unacked
  ⟨0x5000, 0x06, 0x06, .port, .u16, .ro, .d, 0, []⟩,  -- link_rx_expected
  ⟨0x5000, 0x07, 0x07, .port, .u16, .ro, .w, 0, []⟩,  -- link_replay_depth
  ⟨0x5000, 0x08, 0x08, .port, .u16, .ro, .w, 0, []⟩,  -- link_rx_cells
  ⟨0x5000, 0x09, 0x09, .port, .bool, .rw, .w, 1, [(0, 1)]⟩,  -- link_port_enable
  ⟨0x5000, 0x0A, 0x0A, .port, .enum, .wo, .v, 0, [(1, 2)]⟩,  -- link_reset_req
  ⟨0x5000, 0x10, 0x10, .port, .u8, .rw, .w, 8, [(1, 64)]⟩,  -- link_ack_delay
  ⟨0x5000, 0x11, 0x11, .port, .u16, .rw, .w, 128, [(64, 16383)]⟩,  -- link_ack_timeout
  ⟨0x5000, 0x12, 0x12, .port, .u16, .rw, .w, 32, [(16, 16383)]⟩,  -- link_nak_guard
  ⟨0x5000, 0x13, 0x13, .port, .u8, .rw, .w, 4, [(1, 15)]⟩,  -- link_replay_limit
  ⟨0x5000, 0x14, 0x14, .port, .u32, .rw, .w, 1000000, [(0, 0), (10000, 1000000000)]⟩,  -- link_credit_timeout
  ⟨0x5000, 0x15, 0x15, .port, .u16, .rw, .w, 1500, [(500, 65535)]⟩,  -- link_param_timeout
  ⟨0x5000, 0x16, 0x16, .port, .u8, .rw, .w, 16, [(1, 255)]⟩,  -- link_credit_delay
  ⟨0x5000, 0x17, 0x17, .port, .u32, .rw, .w, 100000000, [(0, 0), (1000000, 4000000000)]⟩,  -- link_fault_retry
  ⟨0x5001, 0x01, 0x01, .port, .u64, .ro, .d, 0, []⟩,  -- link_flits_tx
  ⟨0x5001, 0x02, 0x02, .port, .u64, .ro, .d, 0, []⟩,  -- link_flits_accepted
  ⟨0x5001, 0x03, 0x03, .port, .u64, .ro, .d, 0, []⟩,  -- link_fec_corrected_bits
  ⟨0x5001, 0x04, 0x04, .port, .u64, .ro, .d, 0, []⟩,  -- link_crc_fail
  ⟨0x5001, 0x05, 0x05, .port, .u32, .ro, .d, 0, []⟩,  -- link_naks_sent
  ⟨0x5001, 0x06, 0x06, .port, .u32, .ro, .d, 0, []⟩,  -- link_naks_received
  ⟨0x5001, 0x07, 0x07, .port, .u32, .ro, .d, 0, []⟩,  -- link_replays_started
  ⟨0x5001, 0x08, 0x08, .port, .u64, .ro, .d, 0, []⟩,  -- link_replayed_flits
  ⟨0x5001, 0x09, 0x09, .port, .u32, .ro, .d, 0, []⟩,  -- link_ack_timeouts
  ⟨0x5001, 0x0A, 0x0A, .port, .u64, .ro, .d, 0, []⟩,  -- link_dup_dropped
  ⟨0x5001, 0x0B, 0x0B, .port, .u64, .ro, .d, 0, []⟩,  -- link_gap_dropped
  ⟨0x5001, 0x0C, 0x0C, .port, .u32, .ro, .d, 0, []⟩,  -- link_foreign_gen
  ⟨0x5001, 0x0D, 0x0D, .port, .u32, .ro, .d, 0, []⟩,  -- link_ack_invalid
  ⟨0x5001, 0x0E, 0x0E, .port, .u32, .ro, .d, 0, []⟩,  -- link_credit_ignored
  ⟨0x5001, 0x0F, 0x0F, .port, .u32, .ro, .d, 0, []⟩,  -- link_credit_overrun
  ⟨0x5001, 0x10, 0x10, .port, .u64, .ro, .d, 0, []⟩,  -- link_stall_cc
  ⟨0x5001, 0x11, 0x11, .port, .u32, .ro, .d, 0, []⟩,  -- link_unknown_ctrl
  ⟨0x5001, 0x12, 0x12, .port, .u32, .ro, .d, 0, []⟩,  -- link_retrain_requests
  ⟨0x5010, 0x01, 0x0F, .port, .u16, .rwl, .w, 32, []⟩,  -- link_vc_reserved
  ⟨0x5011, 0x01, 0x0F, .port, .u8, .rw, .w, 1, [(0, 15)]⟩,  -- link_vc_weight
  ⟨0x5012, 0x01, 0x0F, .port, .u16, .ro, .d, 0, []⟩   -- link_vc_used
  ]

/-- Entries of spec/06_link_recovery.md. -/
def entriesRecovery : List Entry := [
  ⟨0x5002, 0x01, 0x01, .port, .u8, .rw, .w, 3, [(1, 15)]⟩,  -- link_retrain_limit
  ⟨0x5002, 0x02, 0x02, .port, .u8, .rw, .w, 4, [(1, 15)]⟩,  -- link_train_limit
  ⟨0x5002, 0x03, 0x03, .port, .u8, .ro, .d, 0, []⟩,  -- link_retrain_attempts
  ⟨0x5002, 0x04, 0x04, .port, .u8, .ro, .d, 0, []⟩,  -- link_train_attempts
  ⟨0x5002, 0x05, 0x05, .port, .enum, .ro, .d, 0, []⟩,  -- link_last_full_cause
  ⟨0x5002, 0x06, 0x06, .port, .enum, .ro, .d, 0, []⟩,  -- link_last_abort
  ⟨0x5002, 0x07, 0x07, .port, .u32, .ro, .d, 0, []⟩,  -- link_full_count
  ⟨0x5002, 0x08, 0x08, .port, .u32, .ro, .d, 0, []⟩,  -- link_hold_count
  ⟨0x5002, 0x09, 0x09, .port, .u64, .ro, .d, 0, []⟩,  -- link_hold_cc
  ⟨0x5002, 0x0A, 0x0A, .port, .u32, .ro, .d, 0, []⟩,  -- link_fault_count
  ⟨0x5002, 0x0B, 0x0B, .port, .u32, .rw, .w, 10000000, []⟩,  -- link_hold_notice
  ⟨0x5002, 0x0C, 0x0C, .port, .u32, .ro, .d, 0, []⟩,  -- link_reset_hellos
  ⟨0x5002, 0x0D, 0x0D, .port, .u32, .ro, .v, 0, []⟩,  -- link_held_cells
  ⟨0x5002, 0x0E, 0x0E, .port, .u32, .ro, .d, 0, []⟩,  -- link_orphan_cells
  ⟨0x5002, 0x0F, 0x0F, .port, .u32, .ro, .d, 0, []⟩   -- link_seq_mismatch
  ]

/-- Entries of spec/07_scheduled_plane.md (part 1). -/
def entriesSchedA : List Entry := [
  ⟨0x6000, 0x01, 0x01, .port, .bool, .rw, .w, 0, [(0, 1)]⟩,  -- sch_domain_link
  ⟨0x6000, 0x02, 0x02, .port, .u8, .rw, .w, 0, []⟩,  -- sch_design_bundles
  ⟨0x6000, 0x03, 0x03, .port, .u16, .ro, .d, 0, []⟩,  -- sch_latency
  ⟨0x6000, 0x04, 0x04, .port, .enum, .ro, .v, 0, []⟩,  -- sch_port_state
  ⟨0x6000, 0x05, 0x05, .port, .u16, .ro, .d, 0, []⟩,  -- sch_calid
  ⟨0x6000, 0x06, 0x06, .port, .u32, .ro, .d, 0, []⟩,  -- sch_load_error
  ⟨0x6001, 0x01, 0x01, .port, .u64, .ro, .d, 0, []⟩,  -- sch_flits_tx
  ⟨0x6001, 0x02, 0x02, .port, .u64, .ro, .d, 0, []⟩,  -- sch_on_time
  ⟨0x6001, 0x03, 0x03, .port, .u64, .ro, .d, 0, []⟩,  -- sch_miss
  ⟨0x6001, 0x04, 0x04, .port, .u32, .ro, .d, 0, []⟩,  -- sch_max_late
  ⟨0x6001, 0x05, 0x05, .port, .u32, .ro, .d, 0, []⟩,  -- sch_src_late
  ⟨0x6001, 0x06, 0x06, .port, .u32, .ro, .d, 0, []⟩,  -- sch_src_refused
  ⟨0x6001, 0x07, 0x07, .port, .u32, .ro, .d, 0, []⟩,  -- sch_void_sent
  ⟨0x6001, 0x08, 0x08, .port, .u32, .ro, .d, 0, []⟩,  -- sch_void_rcvd
  ⟨0x6001, 0x09, 0x09, .port, .u32, .ro, .d, 0, []⟩,  -- sch_fwd_late
  ⟨0x6001, 0x0A, 0x0A, .port, .u32, .ro, .d, 0, []⟩,  -- sch_hold_overflow
  ⟨0x6001, 0x0B, 0x0B, .port, .u32, .ro, .d, 0, []⟩,  -- sch_unknown_slot
  ⟨0x6001, 0x0C, 0x0C, .port, .u32, .ro, .d, 0, []⟩,  -- sch_beacon_mismatch
  ⟨0x6002, 0x01, 0x01, .port, .table, .rw, .d, 0, []⟩,  -- sch_calendar_next
  ⟨0x6002, 0x02, 0x02, .port, .table, .ro, .d, 0, []⟩,  -- sch_calendar_active
  ⟨0x6F00, 0x01, 0x01, .inst, .bool, .rw, .w, 0, [(0, 1)]⟩,  -- sch_domain_enable
  ⟨0x6F00, 0x02, 0x02, .inst, .bool, .rw, .w, 0, [(0, 1)]⟩,  -- sch_domain_root
  ⟨0x6F00, 0x03, 0x03, .inst, .u16, .rw, .w, 1024, [(256, 4096)]⟩,  -- sch_epoch_len
  ⟨0x6F00, 0x04, 0x04, .inst, .u8, .rw, .w, 4, [(2, 15)]⟩,  -- sch_lead
  ⟨0x6F00, 0x05, 0x05, .inst, .u64, .ro, .d, 0, []⟩,  -- sch_epoch
  ⟨0x6F00, 0x06, 0x06, .inst, .bool, .ro, .d, 0, [(0, 1)]⟩,  -- sch_joined
  ⟨0x6F00, 0x07, 0x07, .inst, .bool, .wo, .v, 0, [(0, 1)]⟩,  -- sch_rejoin
  ⟨0x6F00, 0x08, 0x08, .inst, .u8, .wo, .v, 0, []⟩,  -- sch_leap_request
  ⟨0x6F00, 0x09, 0x09, .inst, (.blob 32), .ro, .v, 0, []⟩,  -- sch_leap_table
  ⟨0x6F00, 0x0A, 0x0A, .inst, (.blob 16), .ro, .d, 0, []⟩,  -- sch_leap_history
  ⟨0x6F00, 0x0B, 0x0B, .inst, .u64, .rw, .d, 0, []⟩,  -- sch_switch_epoch
  ⟨0x6F00, 0x0C, 0x0C, .inst, .enum, .ro, .d, 0, []⟩,  -- sch_switch_state
  ⟨0x6F00, 0x0D, 0x0D, .inst, .enum, .ro, .d, 0, []⟩,  -- sch_last_fault
  ⟨0x6F01, 0x01, 0x01, .inst, .u8, .rw, .w, 159, []⟩,  -- sch_therm_below_thr1–4
  ⟨0x6F01, 0x02, 0x02, .inst, .u8, .rw, .w, 164, []⟩,  -- sch_therm_below_thr1–4
  ⟨0x6F01, 0x03, 0x03, .inst, .u8, .rw, .w, 169, []⟩,  -- sch_therm_below_thr1–4
  ⟨0x6F01, 0x04, 0x04, .inst, .u8, .rw, .w, 174, []⟩,  -- sch_therm_below_thr1–4
  ⟨0x6F01, 0x05, 0x05, .inst, .u8, .rw, .w, 16, []⟩,  -- sch_therm_below_tempo1–4
  ⟨0x6F01, 0x06, 0x06, .inst, .u8, .rw, .w, 48, []⟩,  -- sch_therm_below_tempo1–4
  ⟨0x6F01, 0x07, 0x07, .inst, .u8, .rw, .w, 96, []⟩   -- sch_therm_below_tempo1–4
  ]

/-- Entries of spec/07_scheduled_plane.md (part 2). -/
def entriesSchedB : List Entry := [
  ⟨0x6F01, 0x08, 0x08, .inst, .u8, .rw, .w, 160, []⟩,  -- sch_therm_below_tempo1–4
  ⟨0x6F01, 0x09, 0x0C, .inst, .u8, .rw, .w, 0, []⟩,  -- sch_therm_local_thr1–4
  ⟨0x6F01, 0x0D, 0x10, .inst, .u8, .rw, .w, 0, []⟩,  -- sch_therm_local_tempo1–4
  ⟨0x6F01, 0x11, 0x11, .inst, .u8, .rw, .w, 3, [(0, 15)]⟩,  -- sch_therm_hyst
  ⟨0x6F01, 0x12, 0x12, .inst, .u8, .rw, .w, 128, []⟩,  -- sch_tempo_max
  ⟨0x6F01, 0x13, 0x13, .inst, .u8, .ro, .v, 0, []⟩,  -- sch_tempo_demand
  ⟨0x6F02, 0x01, 0x01, .inst, .u64, .ro, .d, 0, []⟩,  -- sch_leap_epochs
  ⟨0x6F02, 0x02, 0x02, .inst, .u64, .ro, .d, 0, []⟩,  -- sch_leap_slots
  ⟨0x6F02, 0x03, 0x03, .inst, .u32, .ro, .d, 0, []⟩,  -- sch_late_leaps
  ⟨0x6F02, 0x04, 0x04, .inst, .u32, .ro, .d, 0, []⟩,  -- sch_stale_leaps
  ⟨0x6F02, 0x05, 0x05, .inst, .u32, .ro, .d, 0, []⟩,  -- sch_domain_faults
  ⟨0x6F02, 0x06, 0x06, .inst, .u32, .ro, .d, 0, []⟩,  -- sch_therm_trips
  ⟨0x6F02, 0x07, 0x07, .inst, .u32, .ro, .d, 0, []⟩   -- sch_leap_far
  ]

/-- Entries of spec/08_transactions.md. -/
def entriesTxn : List Entry := [
  ⟨0x7000, 0x01, 0x01, .inst, .u16, .rw, .c, 0, [(0, 4095)]⟩,  -- txn_own_pkg
  ⟨0x7000, 0x02, 0x02, .inst, .table, .rw, .w, 0, []⟩,  -- txn_die_routes
  ⟨0x7000, 0x03, 0x03, .inst, .table, .rw, .w, 0, []⟩,  -- txn_pkg_routes
  ⟨0x7000, 0x04, 0x04, .inst, .table, .rw, .w, 0, []⟩,  -- txn_windows
  ⟨0x7000, 0x05, 0x05, .inst, .table, .rw, .w, 0, []⟩,  -- txn_absent_map
  ⟨0x7000, 0x06, 0x06, .inst, .table, .rw, .w, 0, []⟩,  -- txn_qrange
  ⟨0x7000, 0x07, 0x07, .inst, .table, .rw, .w, 0, []⟩,  -- txn_sid_ranges
  ⟨0x7000, 0x08, 0x08, .inst, .table, .ro, .d, 0, []⟩,  -- txn_sem_state
  ⟨0x7000, 0x09, 0x09, .inst, .u16, .ro, .d, 0, []⟩,  -- txn_waiters_free
  ⟨0x7001, 0x01, 0x01, .inst, .u32, .ro, .d, 0, []⟩,  -- txn_cpl_stale
  ⟨0x7001, 0x02, 0x02, .inst, (.blob 100), .ro, .d, 0, []⟩,  -- txn_status_count
  ⟨0x7001, 0x03, 0x03, .inst, .u64, .ro, .d, 0, []⟩,  -- txn_order_wait_cc
  ⟨0x7001, 0x04, 0x04, .inst, .u32, .ro, .d, 0, []⟩,  -- txn_unknown_opc
  ⟨0x7001, 0x05, 0x05, .inst, .u32, .ro, .d, 0, []⟩,  -- txn_inr_errors
  ⟨0x7100, 0x01, 0x01, .portOrPool, .u16, .ro, .c, 0xFFF, []⟩,  -- txn_tag_next
  ⟨0x7100, 0x02, 0x02, .portOrPool, .u16, .ro, .d, 0, []⟩,  -- txn_tags_used
  ⟨0x7100, 0x03, 0x03, .portOrPool, .u64, .ro, .d, 0, []⟩   -- txn_tag_wait_cc
  ]

/-- Entries of spec/09_remote_line_cache.md. -/
def entriesRlc : List Entry := [
  ⟨0x8000, 0x01, 0x01, .inst, .bool, .rw, .w, 1, [(0, 1)]⟩,  -- rlc_enable
  ⟨0x8000, 0x02, 0x02, .inst, .u16, .ro, .f, 0, []⟩,  -- rlc_size_kib
  ⟨0x8000, 0x03, 0x03, .inst, .u16, .rw, .w, 0xFFFF, []⟩,  -- rlc_ways_enabled
  ⟨0x8000, 0x04, 0x04, .inst, .bool, .wo, .v, 0, [(0, 1)]⟩,  -- rlc_flush
  ⟨0x8000, 0x05, 0x05, .inst, .table, .rw, .w, 0, []⟩,  -- rlc_hints
  ⟨0x8000, 0x06, 0x06, .inst, (.blob 1088), .ro, .d, 0, []⟩,  -- rlc_residency
  ⟨0x8000, 0x07, 0x07, .inst, .bool, .ro, .v, 0, [(0, 1)]⟩,  -- rlc_evict_busy
  ⟨0x8001, 0x01, 0x01, .inst, .u64, .ro, .d, 0, []⟩,  -- rlc_hits
  ⟨0x8001, 0x02, 0x02, .inst, .u64, .ro, .d, 0, []⟩,  -- rlc_misses
  ⟨0x8001, 0x03, 0x03, .inst, .u64, .ro, .d, 0, []⟩,  -- rlc_upgrades
  ⟨0x8001, 0x04, 0x04, .inst, .u64, .ro, .d, 0, []⟩,  -- rlc_evict_clean
  ⟨0x8001, 0x05, 0x05, .inst, .u64, .ro, .d, 0, []⟩,  -- rlc_evict_dirty
  ⟨0x8001, 0x06, 0x06, .inst, .u64, .ro, .d, 0, []⟩,  -- rlc_snoops
  ⟨0x8001, 0x07, 0x07, .inst, .u64, .ro, .d, 0, []⟩,  -- rlc_snoop_hits
  ⟨0x8001, 0x08, 0x08, .inst, .u64, .ro, .d, 0, []⟩,  -- rlc_forwards
  ⟨0x8001, 0x09, 0x09, .inst, .u32, .ro, .d, 0, []⟩,  -- rlc_wback_stale
  ⟨0x8001, 0x0A, 0x0A, .inst, .u64, .ro, .d, 0, []⟩,  -- rlc_vb_full_cc
  ⟨0x8001, 0x0B, 0x0B, .inst, .u32, .ro, .d, 0, []⟩,  -- rlc_stale_rsp
  ⟨0x8100, 0x01, 0x01, .inst, .u32, .ro, .f, 0, []⟩,  -- xf_entries
  ⟨0x8100, 0x02, 0x02, .inst, .u32, .ro, .d, 0, []⟩,  -- xf_line_entries
  ⟨0x8100, 0x03, 0x03, .inst, .u32, .ro, .d, 0, []⟩,  -- xf_region_entries
  ⟨0x8100, 0x04, 0x04, .inst, .u32, .ro, .d, 0, []⟩,  -- xf_folds
  ⟨0x8100, 0x05, 0x05, .inst, .u32, .ro, .d, 0, []⟩,  -- xf_recalls
  ⟨0x8100, 0x06, 0x06, .inst, .u32, .ro, .d, 0, []⟩,  -- xf_cfetch
  ⟨0x8100, 0x07, 0x07, .inst, .u32, .ro, .d, 0, []⟩,  -- xf_lines_lost
  ⟨0x8100, 0x08, 0x08, .inst, .u64, .ro, .d, 0, []⟩,  -- xf_tracker_full_cc
  ⟨0x8100, 0x09, 0x09, .inst, .bool, .ro, .v, 0, [(0, 1)]⟩   -- xf_recall_busy
  ]

/-- Entries of spec/10_inflight_reduction.md. -/
def entriesIfr : List Entry := [
  ⟨0x9000, 0x01, 0x01, .inst, .u8, .ro, .f, 0, []⟩,  -- ifr_engines_built
  ⟨0x9000, 0x02, 0x02, .inst, .u8, .rw, .w, 0, []⟩,  -- ifr_engines_enabled
  ⟨0x9000, 0x03, 0x03, .inst, .u8, .rw, .w, 16, [(1, 64)]⟩,  -- ifr_window
  ⟨0x9000, 0x04, 0x04, .inst, .u16, .ro, .d, 0, []⟩,  -- ifr_open_rids
  ⟨0x9000, 0x05, 0x05, .inst, (.blob 1024), .ro, .d, 0, []⟩,  -- ifr_rid_state
  ⟨0x9000, 0x06, 0x06, .inst, .u16, .ro, .d, 0, []⟩,  -- ifr_orphan_blocks
  ⟨0x9000, 0x07, 0x07, .inst, .u16, .wo, .v, 0, []⟩,  -- ifr_abort_rid
  ⟨0x9000, 0x08, 0x08, .inst, .u16, .ro, .d, 0, []⟩,  -- ifr_staging_free
  ⟨0x9001, 0x01, 0x01, .inst, .u64, .ro, .d, 0, []⟩,  -- ifr_blocks_done
  ⟨0x9001, 0x02, 0x02, .inst, .u64, .ro, .d, 0, []⟩,  -- ifr_rescues
  ⟨0x9001, 0x03, 0x03, .inst, .u64, .ro, .d, 0, []⟩,  -- ifr_saturations
  ⟨0x9001, 0x04, 0x04, .inst, .u64, .ro, .d, 0, []⟩,  -- ifr_nan_blocks
  ⟨0x9001, 0x05, 0x05, .inst, .u32, .ro, .d, 0, []⟩,  -- ifr_bad_blocks
  ⟨0x9001, 0x06, 0x06, .inst, .u32, .ro, .d, 0, []⟩,  -- ifr_refused
  ⟨0x9001, 0x07, 0x07, .inst, .u32, .ro, .d, 0, []⟩,  -- ifr_moves
  ⟨0x9001, 0x08, 0x08, .inst, .u32, .ro, .d, 0, []⟩,  -- ifr_residue_errors
  ⟨0x9001, 0x09, 0x09, .inst, .u32, .ro, .d, 0, []⟩,  -- ifr_aborted_discards
  ⟨0x9001, 0x0A, 0x0A, .inst, .u64, .ro, .d, 0, []⟩,  -- ifr_backpressure_cc
  ⟨0x9100, 0x01, 0x01, .engine, .enum, .ro, .d, 0, []⟩,  -- ifr_eng_state
  ⟨0x9100, 0x02, 0x02, .engine, .u16, .ro, .d, 0, []⟩   -- ifr_eng_open
  ]

/-- Entries of spec/11_tenancy_preemption.md. -/
def entriesTen : List Entry := [
  ⟨0xA000, 0x01, 0x01, .inst, .table, .rw, .w, 0, []⟩,  -- ten_vc_assign
  ⟨0xA000, 0x02, 0x02, .inst, .table, .rw, .w, 0, []⟩,  -- ten_partitions
  ⟨0xA000, 0x03, 0x03, .inst, (.blob 256), .ro, .d, 0, []⟩,  -- ten_state
  ⟨0xA000, 0x04, 0x04, .inst, .u16, .ro, .f, 0, []⟩,  -- ten_park_cells
  ⟨0xA000, 0x05, 0x05, .inst, .u16, .ro, .d, 0, []⟩,  -- ten_park_used
  ⟨0xA001, 0x01, 0x01, .inst, .u32, .ro, .d, 0, []⟩,  -- ten_quiesces
  ⟨0xA001, 0x02, 0x02, .inst, .u64, .ro, .d, 0, []⟩,  -- ten_overrun_cc
  ⟨0xA001, 0x03, 0x03, .inst, .u32, .ro, .d, 0, []⟩,  -- ten_overrun_max
  ⟨0xA001, 0x04, 0x04, .inst, .u32, .ro, .d, 0, []⟩,  -- ten_detached
  ⟨0xA001, 0x05, 0x05, .inst, .u32, .ro, .d, 0, []⟩,  -- ten_park_overflow
  ⟨0xA001, 0x06, 0x06, .inst, .u32, .ro, .d, 0, []⟩,  -- ten_bound_reached
  ⟨0xA001, 0x07, 0x07, .inst, .u32, .ro, .d, 0, []⟩,  -- ten_event_ignored
  ⟨0xA002, 0x01, 0x01, .inst, (.blob 1024), .ro, .d, 0, []⟩,  -- ten_overrun_last
  ⟨0xA100, 0x01, 0x01, .port, (.blob 512), .ro, .d, 0, []⟩   -- ten_shared_used
  ]

/-- Entries of spec/12_twins_and_repair.md. -/
def entriesTwin : List Entry := [
  ⟨0x0100, 0x01, 0x01, .inst, .table, .ro, .c, 0, []⟩,  -- svc_records
  ⟨0x0100, 0x02, 0x02, .inst, .u8, .ro, .c, 0, []⟩,  -- svc_open
  ⟨0x0100, 0x03, 0x03, .inst, .u8, .wo, .v, 0, []⟩,  -- svc_close
  ⟨0x0100, 0x04, 0x04, .inst, .u32, .ro, .c, 0, []⟩,  -- svc_overflow
  ⟨0xB000, 0x01, 0x01, .inst, .table, .rwl, .w, 0, []⟩,  -- twin_pairs
  ⟨0xB300, 0x01, 0x01, .pair, .enum, .ro, .v, 0, []⟩,  -- twin_role_a
  ⟨0xB300, 0x02, 0x02, .pair, .enum, .ro, .v, 0, []⟩,  -- twin_role_b
  ⟨0xB300, 0x03, 0x03, .pair, .u32, .ro, .d, 0, []⟩,  -- twin_switchovers
  ⟨0xB300, 0x04, 0x04, .pair, .u64, .ro, .d, 0, []⟩,  -- twin_vigil_compares
  ⟨0xB300, 0x05, 0x05, .pair, .u32, .ro, .d, 0, []⟩,  -- twin_vigil_mismatch
  ⟨0xB300, 0x06, 0x06, .pair, .u64, .ro, .d, 0, []⟩,  -- twin_single_good
  ⟨0xB300, 0x07, 0x07, .pair, .u16, .rw, .w, 4, []⟩,  -- twin_vigil_threshold
  ⟨0xB300, 0x08, 0x08, .pair, .u32, .ro, .d, 0, []⟩,  -- twin_rejoins
  ⟨0xB300, 0x09, 0x09, .pair, .u32, .rw, .w, 10000000, []⟩,  -- twin_out_notice
  ⟨0xB300, 0x0A, 0x0A, .pair, .u32, .ro, .d, 0, []⟩,  -- twin_credit_dups
  ⟨0xB300, 0x0B, 0x0B, .pair, (.blob 8), .ro, .d, 0, []⟩,  -- twin_health
  ⟨0xB100, 0x01, 0x10, .inst, .u64, .co, .f, 0, []⟩,  -- alias_row_0–15
  ⟨0xB100, 0x11, 0x11, .inst, .enum, .ro, .c, 0, []⟩,  -- alias_state
  ⟨0xB200, 0x01, 0x01, .inst, (.blob 56), .ro, .w, 0, []⟩,  -- repair_rows
  ⟨0xB200, 0x02, 0x02, .inst, .u64, .ro, .d, 0, []⟩,  -- repair_corrected
  ⟨0xB200, 0x03, 0x03, .inst, .u32, .ro, .w, 0, []⟩,  -- repair_remaps
  ⟨0xB200, 0x05, 0x05, .inst, .u16, .ro, .w, 0, []⟩,  -- repair_rlc_ways_removed
  ⟨0xB200, 0x06, 0x06, .inst, .u8, .ro, .w, 0, []⟩   -- repair_engines_removed
  ]

/-- Entries of spec/13_mixed_dies.md. -/
def entriesCap : List Entry := [
  ⟨0xC000, 0x01, 0x01, .inst, .u64, .ro, .f, 0, []⟩,  -- cap_features
  ⟨0xC000, 0x02, 0x02, .inst, .u8, .rw, .w, 66, [(0x40, 0x42)]⟩,  -- cap_compat_level
  ⟨0xC000, 0x03, 0x03, .inst, .u32, .ro, .d, 0, []⟩,  -- cap_compat_mismatch
  ⟨0xC001, 0x01, 0x01, .inst, .table, .rw, .w, 0, []⟩,  -- fw_rules
  ⟨0xC001, 0x02, 0x02, .inst, .table, .rw, .w, 0, []⟩,  -- fw_proxy_slots
  ⟨0xC001, 0x03, 0x03, .inst, (.blob 2048), .ro, .d, 0, []⟩,  -- fw_rule_hits
  ⟨0xC002, 0x01, 0x01, .inst, .u64, .ro, .d, 0, []⟩,  -- fw_denied
  ⟨0xC002, 0x02, 0x02, .inst, .u64, .ro, .d, 0, []⟩,  -- fw_rate_wait_cc
  ⟨0xC002, 0x03, 0x03, .inst, .u32, .ro, .d, 0, []⟩,  -- fw_proxy_drops
  ⟨0xC002, 0x04, 0x04, .inst, .u32, .ro, .d, 0, []⟩,  -- fw_discarded_posted
  ⟨0xC100, 0x01, 0x01, .port, .u16, .ro, .v, 0, []⟩,  -- cap_partner_ipv
  ⟨0xC100, 0x02, 0x02, .port, .u16, .ro, .v, 0, []⟩,  -- cap_partner_build
  ⟨0xC100, 0x03, 0x03, .port, .u64, .ro, .v, 0, []⟩,  -- cap_partner_feat
  ⟨0xC100, 0x04, 0x04, .port, .u64, .ro, .v, 0, []⟩,  -- cap_agreed_feat
  ⟨0xC100, 0x05, 0x05, .port, .u8, .ro, .v, 0, []⟩,  -- cap_partner_cfv
  ⟨0xC100, 0x06, 0x06, .port, .u8, .ro, .v, 0, []⟩,  -- cap_partner_compat
  ⟨0xC100, 0x07, 0x07, .port, .u32, .ro, .d, 0, []⟩,  -- cap_unsupported
  ⟨0xC200, 0x01, 0x01, .wire, .enum, .rwl, .w, 0, [(0, 2)]⟩,  -- fw_port_mode
  ⟨0xC200, 0x02, 0x02, .wire, .enum, .rwl, .w, 3, [(0, 3)]⟩,  -- ucie_rate
  ⟨0xC200, 0x03, 0x03, .wire, .u8, .ro, .v, 0, []⟩,  -- ucie_width
  ⟨0xC200, 0x04, 0x04, .wire, .u16, .rw, .w, 256, [(64, 4095)]⟩   -- ucie_loop_base
  ]

/-- Entries of spec/14_almanac.md. -/
def entriesAlm : List Entry := [
  ⟨0x0000, 0x01, 0x01, .inst, .u32, .ro, .f, 0, []⟩,  -- ident_release
  ⟨0x0000, 0x02, 0x02, .inst, .enum, .ro, .f, 0, []⟩,  -- ident_member
  ⟨0x0000, 0x03, 0x03, .inst, .str, .ro, .f, 0, []⟩,  -- ident_vendor
  ⟨0x0000, 0x04, 0x04, .inst, .str, .ro, .f, 0, []⟩,  -- ident_product
  ⟨0x0000, 0x05, 0x05, .inst, (.blob 32), .ro, .f, 0, []⟩,  -- ident_params
  ⟨0x0000, 0x06, 0x06, .inst, .u64, .ro, .f, 0, []⟩,  -- ident_unique
  ⟨0x0000, 0x07, 0x07, .inst, .u8, .ro, .f, 1, []⟩,  -- ident_almanac_ver
  ⟨0x0000, 0x08, 0x08, .inst, .u8, .ro, .c, 0, []⟩,  -- ident_die
  ⟨0x1000, 0x01, 0x01, .inst, .u16, .ro, .c, 0, []⟩,  -- alm_site
  ⟨0x1000, 0x02, 0x02, .inst, .u64, .ro, .c, 0, []⟩,  -- alm_timestamp
  ⟨0x1000, 0x03, 0x03, .inst, .bool, .rw, .w, 1, [(0, 1)]⟩,  -- alm_remote_read
  ⟨0x1000, 0x04, 0x04, .inst, .bool, .rw, .w, 0, [(0, 1)]⟩,  -- alm_remote_write
  ⟨0x1000, 0x05, 0x05, .inst, .u32, .ro, .d, 0, []⟩,  -- alm_refusals
  ⟨0x1001, 0x01, 0x01, .inst, .u32, .ro, .d, 0, []⟩,  -- irq_status
  ⟨0x1001, 0x02, 0x02, .inst, .u32, .wo, .v, 0, []⟩,  -- irq_clear
  ⟨0x1001, 0x03, 0x03, .inst, .u32, .rw, .w, 0x1FF, []⟩,  -- irq_enable
  ⟨0x1002, 0x01, 0x01, .inst, .enum, .ro, .v, 1, []⟩,  -- sup_state
  ⟨0x1002, 0x02, 0x02, .inst, .u32, .ro, .w, 0, []⟩,  -- sup_patch_rev
  ⟨0x1002, 0x03, 0x03, .inst, (.blob 262144), .wo, .w, 0, []⟩,  -- sup_patch_image
  ⟨0x1002, 0x04, 0x04, .inst, .enum, .ro, .w, 0, []⟩,  -- sup_patch_status
  ⟨0x1002, 0x05, 0x05, .inst, .bool, .wo, .v, 0, [(0, 1)]⟩,  -- sup_restart
  ⟨0x1002, 0x06, 0x06, .inst, .u32, .ro, .c, 0, []⟩,  -- sup_restarts
  ⟨0x1002, 0x07, 0x07, .inst, .u32, .ro, .c, 0, []⟩,  -- sup_watchdog
  ⟨0x1003, 0x01, 0x01, .inst, .u8, .rw, .w, 128, [(1, 255)]⟩,  -- ring_ttl
  ⟨0x1003, 0x02, 0x02, .inst, .u32, .ro, .c, 0, []⟩,  -- ring_crc_errors
  ⟨0x1003, 0x03, 0x03, .inst, .u32, .ro, .c, 0, []⟩,  -- ring_ttl_expired
  ⟨0x1003, 0x04, 0x04, .inst, .u32, .ro, .c, 0, []⟩,  -- ring_resp_dropped
  ⟨0x1003, 0x05, 0x05, .inst, .u32, .ro, .c, 0, []⟩,  -- ring_bad_frames
  ⟨0x1003, 0x06, 0x06, .inst, .u64, .ro, .c, 0, []⟩,  -- ring_served
  ⟨0x1004, 0x01, 0x01, .inst, .u64, .ro, .d, 0, []⟩   -- mgmt_served
  ]

/-- Entries of spec/15_power_reset.md. -/
def entriesPower : List Entry := [
  ⟨0xD000, 0x01, 0x01, .inst, .enum, .ro, .v, 1, []⟩,  -- pm_core_state
  ⟨0xD000, 0x02, 0x02, .inst, .bool, .rw, .w, 1, [(0, 1)]⟩,  -- pm_core_stop_enable
  ⟨0xD000, 0x03, 0x03, .inst, .u32, .ro, .d, 0, []⟩,  -- pm_core_stops
  ⟨0xD000, 0x04, 0x04, .inst, .u32, .ro, .d, 0, []⟩,  -- pm_core_lock_ns
  ⟨0xD000, 0x05, 0x05, .inst, .u32, .ro, .d, 0, []⟩,  -- pm_startup_ns
  ⟨0xD000, 0x06, 0x06, .inst, .u16, .wo, .v, 0, []⟩,  -- pm_wake_ports
  ⟨0xD000, 0x07, 0x07, .inst, .u32, .ro, .c, 0, []⟩,  -- pm_warm_count
  ⟨0xD000, 0x08, 0x08, .inst, .u32, .ro, .c, 0, []⟩,  -- pm_die_count
  ⟨0xD000, 0x09, 0x09, .inst, .u32, .ro, .c, 0, []⟩,  -- pm_vdd_core_loss
  ⟨0xD100, 0x01, 0x01, .port, .u16, .rw, .w, 16, [(0, 1024)]⟩,  -- pm_idle_entry
  ⟨0xD100, 0x02, 0x02, .port, .u32, .rw, .w, 2000, [(0, 0), (100, 4000000000)]⟩,  -- pm_nap_idle
  ⟨0xD100, 0x03, 0x03, .port, .u32, .rw, .w, 1000000, [(0, 0), (10000, 4000000000)]⟩,  -- pm_dormant_idle
  ⟨0xD100, 0x04, 0x04, .port, .enum, .ro, .v, 0, []⟩,  -- pm_port_power
  ⟨0xD100, 0x05, 0x05, .port, .u32, .ro, .d, 0, []⟩,  -- pm_wakes
  ⟨0xD100, 0x06, 0x06, .port, .u32, .ro, .d, 0, []⟩,  -- pm_sleep_refused
  ⟨0xD100, 0x07, 0x07, .port, .u32, .ro, .d, 0, []⟩,  -- pm_last_wake_ns
  ⟨0xD100, 0x08, 0x08, .port, .u64, .ro, .d, 0, []⟩   -- pm_sleep_cc
  ]

/-- Entries of spec/16_test_observation.md. -/
def entriesTest : List Entry := [
  ⟨0xE000, 0x01, 0x01, .inst, .u32, .ro, .f, 0, []⟩,  -- tap_idcode
  ⟨0xE000, 0x02, 0x02, .inst, .u32, .ro, .d, 0, []⟩,  -- test_status
  ⟨0xE100, 0x01, 0x01, .port, (.blob 384), .ro, .d, 0, []⟩,  -- obs_counters
  ⟨0xE200, 0x01, 0x01, .bundle, (.blob 144), .ro, .d, 0, []⟩,  -- ixt_result
  ⟨0xE200, 0x02, 0x02, .bundle, .u32, .ro, .v, 0, []⟩,  -- ixt_fuse_proposal
  ⟨0xE200, 0x03, 0x03, .bundle, .u32, .co, .f, 0, []⟩,  -- ixt_fuse_write
  ⟨0xE300, 0x01, 0x01, .lane, .u32, .ro, .d, 0, []⟩,  -- ixt_lane_errors
  ⟨0xE400, 0x01, 0x01, .inst, .enum, .rw, .w, 0, [(0, 3)]⟩,  -- trace_mode
  ⟨0xE400, 0x02, 0x02, .inst, .table, .rw, .w, 0, []⟩,  -- trace_triggers
  ⟨0xE400, 0x03, 0x03, .inst, .bool, .wo, .v, 0, [(0, 1)]⟩,  -- trace_arm
  ⟨0xE400, 0x04, 0x04, .inst, .enum, .ro, .d, 0, []⟩,  -- trace_state
  ⟨0xE400, 0x05, 0x05, .inst, (.blob 65536), .ro, .d, 0, []⟩,  -- trace_buffer
  ⟨0xE400, 0x06, 0x06, .inst, .u16, .ro, .d, 0, []⟩,  -- trace_wptr
  ⟨0xE400, 0x07, 0x07, .inst, .u32, .ro, .d, 0, []⟩,  -- trace_lost
  ⟨0xE400, 0x08, 0x08, .inst, .u32, .wo, .v, 0, []⟩   -- trace_mark
  ]

/-- Every entry of the Almanac. -/
def catalog : List Entry :=
  entriesPorts ++ entriesWirePhy ++ entriesReachPhy ++ entriesLink ++ entriesRecovery ++ entriesSchedA ++ entriesSchedB ++ entriesTxn ++ entriesRlc ++ entriesIfr ++ entriesTen ++ entriesTwin ++ entriesCap ++ entriesAlm ++ entriesPower ++ entriesTest

end Sys2Proof.Machine
end

