-- ==== Sys2Proof/Machine/FlitBits.lean ====
section
/-!
DEFINITION. Flits as bits: the header (R111–R113), the payload (R110), CRC-32C (R116), the BCH code (R114)
and the wire locator (R115) of a wire port, and the PARAM body (R138).
-/

namespace Sys2Proof.Machine
open Sys2Proof

/-! ### CRC-32C (R116) -/

/-- The reflected form of the polynomial 0x1EDC_6F41. -/
def crc32cPoly : Nat := 0x82F63B78

/-- The CRC register after `n` message bits, least significant bit of each byte first. -/
def crc32cBits : (n msg c : Nat) → Nat
  | 0, _, c => c
  | n + 1, msg, c =>
    crc32cBits n (msg / 2) (if (c ^^^ msg) % 2 = 1 then (c / 2) ^^^ crc32cPoly else c / 2)

/-- CRC-32C over the low `n` bytes of a little-endian value. -/
def crc32c (n msg : Nat) : Nat := crc32cBits (8 * n) msg 0xFFFFFFFF ^^^ 0xFFFFFFFF

/-! ### CRC-16 of the Sideband Ring (R376) -/

/-- The CRC-16 register after the low `n` bits of a byte, most significant bit first. -/
def crc16Bits : (n b c : Nat) → Nat
  | 0, _, c => c
  | n + 1, b, c =>
    let c' := c * 2 % 65536
    crc16Bits n b (if (c / 32768 + b / 2 ^ n) % 2 = 1 then c' ^^^ 0x1021 else c')

/-- CRC-16 with polynomial 0x1021 and initial value 0xFFFF, no reflection (R376). -/
def crc16 (bs : List Byte) : Nat := bs.foldl (fun c b => crc16Bits 8 b.toNat c) 0xFFFF

/-! ### BCH (R114) -/

/-- Carry-less product of two polynomials over GF(2), the second of `n` coefficients. -/
def clmul : (n a b : Nat) → Nat
  | 0, _, _ => 0
  | n + 1, a, b => (if b % 2 = 1 then a else 0) ^^^ clmul n (2 * a) (b / 2)

/-- m₁(x) = x¹¹ + x² + 1. -/
def bchM1 : Nat := 0x805
/-- m₃(x), the minimal polynomial of α³: x¹¹ + x⁸ + x⁵ + x² + 1. -/
def bchM3 : Nat := 0x925
/-- g(x) = m₁(x) · m₃(x), of degree 22. -/
def bchG : Nat := clmul 12 bchM1 bchM3

/-- One more factor x modulo g(x). -/
def bchStep (r : Nat) : Nat := if 2 * r / 2 ^ 22 % 2 = 1 then (2 * r) ^^^ bchG else 2 * r

/-- The residues of x⁰, x¹, … modulo g(x). -/
def bchPowers : (n r : Nat) → List Nat
  | 0, _ => []
  | n + 1, r => r :: bchPowers n (bchStep r)

/-- The residue of the polynomial whose coefficient of x^i is bit `i` of a value. -/
def bchRem (n v : Nat) : Nat :=
  (List.range n).foldr (fun i r => (if bitAt v i then 1 else 0) ^^^ bchStep r) 0

/-- The polynomial position of a flit bit: message bit i stands at x^(i + 22), FEC bit j at x^j. -/
def bchOfFlit (bits : Nat) : Nat := bitsOf bits 2016 22 + 2 ^ 22 * bitsOf bits 0 2016

/-- The flit bit at a polynomial position. -/
def flitBitOf (e : Nat) : Nat := if e < 22 then 2016 + e else e - 22

/-- The two positions of a table whose residues combine to a syndrome. -/
def bchPair (t : List (Nat × Nat)) (syn : Nat) : Option (Nat × Nat) :=
  t.findSome? fun (a, ra) => (t.find? fun (b, rb) => decide (a < b) && (ra ^^^ rb) == syn).map fun (b, _) => (a, b)

/-- The flit bits to correct, none when the decoder reports the flit uncorrectable (R114). -/
def bchLocate (syn : Nat) : Option (List Nat) :=
  if syn = 0 then some []
  else
    let t := (List.range 2038).zip (bchPowers 2038 1)
    match t.find? fun (_, r) => r == syn with
    | some (a, _) => some [flitBitOf a]
    | none => (bchPair t syn).map fun (a, b) => [flitBitOf a, flitBitOf b]

/-! ### Wire locator (R115) -/

/-- P_w: parity of the flit bits b ≤ 2037 with b mod 64 = w. -/
def wireParity (bits w : Nat) : Bool :=
  (List.range 32).foldl (fun p k => if 64 * k + w < 2038 ∧ bitAt bits (64 * k + w) then !p else p) false

/-- The ten locator bits computed over a flit's bits. -/
def locator (bits : Nat) : Nat :=
  let ws := (List.range 64).filter (wireParity bits)
  let idx := ws.foldl (· ^^^ ·) 0
  (List.range 4).foldl
    (fun l g => l ^^^ (if (ws.filter fun w => w / 16 == g).length % 2 = 1 then 2 ^ (6 + g) else 0)) idx

/-- The wire that the locator syndrome blames, when it names one (R115). -/
def locatedWire (bits : Nat) : Option Nat :=
  let d := bitsOf bits 2038 10 ^^^ locator bits
  let idx := d % 64
  let gs := (List.range 4).filter fun g => bitAt d (6 + g)
  match gs with
  | [g] => if idx / 16 = g then some idx else none
  | _ => none

/-! ### Flit header and payload -/

/-- The 64-bit header of R111 with the flags of R113. -/
def Flit.header (f : Flit) : BitVec 64 :=
  0#3 ++ f.slot.extractLsb' 10 2 ++ BitVec.ofBool f.rply ++ BitVec.ofBool f.hold ++ BitVec.ofBool f.twin
    ++ BitVec.ofBool f.beacon ++ BitVec.ofBool f.leap ++ f.slot.extractLsb' 0 10 ++ f.crcnt ++ f.crvc
    ++ f.ackk ++ f.ackseq ++ f.fseq ++ f.gen ++ f.ftype

/-- The flit that a header spells, over its payload cells. -/
def Flit.ofHeader (h : BitVec 64) (cells : List Cell) : Flit :=
  { ftype := h.extractLsb' 0 4, gen := h.extractLsb' 4 4, fseq := h.extractLsb' 8 12,
    ackseq := h.extractLsb' 20 12, ackk := h.extractLsb' 32 2, crvc := h.extractLsb' 34 4,
    crcnt := h.extractLsb' 38 6, slot := h.extractLsb' 59 2 ++ h.extractLsb' 44 10,
    leap := h.getLsbD 54, beacon := h.getLsbD 55, twin := h.getLsbD 56, hold := h.getLsbD 57,
    rply := h.getLsbD 58, cells := cells }

/-- The flit in 2048 received bits (R110). -/
def Flit.ofBits (b : BitVec 2048) : Flit :=
  Flit.ofHeader (b.extractLsb' 0 64) ((List.range 15).map fun i => b.extractLsb' (64 + 128 * i) 128)

/-- Header and payload of a flit: its bytes 0–247 (R110). -/
def Flit.message (f : Flit) : Nat :=
  f.header.toNat
    + 2 ^ 64 * ((List.range 15).foldl (fun v i => v + (f.cells.getD i 0).toNat * 2 ^ (128 * i)) 0)

/-- CRC-32C of a flit as it is sent; inverted in a copy that no receiver may accept (R333). -/
def Flit.crc (f : Flit) (inverted : Bool) : Nat :=
  if inverted then crc32c 248 f.message ^^^ 0xFFFFFFFF else crc32c 248 f.message

/-- The 2048 bits of a flit as a wire port sends it (R110, R114–R116, R333). -/
def Flit.sentBits (f : Flit) (inverted : Bool) : BitVec 2048 :=
  let m := f.message + f.crc inverted * 2 ^ 1984
  let m := m + bchRem 2038 (m * 2 ^ 22) * 2 ^ 2016
  BitVec.ofNat 2048 (m + locator m * 2 ^ 2038)

/-- The bits of a flit sent with its own CRC. -/
def Flit.wireBits (f : Flit) : BitVec 2048 := f.sentBits false

/-- What the integrity check of a received flit found (R114–R117). -/
structure Checked where
  flit : Flit
  /-- Bad before the sequence check. -/
  bad : Bool
  corrected : Nat
  /-- Wires to which R115 assigns an error. -/
  wires : List Nat
deriving DecidableEq, Repr

/-- CRC-32C of bytes 0–247 agrees with bytes 248–251 (R116). -/
def crcGood (bits : Nat) : Bool := crc32c 248 (bits % 2 ^ 1984) == bitsOf bits 1984 32

/-- FTYPE is one of DATA, SCHED, CTRL, ACKO and PARAM (R112). -/
def knownFtype (t : BitVec 4) : Bool := decide (1 ≤ t.toNat) && decide (t.toNat ≤ 5)

/-- The check of a flit received on a wire port: BCH, then CRC-32C, then FTYPE (R114–R117). -/
def checkWire (b : BitVec 2048) : Checked :=
  let raw := b.toNat
  match bchLocate (bchRem 2038 (bchOfFlit raw)) with
  | none => { flit := Flit.ofBits b, bad := true, corrected := 0, wires := (locatedWire raw).toList }
  | some ps =>
    let fixed := ps.foldl (fun v p => v ^^^ 2 ^ p) raw
    let f := Flit.ofBits (BitVec.ofNat 2048 fixed)
    if crcGood fixed then
      { flit := f, bad := !knownFtype f.ftype, corrected := ps.length, wires := ps.map (· % 64) }
    else { flit := f, bad := true, corrected := ps.length, wires := ps.map (· % 64) ++ (locatedWire raw).toList }

/-- The check of a flit received on a UCIe port: BCH corrects, the locator is ignored (R349). -/
def checkUcie (b : BitVec 2048) : Checked := { checkWire b with wires := [] }

/-- The check of a flit received on a reach port: the slot mark of R96, CRC-32C, FTYPE (R116, R117). -/
def checkReach (r : RxFlit) : Checked :=
  let f := Flit.ofBits r.bits
  { flit := f, bad := r.slotBad || !crcGood r.bits.toNat || !knownFtype f.ftype, corrected := 0, wires := [] }

/-! ### PARAM body (R138) -/

/-- The fields of a PARAM body. -/
def ParamMsg.ofBody (b : BitVec 1920) : ParamMsg :=
  { pmt := b.extractLsb' 0 4, rxclr := b.getLsbD 4, gen := b.extractLsb' 8 4, mask := b.extractLsb' 16 16,
    die := b.extractLsb' 32 8, role := b.extractLsb' 40 3, port := b.extractLsb' 48 4,
    ipv := b.extractLsb' 64 16, build := b.extractLsb' 80 16, ffv := b.extractLsb' 96 8,
    cfv := b.extractLsb' 104 8, carry := b.extractLsb' 112 8, compat := b.extractLsb' 120 8,
    feat := b.extractLsb' 128 64, rxnext := b.extractLsb' 192 12, txold := b.extractLsb' 208 12,
    txcnt := b.extractLsb' 224 12, rxcells := b.extractLsb' 240 16, shared := b.extractLsb' 256 16,
    res := (List.range 15).map fun i => b.extractLsb' (272 + 16 * i) 16,
    rdepth := b.extractLsb' 512 16, path := b.extractLsb' 528 16 }

/-- The body of a PARAM message. -/
def ParamMsg.body (p : ParamMsg) : BitVec 1920 :=
  BitVec.ofNat 1920
    (field p.pmt.toNat 0 4 + field (b2n p.rxclr) 4 1 + field p.gen.toNat 8 4 + field p.mask.toNat 16 16
      + field p.die.toNat 32 8 + field p.role.toNat 40 3 + field p.port.toNat 48 4 + field p.ipv.toNat 64 16
      + field p.build.toNat 80 16 + field p.ffv.toNat 96 8 + field p.cfv.toNat 104 8
      + field p.carry.toNat 112 8 + field p.compat.toNat 120 8 + field p.feat.toNat 128 64
      + field p.rxnext.toNat 192 12 + field p.txold.toNat 208 12 + field p.txcnt.toNat 224 12
      + field p.rxcells.toNat 240 16 + field p.shared.toNat 256 16
      + sumNat ((List.range 15).map fun i => field (p.res.getD i 0).toNat (272 + 16 * i) 16)
      + field p.rdepth.toNat 512 16 + field p.path.toNat 528 16)

end Sys2Proof.Machine
end

