-- ==== Sys2Proof/Machine/Almanac.lean ====
section
/-!
DEFINITION. Reading the Almanac: where an index lies (R362, R389), the value of every entry (R363, R364), and
the counting of statistics. Writing is in AlmWrite.lean, after the parts that writes act on.
-/

namespace Sys2Proof.Machine
open Sys2Proof

/-! ### Stored scalars and statistics -/

/-- The key of index:sub. -/
def ekey (idx sub : Nat) : Nat := idx * 256 + sub

/-- A stored scalar, or its default. -/
def State.get (s : State) (idx sub dflt : Nat) : Nat := mgetD s.alm (ekey idx sub) dflt

/-- Store a scalar; the default is stored as nothing. -/
def State.put (s : State) (idx sub dflt v : Nat) : State :=
  { s with alm := if v = dflt then mdel s.alm (ekey idx sub) else mset s.alm (ekey idx sub) v }

/-- Raise a saturating 32-bit statistic. -/
def State.bump (s : State) (idx sub n : Nat) : State := s.put idx sub 0 (satAdd 32 (s.get idx sub 0) n)

/-- Raise a saturating 64-bit statistic. -/
def State.bump64 (s : State) (idx sub n : Nat) : State := s.put idx sub 0 (satAdd 64 (s.get idx sub 0) n)

/-- Raise a counter kept by index in a statistics BLOB, saturating at 32 bits. -/
def State.bumpCount (s : State) (k n : Nat) : State :=
  { s with counts := mset s.counts k (satAdd 32 (mgetD s.counts k 0) n) }

/-- The rows of a TABLE that has been written. -/
def State.rows (s : State) (idx sub : Nat) : List Nat := mgetD s.tabs (ekey idx sub) []

/-! ### Per-port settings (R139 and the entry tables) -/

/-- A port, by its CPORT code. -/
def State.port (s : State) (q : Nat) : Port := s.ports.getD q {}

/-- A setting of a port at index base + 256 · q. -/
def State.pget (s : State) (base q sub dflt : Nat) : Nat := s.get (base + 256 * q) sub dflt

/-- RSV_v of a VC as programmed: `link_vc_reserved`, 32 by default (R127, R128). -/
def rsvSet (s : State) (q v : Nat) : Nat := if v = 0 then 0 else s.pget 0x5010 q v 32

/-- The key of a structure's unit in the repair tables. -/
def repairKey (code unit : Nat) : Nat := code * 16 + unit

/-- Banks, ways or pieces removed from a structure (R332). -/
def banksGone (s : State) (code unit : Nat) : Nat := mgetD s.repair.banks (repairKey code unit) 0

/-- `link_replay_depth`: the built depth less 1/16 for each removed bank (R126, R332). -/
def replayLimit (s : State) (q : Nat) : Nat :=
  Config.replayDepth q - banksGone s 1 q * (Config.replayDepth q / 16)

/-- `link_rx_cells`: the built total less 1/16 for each removed bank (R128, R332). -/
def rxTotal (s : State) (q : Nat) : Nat :=
  s.elab_.rxCells q - banksGone s 2 q * (s.elab_.rxCells q / 16)

/-- RSV_v lowered from VC15 downward until they fit the total (R332). -/
def rsvFit (total : Nat) : List Nat → List Nat
  | [] => []
  | r :: rs =>
    let r' := min r total
    r' :: rsvFit (total - r') rs

/-- The RSV_v in force, VC0 first. -/
def rsvList (s : State) (q : Nat) : List Nat := rsvFit (rxTotal s q) ((List.range 16).map (rsvSet s q))

/-- SH of the own receive buffer (R128). -/
def sharedOf (s : State) (q : Nat) : Nat := rxTotal s q - sumNat (rsvList s q)

/-- Hold buffer size in flits (R185, R332). -/
def holdSize (s : State) (q : Nat) : Nat :=
  s.elab_.holdFlits q - banksGone s 3 q * (s.elab_.holdFlits q / 16)

/-- Calendar capacity in entries (R332). -/
def calCapacity (s : State) (q : Nat) : Nat := s.elab_.calEntries - 256 * banksGone s 6 q

/-- Ways of the RLC removed by repair, one bit each (`repair_rlc_ways_removed`). -/
def waysRemoved (s : State) : Nat := s.get 0xB200 0x05 0

/-- Ways of the RLC enabled and present, none when no RLC is built (R244, R332). -/
def waysEnabled (s : State) : List Nat :=
  if s.elab_.rlcKib = 0 ∨ s.get 0x8000 0x01 1 = 0 then []
  else (List.range 16).filter fun w => bitAt (s.get 0x8000 0x03 0xFFFF) w && !bitAt (waysRemoved s) w

/-! ### Twin pairs (R312, R314) -/

/-- Entry `k` of `twin_pairs`. -/
def pairRow (s : State) (k : Nat) : Nat := (s.rows 0xB000 0x01).getD k 0
/-- The wire port of TWIN_A. -/
def pairA (s : State) (k : Nat) : Nat := bitsOf (pairRow s k) 0 4
/-- The wire port of TWIN_B. -/
def pairB (s : State) (k : Nat) : Nat := bitsOf (pairRow s k) 4 4
/-- The entry is in force. -/
def pairValid (s : State) (k : Nat) : Bool := bitAt (pairRow s k) 8

/-- The pair a port belongs to. -/
def pairOf (s : State) (q : Nat) : Option Nat :=
  (List.range 4).find? fun k => pairValid s k && (pairA s k == q || pairB s k == q)

/-- The port whose record holds the link layer of a port: TWIN_A for both units of a pair (R314). -/
def logical (s : State) (q : Nat) : Nat :=
  match pairOf s q with
  | some k => pairA s k
  | none => q

/-- The other unit of the pair of a port. -/
def sibling (s : State) (q : Nat) : Option Nat :=
  (pairOf s q).map fun k => if pairA s k = q then pairB s k else pairA s k

/-- Role of a unit of a pair. -/
def roleOf (s : State) (k q : Nat) : Role :=
  let pr := s.twins.getD k {}
  if pairA s k = q then pr.roleA else pr.roleB

/-- The role merges copies (R315). -/
def Role.merged : Role → Bool
  | .active => true
  | .standby => true
  | _ => false

/-- The unit of a pair in the ACTIVE role, or the port itself. -/
def activeUnit (s : State) (q : Nat) : Nat :=
  match pairOf s q with
  | some k => if (s.twins.getD k {}).roleB = .active then pairB s k else pairA s k
  | none => q

/-! ### Route tables (R220) -/

/-- The die route entry of a DIE value; by default only the own die is known, with SELF = 1. -/
def dieRoute (s : State) (d : Nat) : Nat :=
  match mget s.tabs (ekey 0x7000 0x02) with
  | some rs => rs.getD d 0xFFFF
  | none => if d = s.die.toNat then 0x1FFFF else 0xFFFF

/-- `txn_own_pkg`. -/
def ownPkg (s : State) : Nat := s.get 0x7000 0x01 0

/-- The package route entry of a PKG value. -/
def pkgRoute (s : State) (p : Nat) : Nat :=
  match mget s.tabs (ekey 0x7000 0x03) with
  | some rs => rs.getD p 0xFFFF
  | none => if p = ownPkg s then 0x1FFFF else 0xFFFF

/-- SELF of a route entry. -/
def routeSelf (e : Nat) : Bool := bitAt e 16
/-- PREF, ALT1, ALT2 and ALT3 of a route entry, those that name a port. -/
def routePorts (e : Nat) : List Nat := ((List.range 4).map fun i => bitsOf e (4 * i) 4).filter (· != 15)
/-- PREF of a route entry. -/
def routePref (e : Nat) : Nat := bitsOf e 0 4
/-- The entry leads somewhere (R220). -/
def routeValid (e : Nat) : Bool := routeSelf e || routePref e != 15

/-! ### Where an index lies (R362, R389) -/

/-- The place of an index: the index with its unit digits cleared, and the digits. -/
structure Loc where
  base : Nat
  a : Nat
  b : Nat
deriving DecidableEq, Repr

/-- Split an index into base and unit digits. -/
def locate (idx : Nat) : Loc :=
  let hi := idx / 4096
  let n2 := idx / 256 % 16
  let n1 := idx / 16 % 16
  let n0 := idx % 16
  let plain : Loc := ⟨idx, 0, 0⟩
  match hi with
  | 3 | 4 =>
    if n1 = 1 then ⟨hi * 4096 + 0x10, n2, n0⟩ else ⟨hi * 4096 + idx % 256, n2, 0⟩
  | 5 => ⟨0x5000 + idx % 256, n2, 0⟩
  | 6 => if n2 = 15 then plain else ⟨0x6000 + idx % 256, n2, 0⟩
  | 7 | 9 | 10 | 13 => if n2 = 1 then ⟨hi * 4096 + 0x100 + n0, n1, 0⟩ else plain
  | 11 => if n2 = 3 then ⟨0xB300 + n0, n1, 0⟩ else plain
  | 12 => if n2 = 1 ∨ n2 = 2 then ⟨0xC000 + 256 * n2 + n0, n1, 0⟩ else plain
  | 14 =>
    if n2 = 1 then ⟨0xE100 + n0, n1, 0⟩
    else if n2 = 2 ∨ n2 = 3 then ⟨0xE000 + 256 * n2, n1, n0⟩ else plain
  | _ => plain

/-- The unit of an entry is built (R362). -/
def unitBuilt (s : State) (e : Entry) (l : Loc) : Bool :=
  match e.unit_ with
  | .inst => true
  | .wire => decide (l.a < 8) && s.elab_.portBuilt l.a
  | .reach => decide (l.a < s.elab_.reachPorts)
  | .port =>
    s.elab_.portBuilt l.a
      && !(Config.isReach l.a && ((e.base == 0x6000 && e.sub == 0x02) || (e.base == 0xD100 && e.sub == 0x02)))
  | .portOrPool => s.elab_.portBuilt l.a || l.a == 15
  | .bundle => decide (l.a < 8) && decide (l.b < s.elab_.units l.a)
  | .lane => decide (l.a < s.elab_.reachPorts) && decide (l.b < s.elab_.reachLanes)
  | .engine => decide (l.a < s.elab_.ifr)
  | .pair => s.elab_.twin && decide (l.a < 4)

/-- The entry at an index:sub, none when it does not exist (R362). -/
def entryAt (s : State) (idx sub : Nat) : Option Entry :=
  let l := locate idx
  (catalog.find? fun e => e.base == l.base && decide (e.sub ≤ sub) && decide (sub ≤ e.subEnd)).filter
    fun e => unitBuilt s e l

/-- Size in bytes of a scalar type, none for STR, BLOB and TABLE (R363). -/
def EntryType.width : EntryType → Option Nat
  | .u8 | .bool | .enum => some 1
  | .u16 => some 2
  | .u32 => some 4
  | .u64 => some 8
  | _ => none

/-- The default of a scalar entry (the Default columns), computed where the column is not a number. -/
def defaultOf (s : State) (e : Entry) (l : Loc) : Nat :=
  match e.base, e.sub with
  | 0x4000, 0x03 => max 1 (s.elab_.reachLanes / 2)
  | 0x6000, 0x02 => s.elab_.units l.a
  | 0x7100, 0x01 => 0xFFF
  | 0x9000, 0x02 => 2 ^ s.elab_.ifr - 1
  | _, _ => e.dflt

/-! ### Live values -/

/-- The codes of R141. -/
def LinkState.code : LinkState → Nat
  | .off => 0 | .detect => 1 | .train => 2 | .align => 3 | .param => 4 | .active => 5
  | .retrain => 6 | .hold => 7 | .nap => 8 | .dormant => 9 | .fault => 10

/-- The codes of R315. -/
def Role.code : Role → Nat
  | .out => 0 | .active => 1 | .standby => 2 | .catchup => 3

/-- Open service records (R336). -/
def svcOpenCount (s : State) : Nat := (s.svc.filter (·.open_)).length

/-- `pm_port_power` (R396). -/
def portPower (p : Port) : Nat :=
  match p.state with
  | .off => 0
  | .nap => 3
  | .dormant => 4
  | _ => if p.idle then 2 else 1

/-- TEMP and other AON results are stored scalars; `pm_core_state` is live (R391). -/
def CoreState.code : CoreState → Nat
  | .stopped => 0 | .starting => 1 | .running => 2

/-- Waiters queued at the semaphores homed here (R234). -/
def waitersUsed (s : State) : Nat := sumNat (s.sems.map fun (_, m) => m.fifo.length)

/-- Staging slots of the engines less those removed (R281, R332), of which open RIDs reserve theirs. -/
def stagingTotal (s : State) : Nat := 2048 * s.elab_.ifr - s.ifr.removed
/-- Slots reserved by one RID: CONTRIB × W (R279). -/
def ridSlots (r : RidState) : Nat := if r.aborted then 0 else r.desc.contrib * r.window
/-- Unreserved staging slots (R279). -/
def stagingFree (s : State) : Nat := stagingTotal s - sumNat (s.ifr.rids.map fun (_, r) => ridSlots r)

/-- `ifr_eng_state` (R294). -/
def engineState (s : State) (e : Nat) : Nat :=
  if bitAt (s.get 0xB200 0x06 0) e then 4
  else if s.ifr.failed.contains e then 3
  else if bitAt (s.get 0x9000 0x02 (2 ^ s.elab_.ifr - 1)) e then 1 else 2

/-- RIDs OPEN on an engine. -/
def engineOpen (s : State) (e : Nat) : Nat :=
  (s.ifr.rids.filter fun (_, r) => !r.aborted && r.eng == e).length

/-- Cells in the park store: of tenancies not ADMITTED, and of readmitted transactions not yet committed (R304, R308). -/
def parkUsed (s : State) : Nat :=
  sumNat ((s.ten.park ++ s.ingress.filter fun x => x.2.parked).map fun x => x.2.txn.size)

/-- The site address of R374; an illegal strap answers at the role-6 address. -/
def siteAddress (s : State) : Nat :=
  (if s.strapRole.toNat < 6 then s.strapRole.toNat else 6) * 64 + s.strapPos.toNat

/-- TAGs in use in the pool of a port, or in the local pool at 15 (R224). -/
def tagsOf (s : State) (q : Nat) : NMap TagInfo := if q = 15 then s.localTags else (s.port q).tags

/-- A port can take traffic: ACTIVE, IDLE, NAP or DORMANT (R22). -/
def portUsable (s : State) (q : Nat) : Bool :=
  match (s.port q).state with
  | .active | .nap | .dormant => true
  | _ => false

/-- A port code that a route names is usable: the port, or either merged unit of its pair (R22, R314). -/
def usable (s : State) (q : Nat) : Bool :=
  match pairOf s q with
  | some k =>
    (portUsable s (pairA s k) && (roleOf s k (pairA s k)).merged)
      || (portUsable s (pairB s k) && (roleOf s k (pairB s k)).merged)
  | none => s.elab_.portBuilt q && portUsable s q

/-- Cells committed to a port: flits of 15 cells in its replay buffer, and the rest of a transaction that the last of them
began (R153). -/
def replayCells (p : Port) : Nat := 15 * p.replay.length + p.stream.length

/-- A transaction waits under R22, with no usable port, for port `q` and for no other; a route that names TWIN_B's code names the
pair (R153, R314). -/
def waitsOnlyFor (s : State) (q : Nat) (w : Waiting) : Bool :=
  w.step == 9 && !w.route.isEmpty && w.route.all (fun r => logical s r == q) && !usable s q

/-- `link_held_cells` (R153). -/
def heldCells (s : State) (q : Nat) : Nat :=
  replayCells (s.port q)
    + sumNat ((s.ingress.filter fun (_, w) => waitsOnlyFor s q w).map fun (_, w) => w.txn.size)
    + sumNat (s.ports.map fun p =>
        sumNat (((p.rx ++ p.waitq).filter (waitsOnlyFor s q)).map fun w => w.txn.size))

/-- `alias_state` (R329): whether the site retired, or adopted another identity. -/
def aliasState (s : State) : Nat := s.get 0xB100 0x11 0

/-- The identification register (R410). -/
def idcodeOf (s : State) : Nat :=
  1 + s.fuses.mfr.toNat * 2 + (0x1E40 + s.elab_.member) * 2 ^ 12 + 2 * 2 ^ 28

/-- PFEAT of a native port (R338). -/
def nativeFeat (s : State) : Nat := 0x7BFF + (if s.elab_.twin then 0x400 else 0)

/-- Values of an instance entry that the machine holds elsewhere than in the scalar store. -/
def liveInst (s : State) (base sub : Nat) : Option Nat :=
  match base with
  | 0x0000 => match sub with
    | 0x01 => some (0x0402 * 65536 + s.elab_.build % 65536)
    | 0x02 => some s.elab_.member
    | 0x06 => some s.elab_.unique
    | 0x08 => some s.die.toNat
    | _ => none
  | 0x0100 => if sub = 2 then some (svcOpenCount s) else none
  | 0x1000 => match sub with
    | 0x01 => some (siteAddress s)
    | 0x02 => some (s.now % 2 ^ 64)
    | _ => none
  | 0x1002 => match sub with
    | 0x01 => some s.sup.state
    | 0x02 => some s.sup.rev
    | 0x04 => some s.sup.patchStatus
    | _ => none
  | 0x2100 => match sub with
    | 0x01 => some s.elab_.nBeat
    | 0x02 => some (16 * s.elab_.nBeat)
    | 0x03 => some (32 * s.elab_.nBeat)
    | 0x04 => some (8 * s.elab_.nBeat)
    | 0x05 => some (16 * s.elab_.nBeat)
    | 0x06 => some (16 * s.elab_.nBeat)
    | 0x07 => some (32 * s.elab_.nBeat)
    | _ => none
  | 0x2101 => match sub with
    | 0x01 => some s.strapDie.toNat
    | 0x02 => some s.strapRole.toNat
    | 0x03 => some s.strapPos.toNat
    | _ => none
  | 0x6F00 => match sub with
    | 0x05 => some s.sch.epoch.toNat
    | 0x06 => some (b2n s.sch.joined)
    | _ => none
  | 0x6F01 => if sub = 0x13 then some (min s.therm.demand 255) else none
  | 0x7000 => if sub = 0x09 then some (2 * s.elab_.semHome - waitersUsed s) else none
  | 0x8000 => match sub with
    | 0x02 => some s.elab_.rlcKib
    | 0x07 => some (b2n s.rlc.busy)
    | _ => none
  | 0x8100 => match sub with
    | 0x01 => some s.elab_.exportEntries
    | 0x02 => some (s.home.filter.filter (!·.region)).length
    | 0x03 => some (s.home.filter.filter (·.region)).length
    | 0x09 => some (b2n (s.home.track.any fun t => t.kind == .recall && t.discard))
    | _ => none
  | 0x9000 => match sub with
    | 0x01 => some s.elab_.ifr
    | 0x04 => some (s.ifr.rids.filter fun (_, r) => !r.aborted).length
    | 0x06 => some s.ifr.orphans.length
    | 0x08 => some (stagingFree s)
    | _ => none
  | 0xA000 => match sub with
    | 0x04 => some s.elab_.parkCells
    | 0x05 => some (parkUsed s)
    | _ => none
  | 0xC000 => if sub = 1 then some (nativeFeat s) else none
  | 0xD000 => if sub = 1 then some s.core.code else none
  | 0xE000 => match sub with
    | 0x01 => some (idcodeOf s)
    | 0x02 => some s.tap.stat
    | _ => none
  | 0xE400 => match sub with
    | 0x04 => some s.trace.state
    | 0x06 => some s.trace.wptr
    | _ => none
  | 0xB100 => if 1 ≤ sub ∧ sub ≤ 0x10 then some (mgetD s.fuses.alias_ (sub - 1) 0) else none
  | _ => none

/-- The partner has completed PARAM and lacks a feature (R341). -/
def lacksFeature (p : Port) (bit : Nat) : Bool := p.gen != 0 && !bitAt p.feat bit

/-- The port is a domain link: so set, in an adapter that takes part in a domain, with a partner that has SCHED
(R191, R341). -/
def domainLink (s : State) (q : Nat) : Bool :=
  s.pget 0x6000 q 0x01 0 == 1 && s.get 0x6F00 0x01 0 == 1 && !lacksFeature (s.port (logical s q)) 8

/-- `sch_port_state` (R191, R194, R196, R446). -/
def schPortState (s : State) (q : Nat) : Nat :=
  if !domainLink s q then 0 else if !s.sch.joined then 2 else (s.port (logical s q)).schState

/-- Values of a port's entry that the machine holds in the port. -/
def livePort (s : State) (base sub q : Nat) : Option Nat :=
  let p := s.port q
  match base with
  | 0x5000 => match sub with
    | 0x01 => some p.state.code
    | 0x02 => some p.gen.toNat
    | 0x03 => some (s.port (activeUnit s q)).mask
    | 0x04 => some p.o.toNat
    | 0x05 => some p.replay.length
    | 0x06 => some p.e.toNat
    | 0x07 => some (replayLimit s q)
    | 0x08 => some (rxTotal s q)
    | _ => none
  | 0x5002 => match sub with
    | 0x03 => some p.ra
    | 0x04 => some p.ta
    | 0x0D => some (heldCells s q)
    | _ => none
  | 0x5012 => some (p.uv.getD sub 0)
  | 0x6000 => match sub with
    | 0x03 => some p.schLatency
    | 0x04 => some (schPortState s q)
    | 0x05 => some p.calId
    | _ => none
  | 0x7100 => if sub = 2 then some (tagsOf s q).length else none
  | 0xD100 => if sub = 4 then some (portPower p) else none
  | _ => none

/-- Values of the entries of bundles, lanes, engines and pairs, and of whole PHYs. -/
def liveUnit (s : State) (base sub : Nat) (l : Loc) : Option Nat :=
  let bun := (s.port l.a).bundles.getD l.b {}
  let xp := s.port (8 + l.a)
  let lane := xp.lanes.getD l.b {}
  match base with
  | 0x3000 => if sub = 2 then some (2 ^ s.elab_.units l.a - 1) else none
  | 0x3010 => match sub with
    | 0x01 => some (mgetD s.fuses.maps (l.a * 16 + l.b) 0)
    | 0x02 => some bun.spareMap
    | 0x04 => some bun.state
    | _ => none
  | 0x4000 => match sub with
    | 0x01 => some (2 ^ s.elab_.reachLanes - 1)
    | 0x02 => some xp.width
    | 0x04 => some xp.loop
    | 0x05 => some xp.pathDelay
    | _ => none
  | 0x4010 => match sub with
    | 0x01 => some lane.state
    | 0x02 => some lane.errors
    | _ => none
  | 0x9100 => match sub with
    | 0x01 => some (engineState s l.a)
    | 0x02 => some (engineOpen s l.a)
    | _ => none
  | 0xB300 => match sub with
    | 0x01 => some ((s.twins.getD l.a {}).roleA.code)
    | 0x02 => some ((s.twins.getD l.a {}).roleB.code)
    | _ => none
  | 0xE200 => match sub with
    | 0x02 => some bun.proposal
    | 0x03 => some (if s.fuses.mapWritten.contains (l.a * 16 + l.b) then mgetD s.fuses.maps (l.a * 16 + l.b) 0 else 0)
    | _ => none
  | 0xE300 => if sub = 1 then some lane.ixtErrors else none
  | _ => none

/-- The value of a scalar entry (R364, R368). -/
def scalarValue (s : State) (e : Entry) (idx sub : Nat) : Nat :=
  let l := locate idx
  let live := match e.unit_ with
    | .inst => liveInst s l.base sub
    | .port | .portOrPool => livePort s l.base sub l.a
    | _ => liveUnit s l.base sub l
  match live with
  | some v => v
  | none => s.get idx sub (if sub = e.sub then defaultOf s e l else e.dflt)

/-! ### BLOB, TABLE and STR values -/

/-- Concatenate `n` values of a width in bytes. -/
def packBytes (w : Nat) (vs : List Nat) : List Byte := (vs.map (toBytes w)).flatten

/-- `ident_params` (R390). -/
def identParams (s : State) : Nat :=
  let e := s.elab_
  field e.bundles.length 0 8
    + sumNat ((List.range 8).map fun p => field (e.bundles.getD p 0) (8 + 8 * p) 8)
    + field e.reachPorts 72 8 + field (if e.reachPorts = 0 then 0 else e.reachLanes) 80 8 + field e.ifr 88 8
    + field (b2n e.twin) 96 1 + field (b2n e.firewall) 97 1 + field e.rlcKib 128 16
    + field e.calEntries 144 16 + field e.exportEntries 160 32 + field e.semHome 192 16
    + field e.qrange 208 16

/-- A service record as 256 bits (R334). -/
def svcBits (r : SvcRecord) : Nat :=
  field r.reason 0 8 + field r.ukind 8 4 + field r.unit_ 16 8 + field r.sub 24 8 + field (b2n r.open_) 32 1
    + field r.count 48 16 + field r.topen 64 64 + field r.tlast 128 64 + field r.detail 192 32

/-- Valid lines per home DIE and per hint (R246). -/
def residency (s : State) : List Nat :=
  let ls := s.rlc.lines.filter fun (_, l) => l.st != .i
  ((List.range 256).map fun d => (ls.filter fun (k, _) => (laDie (BitVec.ofNat 51 k)).toNat == d).length)
    ++ (List.range 16).map fun h => (ls.filter fun (_, l) => l.hint == some h).length

/-- SIDs homed here, in ascending order: those of ranges whose SDIE is this die (R232). -/
def localSids (s : State) : List Nat :=
  ((List.range 65536).filter fun sid => (s.rows 0x7000 0x07).any fun r =>
    bitsOf r 16 17 != 0 && decide (bitsOf r 0 16 ≤ sid) && decide (sid < bitsOf r 0 16 + bitsOf r 16 17)
      && routeSelf (dieRoute s (bitsOf r 33 8)))

/-- One 16-B row of `txn_sem_state`. -/
def semBits (s : State) (sid : Nat) : Nat :=
  match mget s.sems sid with
  | none => 0
  | some m => field m.value 0 32 + field m.expected 32 32 + field (min m.arrived 0xFFFF) 64 16
      + field m.bgen.toNat 80 16 + field (if m.barrier then 2 else 1) 96 8 + field m.owner.toNat 104 8
      + field m.fifo.length 112 16

/-- State of a tenancy: 0 ADMITTED, 1 DRAINING, 2 QUIESCED (R298). -/
def tenState (s : State) (t : Nat) : Nat := mgetD s.ten.st t 0

/-- The value of a BLOB. -/
def blobBytes (s : State) (l : Loc) (sub : Nat) : List Byte :=
  let bun := (s.port l.a).bundles.getD l.b {}
  match l.base with
  | 0x0000 => toBytes 32 (identParams s)
  | 0x3010 => packBytes 2 (bun.eyes.map (·.toNat))
  | 0x4010 => ((s.port (8 + l.a)).lanes.getD l.b {}).eq
  | 0x6F00 => if sub = 0x09 then packBytes 1 s.sch.lt else packBytes 1 s.sch.ap
  | 0x7001 => packBytes 4 ((List.range 25).map fun c => mgetD s.counts c 0)
  | 0x8000 => packBytes 4 (residency s)
  | 0x9000 =>
    toBytes 1024 (sumNat (s.ifr.rids.map fun (r, st) => field (if st.aborted then 2 else 1) (2 * r) 2))
  | 0xA000 => packBytes 1 ((List.range 256).map (tenState s))
  | 0xA002 => packBytes 4 ((List.range 256).map fun t => mgetD s.counts (0x10000 + t) 0)
  | 0xA100 => packBytes 2 ((List.range 256).map fun t => mgetD (s.port l.a).st t 0)
  | 0xB200 => packBytes 8 ((List.range 7).map fun i =>
      field (sumNat ((List.range 16).map fun u => mgetD s.repair.used (repairKey (i + 1) u) 0)) 0 8
        + field (sumNat ((List.range 16).map fun u => banksGone s (i + 1) u)) 8 16)
  | 0xB300 => if (s.twins.getD l.a {}).health = 0 then [] else toBytes 8 (s.twins.getD l.a {}).health
  | 0xC001 => packBytes 8 ((List.range 256).map fun r => mgetD s.fw.hits r 0)
  | 0xE100 => packBytes 6 (s.port l.a).obs
  | 0xE200 => packBytes 2 (if bun.ixt.isEmpty then List.replicate 72 0 else bun.ixt.map (·.toNat))
  | 0xE400 => packBytes 16 ((List.range 4096).map fun r => (mgetD s.trace.buf r 0).toNat)
  | _ => []

/-- Bytes of one row of a TABLE. -/
def tableRowBytes (base sub : Nat) : Nat :=
  match base, sub with
  | 0x0100, _ => 32
  | 0x6002, _ => 8
  | 0x7000, 0x02 => 4 | 0x7000, 0x03 => 4 | 0x7000, 0x04 => 16 | 0x7000, 0x08 => 16 | 0x7000, _ => 8
  | 0x8000, _ => 16
  | 0xA000, 0x01 => 2 | 0xA000, _ => 4
  | 0xB000, _ => 2
  | 0xC001, 0x01 => 32
  | 0xC001, _ => 8
  | 0xE400, _ => 32
  | _, _ => 8

/-- Header of a calendar value (R174). -/
def calHeader (id nent : Nat) : Nat := field id 0 16 + field nent 16 13

/-- The value of a TABLE. Tables whose default is "Empty" read empty until they are written. -/
def tableBytes (s : State) (l : Loc) (sub : Nat) : List Byte :=
  let w := tableRowBytes l.base sub
  match l.base, sub with
  | 0x0100, _ => if s.svc.all (·.reason == 0) then [] else packBytes 32 (s.svc.map svcBits)
  | 0x6002, 0x02 =>
    let p := s.port l.a
    if p.cal.isEmpty && p.calId == 0 then [] else packBytes 8 (calHeader p.calId p.cal.length :: p.cal)
  | 0x6002, _ => packBytes 8 (s.rows (0x6002 + 256 * l.a) 0x01)
  | 0x7000, 0x02 => packBytes w ((List.range 256).map (dieRoute s))
  | 0x7000, 0x03 => packBytes w ((List.range 4096).map (pkgRoute s))
  | 0x7000, 0x08 => packBytes w ((localSids s).map (semBits s))
  | 0xA000, 0x01 => packBytes w ((List.range 6).map fun i => (s.rows 0xA000 0x01).getD i 0)
  | 0xA000, 0x02 => packBytes w ((List.range 256).map fun i => (s.rows 0xA000 0x02).getD i 0x4000000)
  | 0xB000, _ => packBytes w ((List.range 4).map (pairRow s))
  | 0xE400, _ => packBytes w ((List.range 8).map fun i => (s.rows 0xE400 0x02).getD i 0)
  | _, _ => packBytes w (s.rows l.base sub)

/-- ASCII of the two STR entries. -/
def strBytes (sub : Nat) : List Byte :=
  ((if sub = 3 then "TROTRIC" else "IHLEO").toList.map fun c => BitVec.ofNat 8 c.toNat)

/-- The value of an entry as its bytes (R363). -/
def entryBytes (s : State) (e : Entry) (idx sub : Nat) : List Byte :=
  match e.ty.width with
  | some w => toBytes w (scalarValue s e idx sub)
  | none =>
    match e.ty with
    | .table => tableBytes s (locate idx) sub
    | .str => strBytes sub
    | _ => blobBytes s (locate idx) sub

end Sys2Proof.Machine
end

