-- ==== Sys2Proof/Machine/Ops.lean ====
section
/-!
DEFINITION. The named operations of the machine: outputs, events, interrupt causes, service records, trace
events, updates of a port, and the change of a port's link state.
-/

namespace Sys2Proof.Machine
open Sys2Proof

/-- Drive something at the block's ports in this cc. -/
def State.emit (s : State) (o : Output) : State := { s with out := s.out ++ [o] }

/-- Offer an event to the trace (R424); only an armed, running or full trace on a running CORE looks at it. -/
def State.tev (s : State) (kind port sub : Nat) (bad : Bool) (data : BitVec 64) : State :=
  if (s.trace.state = 1 ∨ s.trace.state = 2 ∨ s.trace.state = 4) ∧ s.core = .running then
    { s with trace := { s.trace with events := s.trace.events ++ [⟨kind, port, sub, bad, data⟩] } }
  else s

/-- The fields of EVT (R39). -/
def evtBits (code : BitVec 8) (ten : Ten) (arg : BitVec 32) : BitVec 64 :=
  0#15 ++ arg ++ ten ++ code ++ 1#1

/-- Queue an adapter-to-die event (R40); it is presented when event credit is held (R39). -/
def State.evt (s : State) (code : BitVec 8) (ten : Ten) (arg : BitVec 32) : State :=
  { s with evtOut := s.evtOut ++ [(code, ten, arg)] }

/-- Raise the argument of the newest IRQ_CAUSE event that waits. -/
def joinCause (arg : BitVec 32) : List (BitVec 8 × Ten × BitVec 32) → List (BitVec 8 × Ten × BitVec 32)
  | [] => []
  | x :: xs =>
    if x.1 == 0x82 && !(xs.any fun y => y.1 == 0x82) then (x.1, x.2.1, x.2.2 ||| arg) :: xs else x :: joinCause arg xs

/-- IRQ_CAUSE names every group that rises in one cc: a further one of the cc joins the event that waits (R40). -/
def State.irqEvent (s : State) (arg : BitVec 32) : State :=
  if s.irqs.at_ = some s.now then { s with evtOut := joinCause arg s.evtOut }
  else { (s.evt 0x82 0 arg) with irqs := { s.irqs with at_ := some s.now } }

/-- Remember the causes of this AON cycle, which an `irq_clear` of the same cycle leaves set (R388). -/
def State.irqSeen (s : State) (cause : Nat) : State :=
  let old := if s.irqs.cycle = s.now / 40 then s.irqs.causes.filter (· != cause) else []
  { s with irqs := { s.irqs with cycle := s.now / 40, causes := old ++ [cause] } }

/-- Raise an interrupt cause group (R388): a rise of its status bit presents IRQ_CAUSE and owes a NOTICE. -/
def State.irq (s : State) (cause : Nat) : State :=
  let st := s.get 0x1001 0x01 0
  let s := s.irqSeen cause
  if bitAt st cause then s
  else
    let s := (s.put 0x1001 0x01 0 (st + 2 ^ cause)).irqEvent (BitVec.ofNat 32 (2 ^ cause))
    { s with ring := { s.ring with noticeOwed := true } }

/-- The slot a new service record takes: the first empty one, else the closed one with the earliest TLAST. -/
def svcSlot (rs : List SvcRecord) : Option Nat :=
  match (List.range 32).find? fun i => (rs.getD i {}).reason == 0 with
  | some i => some i
  | none =>
    (List.range 32).foldl
      (fun best i =>
        let r := rs.getD i {}
        if r.open_ then best
        else match best with
          | none => some i
          | some j => if r.tlast < (rs.getD j {}).tlast then some i else best)
      none

/-- An event for which service is asked: raise the open record of the same unit, or open one (R335). -/
def State.service (s : State) (reason ukind unit sub detail : Nat) : State :=
  let same (r : SvcRecord) : Bool :=
    r.open_ && r.reason == reason && r.ukind == ukind && r.unit_ == unit && r.sub == sub
  if s.svc.any same then
    { s with svc := mapIf same (fun r => { r with count := satAdd 16 r.count 1, tlast := s.now }) s.svc }
  else
    match svcSlot s.svc with
    | none => s.bump 0x0100 0x04 1
    | some i =>
      let r : SvcRecord := { reason := reason, ukind := ukind, unit_ := unit, sub := sub, open_ := true,
                             count := 1, topen := s.now, tlast := s.now, detail := detail }
      let s := { s with svc := setAt i r s.svc, ring := { s.ring with noticeOwed := true } }
      (s.evt 0x83 0 (BitVec.ofNat 32 reason)).irq 7

/-- UKIND of a port: 1 wire, 2 reach (R334). -/
def portUkind (q : Nat) : Nat := if Config.isReach q then 2 else 1

/-- The pins of AON's status group are released: a reset input, reference loss or supply loss holds the adapter, or 1 µs
has not passed since the release (R54, R60, R395). -/
def statusReleased (s : State) : Bool :=
  s.held.porst || s.held.wrst || s.held.drst || s.held.refLost || s.held.vddLost || s.held.aonLost
    || decide (s.now < s.resetAt + 1000)

/-- IRQ_N is low: an unmasked cause is set and nothing releases the pin (R54). -/
def irqLow (s : State) : Bool :=
  (List.range 9).any (fun i => bitAt (s.get 0x1001 0x01 0) i && bitAt (s.get 0x1001 0x03 0x1FF) i) && !statusReleased s

/-- SVC_REQ_N is low: a record is OPEN and nothing releases the pin (R54). -/
def svcReqLow (s : State) : Bool := s.svc.any (·.open_) && !statusReleased s

/-! ### Ports -/

/-- Replace the record of a port. -/
def State.setPort (s : State) (q : Nat) (p : Port) : State := { s with ports := setAt q p s.ports }

/-- Change the record of a port. -/
def State.modPort (s : State) (q : Nat) (f : Port → Port) : State := s.setPort q (f (s.port q))

/-- Change one bundle of a wire port. -/
def State.modBundle (s : State) (q b : Nat) (f : Bundle → Bundle) : State :=
  s.modPort q fun p => { p with bundles := setAt b (f (p.bundles.getD b {})) p.bundles }

/-- Change one lane of a reach port. -/
def State.modLane (s : State) (q l : Nat) (f : Lane → Lane) : State :=
  s.modPort q fun p => { p with lanes := setAt l (f (p.lanes.getD l {})) p.lanes }

/-- Raise counter `n` of R421, which wraps at 2⁴⁸ (R422). -/
def obsAdd (n k : Nat) (p : Port) : Port := { p with obs := setAt n ((p.obs.getD n 0 + k) % 2 ^ 48) p.obs }

/-- Raise a 32-bit statistic of a port. -/
def State.pbump (s : State) (base q sub n : Nat) : State := s.bump (base + 256 * q) sub n

/-- Raise a 64-bit statistic of a port. -/
def State.pbump64 (s : State) (base q sub n : Nat) : State := s.bump64 (base + 256 * q) sub n

/-- Index of a reach port's PHY entries: 0 for X0, 1 for X1. -/
def xidx (q : Nat) : Nat := q - 8

/-- Perform an event of a unit that must be elaborated: of one that is not, no event can occur (R362). -/
def onPort (s : State) (q : Nat) (t : State) : Host.Outcome State Fault Refusal :=
  if s.elab_.portBuilt q then .next t else .fault .noSuchUnit

/-- The same for a bundle of a wire port. -/
def onBundle (s : State) (q b : Nat) (t : State) : Host.Outcome State Fault Refusal :=
  if s.elab_.portBuilt q && decide (q < 8) && decide (b < s.elab_.units q) then .next t
  else .fault .noSuchUnit

/-- The same for a lane of a reach port. -/
def onLane (s : State) (q l : Nat) (t : State) : Host.Outcome State Fault Refusal :=
  if s.elab_.portBuilt q && decide (8 ≤ q) && decide (l < s.elab_.units q) then .next t
  else .fault .noSuchUnit

/-- The states that IDLE may refine: only ACTIVE has the power state IDLE (R141). -/
def enterState (p : Port) (st : LinkState) (now : Nat) : Port :=
  { p with state := st, idle := false,
           activeAt := if st = .active then now else p.activeAt,
           holdAt := if st = .hold ∨ st = .fault then now else p.holdAt,
           holdNoticed := if st = .hold ∨ st = .fault then false else p.holdNoticed,
           idleAt := now,
           rstf := if st = .active then false else p.rstf }

/-- Move a port to a link state: PORT_STATE is sent on EVT in the cc of the transition (R40, R141), trace sees
it (R424), and HOLD and FAULT entries are counted (R151, R150). -/
def State.goto (s : State) (q : Nat) (st : LinkState) : State :=
  let old := (s.port q).state
  let s := s.modPort q fun p => enterState p st s.now
  let s := s.evt 0x85 0 (BitVec.ofNat 32 (q + 16 * st.code))
  let s := s.tev 6 q 0 false (BitVec.ofNat 64 (old.code + 16 * st.code))
  match st with
  | .hold => s.pbump 0x5002 q 0x08 1
  | .fault => s.pbump 0x5002 q 0x0A 1
  | .active =>
    if s.get 0xD000 0x05 0 = 0 then s.put 0xD000 0x05 0 (min (s.now - s.resetAt) 0xFFFFFFFF) else s
  | _ => s

/-! ### Tenancy -/

/-- The tenancy is DRAINING or QUIESCED (R298). -/
def quiesced (s : State) (t : Ten) : Bool := tenState s t.toNat != 0

/-! ### Completions and the IFI -/

/-- Count a completion status at the adapter that forms its head (R227). -/
def State.countStatus (s : State) (st : BitVec 8) : State := s.bumpCount st.toNat 1

/-- Put a transaction into the egress buffer of an IFI channel (R36). -/
def State.toIfi (s : State) (ch : EgCh) (t : Txn) : State :=
  { s with egress := s.egress ++ [(ch, { txn := t })] }

/-- The source-form head a requester sees: RQID in TAG and SPORT, SPKG and SDIE reserved (R208). -/
def sourceForm (t : Txn) (rqid : BitVec 16) : Txn :=
  { t with tag := rqid.extractLsb' 0 12, sport := rqid.extractLsb' 12 4, spkg := 0, sdie := 0 }

/-- The channel of a completion: IFI-MSG for a message, else IFI-RSP (R226). -/
def cplChannel (opc : BitVec 8) : EgCh := if opc == 0x20 then .msg else .rsp

end Sys2Proof.Machine
end

