-- ==== Sys2Proof/Machine/LinkOps.lean ====
section
/-!
DEFINITION. Changes of link state shared by the PHY, training and recovery commands: the order of strength of the events
of one cc (R143), the codes and training messages that are sent (R71, R74, R98), entry to OFF, DETECT, TRAIN, RETRAIN,
HOLD and FAULT (R142, R145–R156, R168), and a twin unit leaving its pair (R319).
-/

namespace Sys2Proof.Machine
open Sys2Proof

/-- The supervisor has started (R405) and runs (`sup_state` 1 or 2); during an outage ports that need it wait
(R385). -/
def supRuns (s : State) : Bool := (s.sup.state == 1 || s.sup.state == 2) && !s.sup.boot

/-- The port runs in mode FW_UCIE (R346). -/
def ucieMode (s : State) (q : Nat) : Bool := s.get (0xC200 + 16 * q) 0x01 0 == 2

/-! ### Class V entries of a port (R401, R404) -/

/-- Class V fields of a port at their defaults. -/
def clearVFields (p : Port) : Port :=
  { p with mask := 0, width := 0, loop := 0,
           bundles := p.bundles.map fun b => { b with state := 0, proposal := 0 },
           lanes := p.lanes.map fun l => { l with state := 0 } }

/-- Stored class V entries of a port, as index and subindex. -/
def vEntriesOf (q : Nat) : List (Nat × Nat) :=
  (if Config.isReach q then [(0x4000 + 256 * xidx q, 0x0B)]
   else [(0x3000 + 256 * q, 0x03), (0x3000 + 256 * q, 0x06)])
    ++ (List.range 6).map (fun i => (0xC100 + 16 * q, i + 1)) ++ [(0xC200 + 16 * q, 0x03)]

/-- The class V entries of a port return to their defaults. -/
def State.clearV (s : State) (q : Nat) : State :=
  { (s.modPort q clearVFields) with
    alm := (vEntriesOf q).foldl (fun m e => mdel m (ekey e.1 e.2)) s.alm }

/-! ### The order of strength (R143) -/

/-- A stronger event has acted on the port in this cc: PARTNER_LOST is 2, a reset-hello 3, a cause of LINK_FULL 4, a cause
of LINK_RETRAIN 5. -/
def outranked (s : State) (q rank : Nat) : Bool :=
  match (s.port q).struck with
  | some (t, r) => t == s.now && decide (r < rank)
  | none => false

/-- An event of this cc weaker than the given rank has acted on the port. -/
def struckWeaker (s : State) (q rank : Nat) : Bool :=
  match (s.port q).struck with
  | some (t, r) => t == s.now && decide (rank < r)
  | none => false

/-- An event of a rank acts on the port in this cc. -/
def State.strike (s : State) (q rank : Nat) : State := s.modPort q fun p => { p with struck := some (s.now, rank) }

/-! ### What is sent on TRK and in CCTL (R71, R74, R98) -/

/-- A code waits for the next TRK words or codeword of a port; a parked transmitter sends none (R154). -/
def State.sendCode (s : State) (q : Nat) (bundle : Option Nat) (code arg : Nat) : State :=
  if (s.port q).pllPark then s else s.modPort q fun p => { p with codes := p.codes ++ [⟨bundle, code, arg⟩] }

/-- Content of a training message (R74): TMT, TBODY and TCRC. -/
def trainMessage (tmt body : Nat) (tcrc : Bool) : BitVec 31 :=
  BitVec.ofNat 31 (field tmt 0 4 + field body 4 20 + field (b2n tcrc) 24 1)

/-- A bundle with a further training message to repeat. -/
def queueMsg (now : Nat) (m : BitVec 31) (b : Bundle) : Bundle :=
  { b with msgs := b.msgs ++ [m], msgAt := if b.msgs.isEmpty then now else b.msgAt }

/-- Send a training message on some bundles of a port (R74). -/
def State.sendTrain (s : State) (q : Nat) (bs : List Nat) (m : BitVec 31) : State :=
  bs.foldl (fun s b => s.modBundle q b (queueMsg s.now m)) s

/-- Send a PARAM message (R137). -/
def State.sendParam (s : State) (q : Nat) (m : ParamMsg) : State :=
  (s.modPort q fun p =>
    { p with params := p.params ++ [m], paramAt := if p.params.isEmpty then s.now else p.paramAt }).emit (.param q m)

/-! ### Who takes part (R77) -/

/-- The port trains in RETRAIN, or in the fast form, so only the bundles of the last mask take part (R77). -/
def usesLastMask (p : Port) : Bool := p.fast || p.state == .retrain

/-- Bundle `b` takes part in the training in progress and is not excluded (R77). -/
def inPlay (p : Port) (b : Nat) : Bool :=
  let st := (p.bundles.getD b {}).state
  decide (b < p.bundles.length) && decide (st < 2) && (!usesLastMask p || bitAt p.lastMask b)

/-- Bundles that take part. -/
def bundlesInPlay (p : Port) : List Nat := (List.range p.bundles.length).filter (inPlay p)

/-! ### Link layer stop (R168) -/

/-- Timers stopped, a NAK owed cleared, a sleep handshake dropped; flits in the receive pipeline are discarded (R151) and
those that wait for a slot stay in the replay buffer only. Of the codes the requests of R146 still go out. Buffers,
sequence, credit state and replay counts are kept. -/
def haltFields (p : Port) : Port :=
  { p with replayPtr := none, ackAt := none, nakOwed := false, nakSent := false,
           nakOver := false, rplySeen := false, slotsIn := [], cwHalf := none, txSlots := [], sleepReq := none,
           sleepTo := none, wakeAt := none, waker := false, wakeHeld := false, toDormant := false,
           codes := p.codes.filter fun c => c.code == 6 || c.code == 7,
           readyAt := List.replicate 16 none }

/-- The stop on leaving ACTIVE or RETRAIN, or on entry to HOLD: every replay count is 0 as well. -/
def stopFields (p : Port) : Port := { haltFields p with replayCnt := 0 }

/-- The sibling of a unit is merged, so that the pair carries its traffic without this unit. -/
def siblingMerged (s : State) (q : Nat) : Bool :=
  match pairOf s q, sibling s q with
  | some k, some b => (roleOf s k b).merged
  | _, _ => false

/-- Change a pair. -/
def State.modPair (s : State) (k : Nat) (f : Pair → Pair) : State :=
  { s with twins := setAt k (f (s.twins.getD k {})) s.twins }

/-- Set the role of a unit. -/
def setRole (s : State) (k q : Nat) (r : Role) : State :=
  s.modPair k fun pr => if pairA s k = q then { pr with roleA := r } else { pr with roleB := r }

/-- A unit becomes OUT; when it was ACTIVE and the sibling is merged, the sibling becomes ACTIVE and a
switchover is counted (R319). -/
def leavePair (s : State) (q : Nat) : State :=
  match pairOf s q, sibling s q with
  | some k, some b =>
    let old := roleOf s k q
    let s := setRole s k q .out
    let s := s.modPair k fun pr =>
      if pairA s k = q then { pr with outA := s.now, readyA := false }
      else { pr with outB := s.now, readyB := false }
    if old = .active ∧ (roleOf s k b).merged then
      (setRole s k b .active).bump (0xB300 + 16 * k) 0x03 1
    else s
  | _, _ => s

/-- Apply a stop to the link layer of a port, unless the pair goes on without this unit. -/
def stopWith (f : Port → Port) (s : State) (q : Nat) : State :=
  if siblingMerged s q then
    s.modPort q fun p =>
      { p with slotsIn := [], sleepReq := none, sleepTo := none, wakeAt := none, waker := false, wakeHeld := false,
               codes := p.codes.filter fun c => c.code == 6 || c.code == 7 }
  else
    let l := logical s q
    let s := s.modPort l f
    if l = q then s else s.modPort q f

/-- Stop the link layer of a port with its replay counts at 0. -/
def stopLink (s : State) (q : Nat) : State := stopWith stopFields s q

/-- Stop the link layer of a port that enters FAULT or OFF: its replay counts are kept (R168). -/
def haltLink (s : State) (q : Nat) : State := stopWith haltFields s q

/-! ### Entries to link states -/

/-- A reset input, or a loss of reference or supply, holds the adapter (R46, R48, R395). -/
def inReset (s : State) : Bool :=
  s.held.porst || s.held.wrst || s.held.drst || s.held.refLost || s.held.vddLost || s.held.aonLost

/-- A wake cause reaches a stopped CORE outside reset: AON starts the core PLL (R391). -/
def startCore (s : State) : State :=
  if s.core = .stopped ∧ !inReset s then { s with core := .starting, coreAt := s.now } else s

/-- A port in NAP or DORMANT starts to wake (R88, R89, R109); `own` when the cause is this side's, which then drives the
wake pattern of a napping port. A cause that comes during a sleep handshake is held until entry (R90). -/
def startWake (own : Bool) (s : State) (q : Nat) : State :=
  let p := s.port q
  if (p.state = .nap ∨ p.state = .dormant) ∧ p.wakeAt = none then
    (startCore (s.modPort q fun p => { p with wakeAt := some s.now, waker := own, loops := [] })).bump (0xD100 + 16 * q) 0x05 1
  else if p.state = .active ∧ (p.sleepReq.isSome ∨ p.sleepTo.isSome) then s.modPort q fun p => { p with wakeHeld := true }
  else s

/-- A wake cause reaches a port: it wakes, and with it its twin sibling (R398, R399). -/
def wakePort (s : State) (q : Nat) : State :=
  let s := startWake true s q
  match sibling s q with
  | some b => startWake true s b
  | none => s

/-- The partner wakes a port, which follows its column of R88, R89 or R109; a twin sibling wakes with it (R398). -/
def answerWake (s : State) (q : Nat) : State :=
  let s := startWake false s q
  match sibling s q with
  | some b => startWake true s b
  | none => s

/-- FAULT (R150): counted, interrupt, service record. -/
def enterFault (s : State) (q : Nat) : State :=
  let s := (haltLink s q).modPort q fun p => { p with codes := [], params := [], pllPark := false }
  let s := s.goto q .fault
  (s.irq 2).service 0x14 (portUkind q) q 0 (s.get (0x5002 + 256 * q) 0x06 0)

/-- A bundle at the start of detection. -/
def detectBundle (b : Bundle) : Bundle :=
  { b with state := 0, hello := none, twice := false, lost := false, told := false, msgs := [], swaps := [] }

/-- Fields of a port at the start of detection. A lane loss recorded in HOLD stays until the next training (R107). -/
def detectFields (q now : Nat) (p : Port) : Port :=
  { p with step := if Config.isReach q then .xd1 else .d1, fast := false, fastOk := false,
           doneSent := false, doneRcvd := false, partnerHello := false, partnerRdy := false,
           pll := if Config.isReach q then p.pll else false, trainAt := now, stepAt := now, lossAt := none,
           gatherAt := none, firstHello := none, rxLanes := [], txLanes := [], once := [], params := [],
           retained := none, pllPark := false, loops := [], param := { rxclr := p.param.rxclr },
           bundles := p.bundles.map detectBundle,
           lanes := p.lanes.map fun l => { l with pass := true } }

/-- DETECT: hello frames or training frames begin (R70, R99, R142). -/
def enterDetect (s : State) (q : Nat) : State :=
  let s := stopLink s q
  (s.modPort q (detectFields q s.now)).goto q .detect

/-- A bundle at T1: of the messages still to be repeated only an ABORT goes on (R74, R80). -/
def attemptBundle (b : Bundle) : Bundle :=
  { b with state := if b.state = 3 ∨ b.state = 4 then b.state else 0, mapAcked := false, t3bad := [], swaps := [],
           txMap := 0, txCrc := false, lost := false, told := false, errs := [], lastUi := none,
           msgs := b.msgs.filter fun m => m.extractLsb' 0 4 == 5 }

/-- A lane at XT1: a loss held over from HOLD excludes it now (R107). -/
def attemptLane (l : Lane) : Lane :=
  { l with pass := !l.lost, lost := false, state := if l.lost then 4 else 0, eqs := 0 }

/-- Fields of a port at T1 or XT1. -/
def attemptFields (q now : Nat) (fast fromDetect : Bool) (p : Port) : Port :=
  { p with step := if Config.isReach q then .xt1 else .t1, fast := fast, fastOk := false,
           doneSent := false, doneRcvd := false, trainAt := if fromDetect then p.trainAt else now, stepAt := now,
           loops := [], partnerLoop := 0, partnerMin := 16, lossAt := none, gatherAt := none,
           rxLanes := [], txLanes := [], once := p.once.filter fun f => f.abort != 0,
           params := p.params.filter fun m => m.pmt == 4, retained := none,
           cwHalf := none, cwBad := 0, param := { rxclr := p.param.rxclr },
           bundles := p.bundles.map attemptBundle, lanes := p.lanes.map attemptLane }

/-- A side that begins an attempt says in TRAIN_START whether it can train fast (R74, R76); a reach port says so with RDY
in XT1 (R101). -/
def sendStart (s : State) (q : Nat) : State :=
  s.sendTrain q (bundlesInPlay (s.port q)) (trainMessage 1 (b2n (s.port q).fast) false)

/-- A training attempt begins (R149): TA rises, or the port enters FAULT when TA is at the limit. -/
def beginAttempt (s : State) (q : Nat) (fast : Bool) : State :=
  let p := s.port q
  if s.pget 0x5002 q 0x02 4 ≤ p.ta then enterFault s q
  else
    let fromDetect := p.state == .detect
    let s := stopLink s q
    let s := s.modPort q fun p => { attemptFields q s.now fast fromDetect p with ta := p.ta + 1 }
    let s := s.goto q .train
    if Config.isReach q then s.bump (0x4000 + 256 * xidx q) 0x0A 1
    else sendStart (s.bump (0x3000 + 256 * q) 0x04 1) q

/-- Fast training is possible on this side: its PLL is locked and it holds results, on a reach port equaliser results of
every lane last in use (R76, R101). -/
def fastPossible (s : State) (q : Nat) : Bool :=
  let p := s.port q
  p.pll && p.trained && p.lastLanes.1.all fun l => (p.lanes.getD l {}).eq.length == 16

/-- A twin unit leaves a pair whose sibling stays merged, and trains on its own (R319). -/
def unitLeaves (s : State) (q : Nat) : State :=
  let s := (leavePair s q).clearV q
  if fastPossible s q then beginAttempt s q true else enterDetect s q

/-- The request that a side sends with its own LINK_FULL or retrain (R146). -/
def sendRequest (s : State) (q : Nat) (full : Bool) : State := s.sendCode q none (if full then 6 else 7) 0

/-- A LINK_FULL of a port (R142, R145, R401): counted with its cause, class V cleared, TRAIN when fast
training is possible, otherwise DETECT. `fullOnly` asks for full training (reset-hello, HOLD, FAULT). -/
def linkFull (s : State) (q cause : Nat) (own fullOnly : Bool) : State :=
  let s := (s.put (0x5002 + 256 * q) 0x05 0 cause).pbump 0x5002 q 0x07 1
  let s := if own then sendRequest s q true else s
  let s := (leavePair s q).clearV q
  if fastPossible s q ∧ !fullOnly then beginAttempt s q true else enterDetect s q

/-- The retrain that a weaker event of this cc began is as if it had not begun (R143). -/
def dropRetrain (s : State) (q : Nat) : State :=
  if (s.port q).state = .retrain ∧ struckWeaker s q 4 then
    s.modPort q fun p => { p with ra := p.ra - 1, codes := p.codes.filter fun c => c.code != 7 }
  else s

/-- A cause of LINK_FULL reaches a port: it acts in ACTIVE and RETRAIN only (R142), unless a stronger event has acted in
this cc (R143) or the port is parked after a loss of its PLL (R154). -/
def requestFull (s : State) (q cause : Nat) (own : Bool) : State :=
  if outranked s q 4 ∨ (s.port q).pllPark then s
  else match (s.port q).state with
    | .active => linkFull (s.strike q 4) q cause own false
    | .retrain => linkFull ((dropRetrain s q).strike q 4) q cause own false
    | _ => s

/-- Fields of a port at entry to RETRAIN or at a new attempt in it (R148): the flit at O then, if U was not 0. -/
def retrainFields (q now : Nat) (fast : Bool) (mark : Option Fseq) (p : Port) : Port :=
  { attemptFields q now fast false p with ra := p.ra + 1, raMark := mark }

/-- A retrain would begin: RA rises, or the port enters FAULT when RA is at the limit (R148). -/
def beginRetrain (s : State) (q : Nat) (own : Bool) : State :=
  if s.pget 0x5002 q 0x01 3 ≤ (s.port q).ra then enterFault s q
  else
    let s := if own then sendRequest s q false else s
    let l := s.port (logical s q)
    let mark := if l.replay.isEmpty then none else some l.o
    let s := (stopLink (leavePair s q) q).clearV q
    let s := s.modPort q (retrainFields q s.now (fastPossible s q) mark)
    sendStart (s.goto q .retrain) q

/-- A cause of LINK_RETRAIN reaches a port: it acts in ACTIVE only (R142), unless a stronger event has acted in this cc
(R143) or the port is parked (R154). A twin unit whose sibling is merged leaves the pair instead (R319). -/
def requestRetrain (s : State) (q : Nat) (own : Bool) : State :=
  if (s.port q).state = .active ∧ !outranked s q 5 ∧ !(s.port q).pllPark then
    let s := (s.pbump 0x5001 (logical s q) 0x12 1).strike q 5
    if siblingMerged s q then unitLeaves s q else beginRetrain s q own
  else s

/-- The retrain in progress fails (R142): a new attempt within the limit, otherwise FAULT. -/
def retrainFails (s : State) (q : Nat) : State :=
  if s.pget 0x5002 q 0x01 3 ≤ (s.port q).ra then enterFault s q
  else
    let s := s.modPort q fun p => retrainFields q s.now (fastPossible s q) p.raMark p
    sendStart (s.goto q .retrain) q

/-- A training or PARAM attempt fails with a reason (R80, R142): a new attempt within the limit. -/
def attemptFails (s : State) (q reason : Nat) : State :=
  if (s.port q).pllPark then s
  else
  let s := (s.put (0x5002 + 256 * q) 0x06 0 reason).strike q 5
  match (s.port q).state with
  | .train => beginAttempt s q (fastPossible s q)
  | .align => beginAttempt s q (fastPossible s q)
  | .param => beginAttempt s q (fastPossible s q)
  | .retrain => retrainFails s q
  | _ => s

/-- Fields of a port that enters HOLD on a lost partner: its detectors start again (R72, R73). -/
def holdFields (p : Port) : Port :=
  { p with lossAt := none, pllPark := false,
           bundles := p.bundles.map fun b => { b with lost := false, told := false },
           lanes := p.lanes.map fun l => { l with lost := false } }

/-- PARTNER_LOST acts in this link state (R142), or in the one that a weaker event of this cc has brought about (R143,
R169). -/
def canLosePartner (s : State) (q : Nat) : Bool :=
  match (s.port q).state with
  | .active | .retrain | .train | .align | .param => true
  | .nap | .dormant => (s.port q).wakeAt.isSome
  | .detect | .fault => struckWeaker s q 2
  | _ => false

/-- PARTNER_LOST (R142, R73, R105): HOLD from the states that can report it; a twin unit with a merged sibling
trains instead (R319). -/
def partnerLost (s : State) (q : Nat) : State :=
  if !canLosePartner s q then s
  else
    let s := s.strike q 2
    if siblingMerged s q then unitLeaves s q
    else ((stopLink (leavePair s q) q).modPort q holdFields).goto q .hold

/-- Fields of a port in OFF: RA and TA 0, PLL off, nothing sent (R168, R396). -/
def offFields (p : Port) : Port :=
  { p with ra := 0, ta := 0, pll := false, step := .idle, retained := none, pllPark := false,
           partnerHello := false, partnerRdy := false, lossAt := none, codes := [], once := [], params := [],
           txSplit := none, bundles := p.bundles.map fun b => { b with msgs := [] } }

/-- OFF: pins parked, class V cleared, held traffic stays held (R142, R168, R401). -/
def enterOff (s : State) (q : Nat) : State :=
  let s := leavePair s q
  let s := (haltLink s q).clearV q
  (s.modPort q offFields).goto q .off

/-- A port may leave OFF: enabled, supplied, not held by a test, out of reset, with a legal role on a site that
has not retired (R50, R59, R142, R329, R412). -/
def mayLeaveOff (s : State) (q : Nat) : Bool :=
  let p := s.port q
  s.elab_.portBuilt q && p.supply && !p.testHeld && s.pget 0x5000 q 0x09 1 == 1
    && decide (s.strapRole.toNat < 6) && aliasState s != 1
    && !inReset s
    && s.core == .running && supRuns s

/-- A port in OFF that may leave it enters DETECT (R142). -/
def leaveOff (s : State) (q : Nat) : State :=
  if (s.port q).state = .off ∧ mayLeaveOff s q then enterDetect s q else s

/-- A reset-hello is accepted (R142, R155), unless PARTNER_LOST has acted in this cc (R143) or the port is parked (R154).
From FAULT both attempt counts return to 0 (R168). -/
def acceptResetHello (s : State) (q : Nat) : State :=
  if outranked s q 3 ∨ (s.port q).pllPark then s
  else
    let s := (s.pbump 0x5002 q 0x0C 1).strike q 3
    match (s.port q).state with
    | .active | .retrain | .hold | .nap | .dormant => linkFull s q 7 false true
    | .fault => linkFull (s.modPort q fun p => { p with ra := 0, ta := 0 }) q 7 false true
    | .train | .align | .param =>
      -- The attempt is abandoned and detection begins again; TA does not rise.
      enterDetect s q
    | _ => s

/-- A partner hello with RSTF = 0 is accepted in HOLD (R142, R156). -/
def acceptHoldHello (s : State) (q : Nat) : State :=
  if (s.port q).state = .hold ∧ !outranked s q 3 then linkFull s q 8 false true else s

end Sys2Proof.Machine
end

