-- ==== Sys2Proof/Machine/Route.lean ====
section
/-!
DEFINITION. What every transaction shares: the places where it waits, destination lookup (R220, R229, R232),
the port it takes (R22, R341), the features it needs (R338, R340), and the completions an adapter forms (R226,
R227, R444).
-/

namespace Sys2Proof.Machine
open Sys2Proof

/-! ### Places -/

/-- Change or remove the `k`-th element that satisfies a test. -/
def modNth {α : Type} (chosen : α → Bool) (change : α → Option α) (place : Nat) : List α → List α
  | [] => []
  | x :: later =>
    match chosen x, place with
    | true, 0 => (change x).toList ++ later
    | true, fewer + 1 => x :: modNth chosen change fewer later
    | false, _ => x :: modNth chosen change place later

/-- Cells that a transaction occupies in an IFI buffer: an SCH payload has no head cell (R178), and one of the park
store occupies none (R304). -/
def ingCells (ch : IngCh) (w : Waiting) : Nat :=
  if w.parked then 0 else if ch = .sch then w.txn.data.length else w.txn.size

/-- Position of an ingress channel in the credit lists. -/
def ingIdx : IngCh → Nat
  | .req => 0 | .inr => 1 | .snp => 2 | .msg => 3 | .sch => 4 | .red => 5

/-- Position of an egress channel in the credit lists. -/
def egIdx : EgCh → Nat
  | .rsp => 0 | .inb => 1 | .snp => 2 | .msg => 3 | .sch => 4 | .red => 5

/-- Raise an element of a list of counts. -/
def addAt (i n : Nat) (xs : List Nat) : List Nat := setAt i (xs.getD i 0 + n) xs

/-- Credits of cells that leave an ingress buffer go back to the die (R36). -/
def State.creditDie (s : State) (ch : IngCh) (n : Nat) : State :=
  if n = 0 then s else { s with icr := addAt (ingIdx ch) n s.icr }.emit (.ifiCredit ch n)

/-- Credits of cells that leave the receive buffer of a port become pending returns (R132); none while the port has given up
its receive direction (R162). -/
def State.creditLink (s : State) (q v n : Nat) : State :=
  s.modPort (logical s q) fun p => if p.param.rxclr then p else { p with pend := addAt v n p.pend }

/-- The transaction at a place. -/
def atPlace (s : State) : Place → Option Waiting
  | .ifi ch k => ((s.ingress.filter (·.1 == ch))[k]?).map (·.2)
  | .rx q k => (s.port (logical s q)).rx[k]?
  | .own k => s.ownQ[k]?

/-- Replace the transaction at a place. -/
def putAt (s : State) (pl : Place) (w : Waiting) : State :=
  match pl with
  | .ifi ch k => { s with ingress := modNth (·.1 == ch) (fun x => some (x.1, w)) k s.ingress }
  | .rx q k => s.modPort (logical s q) fun p => { p with rx := setAt k w p.rx }
  | .own k => { s with ownQ := setAt k w s.ownQ }

/-- Take the transaction out of a place; its credits return (R36, R132). -/
def takeAt (s : State) (pl : Place) : State :=
  match atPlace s pl with
  | none => s
  | some w =>
    match pl with
    | .ifi ch k =>
      ({ s with ingress := modNth (·.1 == ch) (fun _ => none) k s.ingress }).creditDie ch (ingCells ch w)
    | .rx q k =>
      (s.modPort (logical s q) fun p => { p with rx := dropAt k p.rx }).creditLink q w.vc w.txn.size
    | .own k => { s with ownQ := dropAt k s.ownQ }

/-- The transactions ahead of a place in its buffer. -/
def aheadAt (s : State) : Place → List Waiting
  | .ifi ch k => ((s.ingress.filter (·.1 == ch)).take k).map (·.2)
  | .rx q k => (s.port (logical s q)).rx.take k
  | .own k => s.ownQ.take k

/-- The place is a buffer of the own die. -/
def placeIsIfi : Place → Bool
  | .ifi _ _ => true
  | _ => false

/-! ### Destination lookup -/

/-- Where a transaction goes next: to this die, out through a port of a route entry, or nowhere. -/
inductive Dest where
  | self
  | via (ports : List Nat)
  | bad (status : BitVec 8)
deriving DecidableEq, Repr

/-- A route entry (R220); an invalid one gives NO_ROUTE. -/
def entryDest (e : Nat) : Dest :=
  if routeSelf e then .self else if routePref e = 15 then .bad 0x10 else .via (routePorts e)

/-- Routing by package first (R220). -/
def inPkg (s : State) (pkg : Pkg) (inner : Dest) : Dest :=
  let e := pkgRoute s pkg.toNat
  if routeSelf e then inner else entryDest e

/-- The die route of a DIE value. -/
def dieDest (s : State) (d : Nat) : Dest := entryDest (dieRoute s d)

/-- The QDIE of the range that holds a QID (R229). -/
def queueDie (s : State) (qid : Nat) : Option Nat :=
  ((s.rows 0x7000 0x06).find? fun r =>
    bitsOf r 20 21 != 0 && decide (bitsOf r 0 20 ≤ qid) && decide (qid < bitsOf r 0 20 + bitsOf r 20 21)).map
    fun r => bitsOf r 41 8

/-- The SDIE of the range that holds a SID (R232). -/
def semDie (s : State) (sid : Nat) : Option Nat :=
  ((s.rows 0x7000 0x07).find? fun r =>
    bitsOf r 16 17 != 0 && decide (bitsOf r 0 16 ≤ sid) && decide (sid < bitsOf r 0 16 + bitsOf r 16 17)).map
    fun r => bitsOf r 33 8

/-- The opcode goes by LA to the home (R251). -/
def toHome (opc : BitVec 8) : Bool := isCohReq opc || opc == 0x46 || opc == 0x58 || opc == 0x59

/-- Package and die of a transaction's destination; no die when its table has no entry, with the status. -/
def destPair (s : State) (t : Txn) : Pkg × Except (BitVec 8) Nat :=
  match t.head with
  | .mem _ _ _ g => (gpaPkg g, .ok (gpaDie g).toNat)
  | .msg _ _ _ dpkg qid => (dpkg, match queueDie s qid.toNat with | some d => .ok d | none => .error 0x12)
  | .sync _ dpkg sid _ => (dpkg, match semDie s sid.toNat with | some d => .ok d | none => .error 0x13)
  | .cpl .. => (t.spkg, .ok t.sdie.toNat)
  | .coh _ _ _ _ _ _ la =>
    if toHome t.opc then (laPkg la, .ok (laDie la).toNat)
    else if isSnoop t.opc then
      let c := t.data.getD 0 0
      (c.extractLsb' 0 12, .ok (c.extractLsb' 12 8).toNat)
    else (t.spkg, .ok t.sdie.toNat)
  | .blk _ _ _ _ _ _ _ dpkg ddie => (dpkg, .ok ddie.toNat)
  | .mgmt _ dpkg ddie _ _ _ _ => (dpkg, .ok ddie.toNat)
  | _ => (BitVec.ofNat 12 (ownPkg s), .error 0x10)

/-- Destination lookup of step 7 of R219. -/
def destOf (s : State) (t : Txn) : Dest :=
  match destPair s t with
  | (pkg, .ok d) => inPkg s pkg (dieDest s d)
  | (pkg, .error st) => inPkg s pkg (.bad st)

/-! ### Ports of a route -/

/-- A unit carries flits: ACTIVE, and its pins are not parked for the loss of its PLL (R154). -/
def unitUp (s : State) (q : Nat) : Bool := (s.port q).state == .active && !(s.port q).pllPark

/-- The port carries flits now: it does itself, or a merged unit of its pair does. -/
def linkUp (s : State) (q : Nat) : Bool :=
  match pairOf s q with
  | some k =>
    (unitUp s (pairA s k) && (roleOf s k (pairA s k)).merged)
      || (unitUp s (pairB s k) && (roleOf s k (pairB s k)).merged)
  | none => unitUp s q

/-- A unit may send new work: it is up and no sleep has been agreed (R87). -/
def unitSends (s : State) (q : Nat) : Bool := unitUp s q && (s.port q).sleepTo.isNone

/-- The same for the link of a port, single or pair. -/
def linkSends (s : State) (q : Nat) : Bool :=
  match pairOf s q with
  | some k =>
    (unitSends s (pairA s k) && (roleOf s k (pairA s k)).merged)
      || (unitSends s (pairB s k) && (roleOf s k (pairB s k)).merged)
  | none => unitSends s q

/-- Without FWD at the partner, a port serves only the partner's own DIE (R341). -/
def forwardsFor (s : State) (t : Txn) (q : Nat) : Bool :=
  let p := s.port (logical s q)
  bitAt p.feat 12
    || (match destPair s t with
        | (pkg, .ok d) => routeSelf (pkgRoute s pkg.toNat) && d == p.partnerDie.toNat
        | _ => false)

/-- The port a waiting transaction takes now: the preferred one, then the alternates (R22). -/
def choosePort (s : State) (w : Waiting) : Option Nat :=
  (w.route.find? fun q => usable s q && forwardsFor s w.txn q).map (logical s)

/-- A transaction that has been routed waits for this port (step 10 of R219, R397). -/
def waitsFor (s : State) (q : Nat) (w : Waiting) : Bool := w.step == 9 && choosePort s w == some q

/-- Some transaction waits for the port. -/
def anyWaits (s : State) (q : Nat) : Bool :=
  s.ingress.any (fun (_, w) => waitsFor s q w) || s.ports.any fun p => (p.rx ++ p.waitq).any (waitsFor s q)

/-- The port is treated as a firewall port (R347). -/
def isFwPort (s : State) (q : Nat) : Bool :=
  let m := s.get (0xC200 + 16 * q) 0x01 0
  decide (q < 8)
    && (m == 1 || m == 2 || (m == 0 && s.elab_.firewall && s.strapRole == 3 && (s.port q).partnerRole == 5))

/-- The VC10–VC15 assigned to a tenancy (R300). -/
def assignedVc (s : State) (t : Ten) : Option Nat :=
  ((List.range 6).find? fun i =>
    let r := (s.rows 0xA000 0x01).getD i 0
    bitAt r 8 && bitsOf r 0 8 == t.toNat).map (10 + ·)

/-- The VC of a transaction on a link (R213, R214). -/
def outVc (s : State) (t : Txn) : Nat :=
  if isMem t.opc || t.opc == 0x20 then (assignedVc s t.ten).getD (vcOf t.opc) else vcOf t.opc

/-- The feature bit an opcode needs (R338). -/
def featBit (opc : BitVec 8) : Nat :=
  if opc == 0x03 then 1 else if isAtomic opc then 2 else if opc == 0x20 || opc == 0x21 then 3
  else if isSync opc then 4 else if decide (0x40 ≤ opc.toNat) && decide (opc.toNat < 0x60) then 5
  else if decide (0x60 ≤ opc.toNat) && decide (opc.toNat < 0x70) then 6
  else if decide (0x70 ≤ opc.toNat) && decide (opc.toNat < 0x80) then 7 else 0

/-- The agreed features of a port cover a transaction (R340). -/
def featuresCover (s : State) (q : Nat) (t : Txn) : Bool :=
  let f := (s.port (logical s q)).feat
  bitAt f (featBit t.opc) && (outVc s t < 10 || bitAt f 11)

/-- Opcodes that no completion answers: coherence messages that are no request, and reduction blocks. -/
def isPosted (opc : BitVec 8) : Bool :=
  isSnoop opc || opc == 0x46 || opc == 0x48 || opc == 0x49 || opc == 0x58 || opc == 0x59 || opc == 0x5C
    || opc == 0x5D || opc == 0x44 || opc == 0x45 || isRed opc || opc == 0x80 || opc == 0x21

/-! ### Transactions the adapter forms -/

/-- Give out the next acceptance number. -/
def State.bumpSeq (s : State) : State := { s with seqNo := s.seqNo + 1 }

/-- Queue a routed transaction of the adapter itself at the port its route prefers. -/
def queueOut (s : State) (route : List Nat) (w : Waiting) : State :=
  let q := logical s (route.headD 0)
  (s.modPort q fun p => { p with waitq := p.waitq ++ [{ w with step := 9, route := route, at_ := s.now, seq := s.seqNo }] }).bumpSeq

/-- Hand a transaction to the own receive path (R444): it stands at step 13 until the hand-over of the next cc. -/
def handOver (s : State) (t : Txn) : State :=
  State.bumpSeq { s with ownQ := s.ownQ ++ [{ txn := t, seq := s.seqNo, at_ := s.now, step := 13 }] }

/-- Send a transaction that the adapter forms: to the own receive path, or out on a port of its route (R444).
One without a route is not sent, and nothing answers it (log entry 22). -/
def sendOut (s : State) (t : Txn) : State :=
  match destOf s t with
  | .self => handOver s t
  | .via ports => queueOut s ports { txn := t }
  | .bad _ => s

/-- A transaction that entered on the IFI goes on in another form from its place, where it keeps its credit until it is
committed (R152); the credits of cells that it no longer has return. -/
def carryAt (s : State) (pl : Place) (w : Waiting) (t : Txn) : State :=
  match destOf s t with
  | .self => handOver (takeAt s pl) t
  | .via ports =>
    let w' := { w with txn := t, step := 9, route := ports }
    match pl with
    | .ifi ch _ => (putAt s pl w').creditDie ch (ingCells ch w - ingCells ch w')
    | _ => putAt s pl w'
  | .bad _ => takeAt s pl

/-- Complete a request toward its source over the link (R212, R227). -/
def answerRemote (s : State) (t : Txn) (status : BitVec 8) (rval : BitVec 32) (bytes : List Byte) : State :=
  sendOut (s.countStatus status) (mkCpl t status rval bytes)

/-- A transaction of the own die has completed: later ones ordered behind it may go on (R237). -/
def State.finish (s : State) (seq : Nat) : State := { s with ord := s.ord.filter (·.seq != seq) }

/-- Present a completion in source form to the die (R208, R226); with it, a TAG becomes free (R225). -/
def presentCpl (s : State) (reqOpc : BitVec 8) (rqid : BitVec 16) (t : Txn) (frees : Option (Nat × Nat)) : State :=
  { s with egress := s.egress ++ [(cplChannel reqOpc, { txn := sourceForm t rqid, frees := frees })] }

/-- The source adapter completes a request of its own die without sending it (R219). -/
def answerSource (s : State) (w : Waiting) (status : BitVec 8) (rval : BitVec 32) (bytes : List Byte) : State :=
  let s := (s.countStatus status).finish w.seq
  presentCpl s w.txn.opc w.txn.rqid (mkCpl w.txn status rval bytes) none

/-- Complete the transaction at a place, on the side it came from. -/
def answerAt (s : State) (pl : Place) (w : Waiting) (status : BitVec 8) (rval : BitVec 32)
    (bytes : List Byte) : State :=
  let s := takeAt s pl
  if placeIsIfi pl then answerSource s w status rval bytes else answerRemote s w.txn status rval bytes

/-- Cells that wait in the egress buffer of a channel. -/
def egressUsed (s : State) (ch : EgCh) : Nat :=
  sumNat ((s.egress.filter fun x => x.1 == ch).map fun x => x.2.txn.size - x.2.taken)

/-- Code of an egress channel (R31). -/
def egCode : EgCh → Nat
  | .rsp => 2 | .inb => 3 | .snp => 5 | .msg => 6 | .sch => 7 | .red => 8

/-- The egress buffer of a channel has room for a transaction from a receive buffer (R36); an empty one takes any transaction,
since no other way leads out (log entry 12). -/
def egressRoom (s : State) (ch : EgCh) (n : Nat) : Bool :=
  egressUsed s ch == 0 || decide (egressUsed s ch + n ≤ Config.egressDepth (egCode ch))

/-- Present a request on IFI-INB and remember it until its answer (R218). -/
def presentInb (s : State) (t : Txn) : State := { s.toIfi .inb t with inbOut := s.inbOut ++ [t] }

/-! ### Identifiers -/

/-- The first free key at or after `t`, cyclically (R225). -/
def freeTag {α : Type} (m : NMap α) : (fuel t : Nat) → Option Nat
  | 0, _ => none
  | fuel + 1, t => if (mget m (t % 4096)).isNone then some (t % 4096) else freeTag m fuel (t + 1)

/-- The TAG a port would give out next; port 15 is the local pool (R224, R225). -/
def nextTag (s : State) (q : Nat) : Option Nat :=
  freeTag (tagsOf s q) 4096 (s.get (0x7100 + 16 * q) 0x01 0xFFF + 1)

/-- Enter a TAG as allocated (R225). -/
def State.setTag (s : State) (q t : Nat) (i : TagInfo) : State :=
  let s := s.put (0x7100 + 16 * q) 0x01 0xFFF t
  if q = 15 then { s with localTags := mset s.localTags t i }
  else s.modPort q fun p => { p with tags := mset p.tags t i }

/-- Free a TAG (R225). -/
def State.freeTagAt (s : State) (q t : Nat) : State :=
  if q = 15 then { s with localTags := mdel s.localTags t }
  else s.modPort q fun p => { p with tags := mdel p.tags t }

/-- Free the TAG that a completion frees as it leaves (R225). -/
def freeOf (s : State) (f : Option (Nat × Nat)) : State :=
  match f with
  | some (q, t) => s.freeTagAt q t
  | none => s

/-- The completion of a request leaves toward its source, and a TAG becomes free with it (R225); at once where nothing is
sent on a port. -/
def answerFreeing (s : State) (t : Txn) (status : BitVec 8) (bytes : List Byte) (f : Option (Nat × Nat)) : State :=
  let c := mkCpl t status 0 bytes
  let s := s.countStatus status
  match destOf s c with
  | .via ports => queueOut s ports { txn := c, frees := f }
  | _ => freeOf (sendOut s c) f

end Sys2Proof.Machine
end

