-- ==== Sys2Proof/Machine/Training.lean ====
section
/-!
DEFINITION. The steps of training: which bundles and lanes take part (R77, R107), spare selection (R83), the
width of a reach port (R106), the path delay (R104), and the passage from step to step (R74–R77, R99–R101).
-/

namespace Sys2Proof.Machine
open Sys2Proof

/-! ### TRK words and hello frames (R70, R71) -/

/-- XOR of the seven nibbles [3:0] to [27:24]. -/
def nibbleCheck (w : BitVec 32) : BitVec 4 :=
  (List.range 7).foldl (fun c i => c ^^^ w.extractLsb' (4 * i) 4) 0

/-- HPRE and HCHK of a hello frame are correct (R70). -/
def helloGood (f : BitVec 32) : Bool := f.extractLsb' 0 4 == 0xA && f.extractLsb' 28 4 == nibbleCheck f

/-- TSYNC and TCHK of a TRK word are correct (R71). -/
def trkGood (w : BitVec 32) : Bool := w.extractLsb' 0 8 == 0x5A && w.extractLsb' 28 4 == nibbleCheck w

/-- TCODE of a TRK word is one of the listed codes (R71). -/
def trkKnown (w : BitVec 32) : Bool := decide ((w.extractLsb' 8 4).toNat < 8)

/-- A TRK word (R71). -/
def trkWord (code : BitVec 4) (arg : BitVec 12) : BitVec 32 :=
  let low : BitVec 28 := arg ++ 0#4 ++ code ++ 0x5A#8
  nibbleCheck (0#4 ++ low) ++ low

/-- A hello frame (R70). -/
def helloFrame (die : Die) (role port : BitVec 3) (bun : BitVec 4) (rstf rdy wake : Bool) : BitVec 32 :=
  let low : BitVec 28 :=
    0#3 ++ BitVec.ofBool wake ++ BitVec.ofBool rdy ++ BitVec.ofBool rstf ++ bun ++ port ++ role ++ die ++ 0xA#4
  nibbleCheck (0#4 ++ low) ++ low

/-! ### Who takes part -/

/-- The mask offered to PARAM: one bit per bundle in play, or per logical lane. -/
def maskOf (bs : List Nat) : Nat := sumNat (bs.map fun b => 2 ^ b)

/-- Lanes that pass in the receive direction. -/
def lanesPassing (p : Port) : List Nat :=
  (List.range p.lanes.length).filter fun l => (p.lanes.getD l {}).pass

/-- The largest legal width not above a count (R91, R106). -/
def legalWidth (n : Nat) : Nat :=
  if 16 ≤ n then 16 else if 8 ≤ n then 8 else if 4 ≤ n then 4 else if 2 ≤ n then 2 else min n 1

/-! ### Spare selection (R83) -/

/-- Eye width of wire `w` of an eye table: byte 1 of its entry. -/
def eyeOf (eyes : List (BitVec 16)) (w : Nat) : Nat := ((eyes.getD w 0).extractLsb' 8 8).toNat

/-- A wire passes: its eye reaches the threshold and T3 found no parity error on it. -/
def wirePass (eyes : List (BitVec 16)) (bad : List Nat) (thr w : Nat) : Bool :=
  decide (thr ≤ eyeOf eyes w) && !bad.contains w

/-- The wire of a group with the smallest eye width, the lowest index on a tie. -/
def weakestWire (eyes : List (BitVec 16)) (g : Nat) : Nat :=
  (List.range 16).foldl (fun best i => if eyeOf eyes (16 * g + i) < eyeOf eyes best then 16 * g + i else best)
    (16 * g)

/-- Spare selection of one repair group: its bits of the spare map, none when the bundle is unrepairable. -/
def selectGroup (eyes : List (BitVec 16)) (t3bad : List Nat) (fused thr marg g : Nat) : Option Nat :=
  let fusedWire := if bitAt fused (5 * g + 4) then [16 * g + bitsOf fused (5 * g) 4] else []
  let bad := ((List.range 16).map (16 * g + ·)).filter fun w => !wirePass eyes t3bad thr w || fusedWire.contains w
  let sparePass := wirePass eyes t3bad thr (64 + g)
  let used (w : Nat) : Nat := field 1 (5 * g + 4) 1 + field (w - 16 * g) (5 * g) 4
  match bad with
  | [] =>
    if !sparePass then some (field 1 (24 + g) 1)
    else
      let w := weakestWire eyes g
      if eyeOf eyes w < marg then some (used w + field 1 (20 + g) 1) else some 0
  | [w] => if sparePass then some (used w) else none
  | _ => none

/-- `select_spares` (R83): the spare map of a bundle, none when it is unrepairable. -/
def selectSpares (eyes : List (BitVec 16)) (t3bad : List Nat) (fused thr marg : Nat) : Option Nat :=
  (List.range 4).foldl
    (fun acc g => match acc, selectGroup eyes t3bad fused thr marg g with
      | some m, some v => some (m + v)
      | _, _ => none)
    (some 0)

/-- The direction runs CRC-ONLY (R81). -/
def crcOnly (s : State) (q : Nat) : Bool := s.pget 0x3000 q 0x01 0 == 1

/-- Width of a trained UCIe module: x16, or x8 on the half of d0–d15 without a failing lane (R349, R352). -/
def ucieWidth (bad : List Nat) : Nat :=
  let half (i : Nat) : Bool := bad.all fun w => !(decide (8 * i ≤ w) && decide (w < 8 * i + 8))
  if half 0 && half 1 then 16 else if half 0 || half 1 then 8 else 0

/-- T4 at one bundle: the map it will send, and whether it is excluded (R83). -/
def spareStep (s : State) (q b : Nat) (bn : Bundle) : Bundle :=
  let thr := s.pget 0x3000 q 0x08 20
  if ucieMode s q then { bn with spareMap := 0, state := if ucieWidth bn.t3bad = 0 then 2 else bn.state }
  else if crcOnly s q then
    -- A fused wire is never used again (R82), and without spares nothing replaces it.
    if (List.range 64).all (wirePass bn.eyes bn.t3bad thr) && mgetD s.fuses.maps (q * 16 + b) 0 == 0 then
      { bn with spareMap := 0 }
    else { bn with state := 2 }
  else
    match selectSpares bn.eyes bn.t3bad (mgetD s.fuses.maps (q * 16 + b) 0) thr (s.pget 0x3000 q 0x07 28) with
    | some m => { bn with spareMap := m }
    | none => { bn with state := 2 }

/-- The proposal of R419 for a bundle. -/
def fuseProposal (t3bad : List Nat) : Nat :=
  let groups := (List.range 4).map fun g => t3bad.filter fun w => decide (w < 64) && w / 16 == g
  if groups.any fun ws => decide (2 ≤ ws.length) then 0xFFFFFFFF
  else sumNat ((List.range 4).map fun g =>
    match groups.getD g [] with
    | [w] => field 1 (5 * g + 4) 1 + field (w % 16) (5 * g) 4
    | _ => 0)

/-! ### Reach width and latency (R97, R104, R106) -/

/-- S_w = ⌈68 / 7w⌉. -/
def slotTime (w : Nat) : Nat := ceilDiv 68 (7 * w)
/-- C_w = ⌈170 / 7w⌉. -/
def codewordTime (w : Nat) : Nat := ceilDiv 170 (7 * w)

/-- `xphy_min_width` of a reach port. -/
def minWidth (s : State) (q : Nat) : Nat := s.get (0x4000 + 256 * xidx q) 0x03 (max 1 (s.elab_.reachLanes / 2))

/-- m of R104: the smaller of the width and the smaller minimum width. -/
def delayWidth (s : State) (q : Nat) (p : Port) : Nat := min p.width (min (minWidth s q) p.partnerMin)

/-- The path delay computed by this XA3 (R104). -/
def newPathDelay (s : State) (q : Nat) : Nat :=
  let p := s.port q
  let m := delayWidth s q p
  15 + slotTime m + codewordTime m + ceilDiv p.loop 2

/-- XA3 settles the path delay (R104): stored at the first XA3 after a reset or a requested recomputation, else
kept, with a record when the new value exceeds it. -/
def settlePathDelay (s : State) (q : Nat) : State :=
  let v := newPathDelay s q
  let i := 0x4000 + 256 * xidx q
  let old := (s.port q).pathDelay
  if old = 0 ∨ s.get i 0x06 0 = 1 then
    ((s.modPort q fun p => { p with pathDelay := v }).put i 0x06 0 0).put i 0x0B 0 0
  else if v ≤ old then s.put i 0x0B 0 0
  else (s.put i 0x0B 0 1).service 0x13 2 q 0 v

/-- Own transmit lanes that pass at the partner's receivers. -/
def lanesSending (p : Port) : List Nat := (List.range p.lanes.length).filter fun l => !p.partnerBad.contains l

/-- XA1: w from the lanes that pass on both sides, and logical lanes 0 to w − 1 on the lowest-numbered physical lanes of
each direction; the others idle (R91, R106). -/
def chooseWidth (s : State) (q : Nat) : State :=
  let p := s.port q
  let w := legalWidth (min (lanesPassing p).length (lanesSending p).length)
  let rx := (lanesPassing p).take w
  let s := s.modPort q fun p =>
    { p with width := w, rxLanes := rx, txLanes := (lanesSending p).take w,
             lanes := (List.range p.lanes.length).map fun i =>
               let l := p.lanes.getD i {}
               { l with state := if !l.pass then (if l.state = 4 then 4 else 3) else if rx.contains i then 1 else 2 } }
  if w < p.lanes.length then s.service 0x12 2 q 0 w else s

/-! ### From step to step -/

/-- The number that STEP_DONE and XSTEP carry for a step: T1–T5 1–5, A1 6, A2 7 (log entry 20); XT1–XA3 1–6
(R100). -/
def TrainStep.code : TrainStep → Nat
  | .t1 => 1 | .t2 => 2 | .t3 => 3 | .t4 => 4 | .t5 => 5 | .a1 => 6 | .a2 => 7
  | .xt1 => 1 | .xt2 => 2 | .xt3 => 3 | .xa1 => 4 | .xa2 => 5 | .xa3 => 6
  | _ => 0

/-- The step that follows, none after the last; the fast reach form skips XT2 (R101). -/
def TrainStep.next (fast : Bool) : TrainStep → Option TrainStep
  | .t1 => some .t2 | .t2 => some .t3 | .t3 => some .t4 | .t4 => some .t5 | .t5 => some .a1
  | .a1 => some .a2
  | .xt1 => some (if fast then .xt3 else .xt2) | .xt2 => some .xt3 | .xt3 => some .xa1
  | .xa1 => some .xa2 | .xa2 => some .xa3
  | _ => none

/-- This side is done with its step: STEP_DONE goes out on every bundle that trains; on a reach port the training frames
show XDONE from now on (R74, R99). -/
def sendDone (s : State) (q : Nat) : State :=
  let s := s.modPort q fun p => { p with doneSent := true }
  if Config.isReach q then s
  else s.sendTrain q (bundlesInPlay (s.port q)) (trainMessage 2 (s.port q).step.code false)

/-- The PARAM message of this side (R138, R157), to be filled in with its kind, GEN and mask. -/
def ownParam (s : State) (q : Nat) : ParamMsg :=
  let l := logical s q
  let p := s.port l
  let cleared := p.gen == 0
  let rejoin := siblingMerged s q
  { rxclr := p.param.rxclr, gen := p.gen, mask := BitVec.ofNat 16 (s.port q).offer,
    die := s.die, role := s.role, port := BitVec.ofNat 4 q, ipv := 0x0402,
    build := BitVec.ofNat 16 s.elab_.build, ffv := 1, cfv := 1, carry := 7,
    compat := BitVec.ofNat 8 (s.get 0xC000 0x02 0x42), feat := BitVec.ofNat 64 (nativeFeat s),
    rxnext := if cleared || p.param.rxclr || rejoin then 0 else p.e,
    txold := if cleared || rejoin then 0 else p.o,
    txcnt := if cleared || rejoin then 0 else BitVec.ofNat 12 p.replay.length,
    rxcells := BitVec.ofNat 16 (rxTotal s l), shared := BitVec.ofNat 16 (sharedOf s l),
    res := ((rsvList s l).drop 1).map (BitVec.ofNat 16),
    rdepth := BitVec.ofNat 16 (replayLimit s l),
    path := if Config.isReach q then BitVec.ofNat 16 (s.port q).pathDelay else 0 }

/-- PARAM begins: the OFFER is sent (R157). -/
def enterParam (s : State) (q : Nat) : State :=
  let s := s.modPort q fun p =>
    { p with step := .idle, doneSent := false, doneRcvd := false,
             param := { rxclr := p.param.rxclr, offered := true } }
  let s := s.goto q .param
  s.sendParam q { ownParam s q with pmt := 1 }

/-- A retrain has lost a bundle or lane: a bundle of the last mask is excluded, a lane of the last assignment fails, or
the lanes are assigned otherwise (R147). -/
def retrainBroken (p : Port) (reach : Bool) : Bool :=
  if reach then
    p.lastLanes.1.any (fun l => !(p.lanes.getD l {}).pass) || p.lastLanes.2.any (fun l => p.partnerBad.contains l)
      || (!p.rxLanes.isEmpty && (p.rxLanes, p.txLanes) != p.lastLanes)
  else (List.range p.bundles.length).any fun b => bitAt p.lastMask b && !inPlay p b

/-- The bundles that a broken retrain reports in BUNDLE_LOST (R73, R147). -/
def bundlesBroken (p : Port) : Nat :=
  ((List.range p.bundles.length).filter fun b => bitAt p.lastMask b && !inPlay p b).length

/-- A retrain that has lost a bundle or lane ends with BUNDLE_LOST or LANE_LOST, and a LINK_FULL follows (R147). -/
def endBroken (s : State) (q : Nat) (fullOnly : Bool) : State :=
  let s := if Config.isReach q then s else s.bump (0x3000 + 256 * q) 0x0C (bundlesBroken (s.port q))
  linkFull (s.strike q 4) q 12 true fullOnly

/-- Training has passed its last step (R75, R76, R101): the offered mask is fixed; a retrain at another width
becomes a LINK_FULL (R147); with nothing left the port detects again (R77). -/
def trainingDone (s : State) (q : Nat) : State :=
  let p := s.port q
  let reach := Config.isReach q
  let offer := if reach then 2 ^ p.width - 1
    else maskOf ((bundlesInPlay p).filter fun b => b == 0 || !ucieMode s q)
  let s := s.modPort q fun p =>
    { p with offer := offer, trained := true,
             bundles := (List.range p.bundles.length).map fun b =>
               let bn := p.bundles.getD b {}
               let bn := if inPlay p b then { bn with state := 1 } else bn
               if p.fast then bn else { bn with t3full := bn.t3bad } }
  let dur := min (s.now - p.trainAt) 0xFFFFFFFF
  let s := if reach then s else (s.put (0x3000 + 256 * q) 0x03 0 offer).put (0x3000 + 256 * q) 0x06 0 dur
  let s := if ucieMode s q then s.put (0xC200 + 16 * q) 0x03 0 (ucieWidth (p.bundles.getD 0 {}).t3bad) else s
  if p.state = .retrain then
    if retrainBroken p reach then endBroken s q (offer == 0) else s.modPort q fun p => { p with step := .idle }
  else if offer = 0 then enterDetect s q
  else enterParam s q

/-- The 16 latency markers of XA3, LMK 0 to 15 (R102). -/
def markers : List OnceFrame := (List.range 16).map fun i => { lmk := i }

/-- Begin a step: ALIGN starts with A1 and XA1 (R142), and with XA1 the codewords, the first of a pair first (R94, R95);
T5 sends the REPAIR_MAP of every bundle (R74); XA3 sends its markers (R102). -/
def beginStep (s : State) (q : Nat) (st : TrainStep) : State :=
  let s := s.modPort q fun p => { p with step := st, stepAt := s.now, doneSent := false, doneRcvd := false }
  let align (s : State) : State := if (s.port q).state = .train then s.goto q .align else s
  match st with
  | .t5 => (bundlesInPlay (s.port q)).foldl
      (fun s b => s.sendTrain q [b]
        (trainMessage 3 (((s.port q).bundles.getD b {}).spareMap % 2 ^ 20) (crcOnly s q))) s
  | .a1 => align s
  | .xa1 => align (s.modPort q fun p => { p with cwSecond := false, cwPhase := 0, txSplit := none, txLast := [] })
  | .xa3 => s.modPort q fun p => { p with once := p.once ++ markers, onceAt := if p.once.isEmpty then s.now else p.onceAt }
  | _ => s

/-- The training stays fast after this step: T1 and XT1 show whether both sides can (R76, R101). -/
def staysFast (p : Port) : Bool :=
  match p.step with
  | .t1 | .xt1 => p.fast && p.fastOk
  | _ => p.fast

/-- Each step ends when both sides have sent and received its completion (R74, R99). -/
def advanceStep (s : State) (q : Nat) : State :=
  let p := s.port q
  if p.doneSent && p.doneRcvd && supRuns s then
    match p.step.next (staysFast p) with
    | some st => beginStep (s.modPort q fun p => { p with fast := staysFast p }) q st
    | none =>
      if p.step = .xa3 then
        trainingDone (settlePathDelay (s.modPort q fun p => { p with lastLoop := p.loop }) q) q
      else if p.step = .a2 then trainingDone s q else s
  else s

/-- The port is in a state in which training steps run: TRAIN, ALIGN and RETRAIN, with the supervisor up and its pins not
parked (R154). -/
def trains (s : State) (q : Nat) : Bool :=
  supRuns s && !(s.port q).pllPark && (match (s.port q).state with | .train | .align | .retrain => true | _ => false)

/-- A training message that follows entry to ACTIVE within 256 cc shows that the partner missed the COMMIT: a
LINK_FULL with cause 11 (R165). -/
def lateMessage (s : State) (q : Nat) : State :=
  let p := s.port q
  if p.state = .active ∧ s.now ≤ p.activeAt + 256 then linkFull s q 11 true false else s

/-- The 4-µs gathering window of D2 is over; a reach port has none (R75). -/
def gathered (s : State) (q : Nat) : Bool :=
  Config.isReach q || (match (s.port q).gatherAt with | some t => decide (t + 4000 ≤ s.now) | none => false)

/-- DETECT ends when both sides show RDY (R75 D3, R99 XD2): bundles without two identical hellos in the window of D2 have
no partner (R77). -/
def leaveDetect (s : State) (q : Nat) : State :=
  let p := s.port q
  if p.state = .detect ∧ p.pll ∧ p.partnerRdy ∧ p.partnerHello ∧ gathered s q ∧ supRuns s then
    let s := s.modPort q fun p =>
      { p with bundles := p.bundles.map fun b => if b.twice || b.state == 4 then b else { b with state := 3 } }
    beginAttempt s q false
  else s

/-- All units that take part have been excluded: the port detects again (R77, R107). A retrain ends with the first unit
that fails (R147). -/
def noneRemains (s : State) (q : Nat) : State :=
  let p := s.port q
  let none := if Config.isReach q then (lanesPassing p).isEmpty else (bundlesInPlay p).isEmpty
  if p.state = .retrain then (if retrainBroken p (Config.isReach q) then endBroken s q none else s)
  else if none then enterDetect s q
  else s

end Sys2Proof.Machine
end

