-- ==== Sys2Proof/Machine/WirePhy.lean ====
section
/-!
DEFINITION. The commands of the wire PHY: detection, training messages, losses, spares and live swap
(R68–R86), and the events of detection that reach ports share with it (R155).
-/

namespace Sys2Proof.Machine
open Sys2Proof

/-! ### Detection -/

/-- A hello names its own bundle and agrees in HDIE, HROLE and HPORT with the first bundle's: the first in time whose
hello was accepted and named its own index (R77, log entry 111). -/
def helloFits (p : Port) (b : Nat) (f : BitVec 32) : Bool :=
  (f.extractLsb' 18 4).toNat == b && (p.firstHello.all fun h => h == f.extractLsb' 4 14)

/-- The gathering window of D2 is open: it starts with the first accepted partner hello (R75). -/
def gathering (p : Port) (now : Nat) : Bool := p.gatherAt.all fun t => decide (now < t + 4000)

/-- Two identical hellos in DETECT (R75 D1–D3): in the window of D2 the bundle is gathered, or found miswired (R77); of the
bundles that fit RDY is noted. The first accepted hello starts the window and the WTX PLL; with RSTF = 1 it is counted
(R155, log entry 112). -/
def detectHello (s : State) (q b : Nat) (f : BitVec 32) : State :=
  let p := s.port q
  let fits := helloFits p b f
  let open_ := gathering p s.now
  let s := if p.gatherAt.isNone ∧ f.getLsbD 22 then s.pbump 0x5002 q 0x0C 1 else s
  let s := s.modPort q fun p =>
    { p with gatherAt := some (p.gatherAt.getD s.now), step := if p.step = .d1 then .d2 else p.step }
  let s := s.modBundle q b fun bn =>
    { bn with twice := bn.twice || (fits && open_), state := if fits then bn.state else 4 }
  let s := if fits then s else s.irq 1
  let s := if fits ∧ ((s.port q).bundles.getD b {}).twice then
      s.modPort q fun p =>
        { p with partnerHello := true, partnerRdy := p.partnerRdy || f.getLsbD 23,
                 partnerDie := f.extractLsb' 4 8, partnerRole := f.extractLsb' 12 3,
                 firstHello := some (f.extractLsb' 4 14) }
    else s
  leaveDetect s q

/-- The content of two identical accepted hello frames, by link state (R70, R89, R142, R155, R156). -/
def actOnHello (s : State) (q b : Nat) (f : BitVec 32) : State :=
  let rstf := f.getLsbD 22
  match (s.port q).state with
  | .detect => detectHello s q b f
  | .hold => if rstf then acceptResetHello s q else acceptHoldHello s q
  | .dormant => if rstf then acceptResetHello s q else if f.getLsbD 24 then answerWake s q else s
  | .off => s
  | _ => if rstf then acceptResetHello s q else s

/-- A hello frame on TRK: correct HPRE and HCHK, and a second identical frame, before it acts (R70). A frame that fails
leaves the last accepted one in place, so it does not break a pair of consecutive accepted frames (log entry 113). -/
def receiveHello (s : State) (q b : Nat) (f : BitVec 32) : State :=
  if !helloGood f then s
  else if ((s.port q).bundles.getD b {}).hello = some f then actOnHello s q b f
  else s.modBundle q b fun bn => { bn with hello := some f }

/-- HELLO_FRAME (R70). -/
def execHelloFrame (q : PortId) (b : BundleId) (frame : BitVec 32) (s : State) :
    Host.Outcome State Fault Refusal := onBundle s q b (receiveHello s q b frame)

/-- RESET_HELLO (R142, R155): the PHY reports an accepted hello with RSTF = 1. In DETECT, D1 continues. -/
def execResetHello (q : PortId) (s : State) : Host.Outcome State Fault Refusal :=
  onPort s q (if (s.port q).state = .off then s else acceptResetHello s q)

/-- A port's PLL locks: RDY is reported from now on, and detection ends when both sides show it (R75, R99). -/
def pllLocks (s : State) (q : Nat) : State :=
  let p := s.port q
  match p.state with
  | .detect =>
    if (Config.isReach q || p.gatherAt.isSome) && !p.pllPark then
      leaveDetect (s.modPort q fun p => { p with pll := true, step := if Config.isReach q then .xd2 else .d3 }) q
    else s
  | .dormant =>
    -- A waking reach port checks W with one marker exchange (R109).
    if p.wakeAt.isSome then
      s.modPort q fun p =>
        { p with pll := true, once := if Config.isReach q then [{ lmk := 0 }] else p.once, onceAt := s.now }
    else s
  | _ => s

/-- WTX_PLL_LOCK (R75): the PLL is started at the first accepted partner hello (D2), so it can lock only then. -/
def execWtxPllLock (q : PortId) (s : State) : Host.Outcome State Fault Refusal := onPort s q (pllLocks s q)

/-! ### Training messages (R74) -/

/-- TRAIN_START of the partner: fast training needs FAST_OK of both sides before T1 ends (R76). -/
def receiveTrainStart (s : State) (q : Nat) (fastOk : Bool) : State :=
  if trains s q ∧ (s.port q).step = .t1 then s.modPort q fun p => { p with fastOk := fastOk }
  else lateMessage s q

/-- TRAIN_START (R74). -/
def execTrainStart (q : PortId) (fastOk : Bool) (s : State) : Host.Outcome State Fault Refusal :=
  onPort s q (receiveTrainStart s q fastOk)

/-- STEP_DONE of the partner for the step in progress (R74). -/
def receiveStepDone (s : State) (q step : Nat) : State :=
  if trains s q then
    if (s.port q).step.code = step then advanceStep (s.modPort q fun p => { p with doneRcvd := true }) q else s
  else lateMessage s q

/-- STEP_DONE (R74). -/
def execStepDone (q : PortId) (step : BitVec 4) (s : State) : Host.Outcome State Fault Refusal :=
  onPort s q (receiveStepDone s q step.toNat)

/-- T5 of this side ends when every bundle in play has its own map acknowledged (R75 T5): STEP_DONE is sent. The partner's
STEP_DONE shows that its maps have been applied and acknowledged here. -/
def mapsExchanged (s : State) (q : Nat) : State :=
  let p := s.port q
  if p.step = .t5 ∧ !p.doneSent ∧ (bundlesInPlay p).all (fun b => (p.bundles.getD b {}).mapAcked) then
    advanceStep (sendDone s q) q
  else s

/-- REPAIR_MAP (R74, R84): the transmitter applies the map and echoes it in MAP_ACK on the same bundle. -/
def receiveRepairMap (s : State) (q b map : Nat) (tcrc : Bool) : State :=
  if trains s q then
    let s := s.modBundle q b fun bn => { bn with txMap := map, txCrc := tcrc }
    s.sendTrain q [b] (trainMessage 4 map false)
  else lateMessage s q

/-- REPAIR_MAP (R74). -/
def execRepairMap (q : PortId) (b : BundleId) (map : BitVec 20) (tcrc : Bool) (s : State) :
    Host.Outcome State Fault Refusal := onBundle s q b (receiveRepairMap s q b map.toNat tcrc)

/-- MAP_ACK (R74): the echo of the map that this receiver sent. -/
def receiveMapAck (s : State) (q b map : Nat) : State :=
  if trains s q then
    if ((s.port q).bundles.getD b {}).spareMap % 2 ^ 20 = map then
      mapsExchanged (s.modBundle q b fun bn => { bn with mapAcked := true }) q
    else s
  else lateMessage s q

/-- MAP_ACK (R74). -/
def execMapAck (q : PortId) (b : BundleId) (map : BitVec 20) (s : State) :
    Host.Outcome State Fault Refusal := onBundle s q b (receiveMapAck s q b map.toNat)

/-- An ABORT ends the attempt (R80); a parity reason is counted on both sides. -/
def receiveAbort (s : State) (q reason : Nat) : State :=
  match (s.port q).state with
  | .train | .align | .param | .retrain =>
    let s := if reason = 1 then s.bump (0x3000 + 256 * q) 0x05 1 else s
    if supRuns s then attemptFails s q 7 else s
  | _ => lateMessage s q

/-- TRAINING_ABORT (R80). -/
def execTrainingAbort (q : PortId) (reason : BitVec 8) (s : State) : Host.Outcome State Fault Refusal :=
  onPort s q (receiveAbort s q reason.toNat)

/-- A parity error that is fatal: in TRAIN and RETRAIN from the end of T1, in ALIGN and PARAM always (R80). -/
def parityIsFatal (p : Port) : Bool :=
  match p.state with
  | .train | .retrain => p.step != .t1 && p.step != .idle
  | .align | .param => true
  | _ => false

/-- The side that sees a fatal parity error counts it, sends ABORT with reason 1 and trains again (R80). -/
def parityError (s : State) (q : Nat) : State :=
  if parityIsFatal (s.port q) ∧ supRuns s then
    attemptFails ((s.bump (0x3000 + 256 * q) 0x05 1).sendTrain q (bundlesInPlay (s.port q)) (trainMessage 5 1 false)) q 1
  else s

/-- FATAL_PARITY_ERROR (R80). -/
def execFatalParityError (q : PortId) (s : State) : Host.Outcome State Fault Refusal :=
  onPort s q (parityError s q)

/-- TRAINING_RETRY (R77, R99): the 1-ms retry restarts detection. -/
def execTrainingRetry (q : PortId) (s : State) : Host.Outcome State Fault Refusal :=
  onPort s q (if (s.port q).state = .detect ∧ supRuns s then
    s.modPort q (detectFields q s.now)
  else s)

/-! ### Timed operations of this side -/

/-- Units that failed T1: TRK, VLD or clock of a bundle (R77). -/
def markControlFailure (m : Measured) (p : Port) : Port :=
  { p with bundles := (List.range p.bundles.length).map fun b =>
      let bn := p.bundles.getD b {}
      if m.bad.any (·.1 == b) then { bn with state := 6 } else bn }

/-- Eye words measured in T2, class D results that a training overwrites (R75, R76). -/
def storeEyes (m : Measured) (p : Port) : Port :=
  { p with bundles := (List.range p.bundles.length).map fun b =>
      let bn := p.bundles.getD b {}
      match m.eyes.find? (·.1 == b) with
      | some (_, es) => { bn with eyes := es }
      | none => bn }

/-- Wires that showed a parity error in T3, or whose eye is below the pass threshold (R75 T3, R83). -/
def storeT3 (thr : Nat) (m : Measured) (p : Port) : Port :=
  { p with bundles := (List.range p.bundles.length).map fun b =>
      let bn := p.bundles.getD b {}
      let par := (m.bad.filter (·.1 == b)).map (·.2)
      { bn with t3bad := (List.range 68).filter fun w => !wirePass bn.eyes par thr w } }

/-- T3 also proposes field fuses (R419). -/
def storeProposals (p : Port) : Port :=
  { p with bundles := p.bundles.map fun bn => { bn with proposal := fuseProposal bn.t3bad } }

/-- The write point of each bundle's retiming FIFO, against which its drift is watched (R68, R75 A1). -/
def storeFifo (m : Measured) (p : Port) : Port :=
  { p with bundles := (List.range p.bundles.length).map fun b =>
      let bn := p.bundles.getD b {}
      match m.fifo.find? (·.1 == b) with
      | some (_, wp) => { bn with fifo := some (wp % 128) }
      | none => bn }

/-- Read point of a retiming FIFO of 4 words (128 UI) for a write point: one word behind it, so that the edge register and
the FIFO take 2 cc together (R68, log entry 114). -/
def readPoint (wp : Nat) : Nat := (wp + 96) % 128

/-- Lanes that failed a reach step here, and own transmit lanes that failed at the partner (R99, R106). -/
def markLanes (m : Measured) (p : Port) : Port :=
  { p with partnerBad := (m.bad.filter (·.2 == 1)).map (·.1),
           lanes := (List.range p.lanes.length).map fun l =>
             let ln := p.lanes.getD l {}
             if m.bad.any fun x => x.1 == l && x.2 != 1 then { ln with pass := false, state := 3 } else ln }

/-- Pairs found inverted in XT1, which the receiver corrects (R91, R99). -/
def storeFlips (m : Measured) (p : Port) : Port :=
  { p with lanes := (List.range p.lanes.length).map fun l =>
      { p.lanes.getD l {} with inverted := m.flips.contains l } }

/-- Receiver settings found in XT1 and XT2 (R99, R101). -/
def storeEq (m : Measured) (p : Port) : Port :=
  { p with lanes := (List.range p.lanes.length).map fun l =>
      let ln := p.lanes.getD l {}
      match m.eqs.find? (·.1 == l) with
      | some (_, bs) => { ln with eq := bs.take 16 }
      | none => ln }

/-- What a finished operation of this side leaves, by step (R75, R76, R99). -/
def stepResult (s : State) (q : Nat) (m : Measured) : State :=
  match (s.port q).step with
  | .t1 => s.modPort q (markControlFailure m)
  | .t2 => s.modPort q (storeEyes m)
  | .t3 => s.modPort q fun p => storeProposals (storeT3 (s.pget 0x3000 q 0x08 20) m p)
  | .t4 => s.modPort q fun p =>
      { p with bundles := (List.range p.bundles.length).map fun b =>
          let bn := p.bundles.getD b {}
          if inPlay p b then spareStep s q b bn else bn }
  | .a1 => s.modPort q (storeFifo m)
  | .xt1 => s.modPort q fun p => storeEq m (storeFlips m (markLanes m p))
  | .xt2 => s.modPort q (storeEq m)
  | .xt3 => s.modPort q (markLanes m)
  | .xa1 => chooseWidth (s.modPort q (markLanes m)) q
  | _ => s

/-- The loop of XA3: the larger of both sides' (R102); beyond 520 cc the attempt ends with XABT = 1. -/
def loopResult (s : State) (q : Nat) : State :=
  let own := (s.port q).loops.foldl max 0
  if 520 < own then
    attemptFails (s.modPort q fun p => { p with once := [{ abort := 1 }], onceAt := s.now }) q 8
  else
    let s := s.modPort q fun p => { p with loop := max own p.partnerLoop }
    advanceStep (sendDone s q) q

/-- The side finishes its operation, notes its result and sends its completion; T5 completes by maps only. -/
def finishOperation (s : State) (q : Nat) (m : Measured) : State :=
  if trains s q ∧ !(s.port q).doneSent then
    let s := noneRemains (stepResult s q m) q
    if !trains s q then s
    else match (s.port q).step with
      | .t5 => mapsExchanged s q
      | .xa3 => loopResult s q
      | .idle => s
      | _ => advanceStep (sendDone s q) q
  else s

/-- TRAINING_STEP_COMPLETE (R75, R99). -/
def execTrainingStepComplete (q : PortId) (m : Measured) (s : State) : Host.Outcome State Fault Refusal :=
  onPort s q (finishOperation s q m)

/-! ### Losses (R72, R73) -/

/-- Bundles in use: those of the agreed mask in service, those in play or already lost while training. -/
def bundlesInUse (p : Port) : List Nat :=
  match p.state with
  | .active | .hold => (List.range p.bundles.length).filter fun b => bitAt p.mask b
  | .retrain => (List.range p.bundles.length).filter fun b => bitAt p.lastMask b
  | _ => (List.range p.bundles.length).filter fun b => inPlay p b || (p.bundles.getD b {}).lost

/-- The link state watches its partner (R72). -/
def watches (p : Port) : Bool :=
  match p.state with
  | .active | .retrain | .hold | .train | .align | .param => true
  | _ => false

/-- A bundle declares clock or TRK loss. In TRAIN, ALIGN and PARAM it is excluded (R77); when every bundle in use
has declared within 128 cc of the first, PARTNER_LOST is reported at this declaration (R73), which in HOLD changes
nothing but starts the detectors again. -/
def declareLoss (s : State) (q b : Nat) : State :=
  let p := s.port q
  if !watches p ∨ !(bundlesInUse p).contains b ∨ (p.bundles.getD b {}).lost then s
  else
    let training := p.state == .train || p.state == .align || p.state == .param
    let t0 := p.lossAt.getD s.now
    let s := s.modPort q fun p => { p with lossAt := some t0 }
    let s := s.modBundle q b fun bn => { bn with lost := true, state := if training then 5 else bn.state }
    let p := s.port q
    if (bundlesInUse p).all (fun i => (p.bundles.getD i {}).lost) ∧ s.now ≤ t0 + 128 then
      let s := s.bump (0x3000 + 256 * q) 0x0C 1
      if p.state = .hold then s.modPort q holdFields else partnerLost s q
    else if training then noneRemains s q else s

/-- CLOCK_LOSS (R72). -/
def execClockLoss (q : PortId) (b : BundleId) (s : State) : Host.Outcome State Fault Refusal :=
  onBundle s q b (declareLoss s q b)

/-- TRK_LOSS (R72). -/
def execTrkLoss (q : PortId) (b : BundleId) (s : State) : Host.Outcome State Fault Refusal :=
  onBundle s q b (declareLoss s q b)

/-- The 128-cc window ends with a bundle still healthy: BUNDLE_LOST for each bundle that declared a loss and has not been
reported (R73). -/
def closeLossWindow (s : State) (q : Nat) : State :=
  let p := s.port q
  let lost := (bundlesInUse p).filter fun b => (p.bundles.getD b {}).lost && !(p.bundles.getD b {}).told
  if p.lossAt = none ∨ lost.isEmpty ∨ (bundlesInUse p).all (fun b => (p.bundles.getD b {}).lost) then s
  else
    let s := s.bump (0x3000 + 256 * q) 0x0C lost.length
    let s := s.modPort q fun p =>
      { p with lossAt := none, bundles := p.bundles.map fun b => { b with told := b.told || b.lost } }
    match p.state with
    | .active => requestFull s q 1 true
    | .retrain => requestFull s q 12 true
    | _ => s

/-- BUNDLE_LOST (R73). -/
def execBundleLost (q : PortId) (s : State) : Host.Outcome State Fault Refusal :=
  onPort s q (closeLossWindow s q)

/-- FIFO_DRIFT (R68): counted, and LINK_RETRAIN is requested. -/
def execFifoDrift (q : PortId) (b : BundleId) (s : State) : Host.Outcome State Fault Refusal :=
  onBundle s q b (requestRetrain (s.bump (0x3000 + 256 * q) 0x0E 1) q true)

/-- KEEPALIVE (R71): a valid word that only keeps the TRK detector from declaring a loss. -/
def execKeepalive (q : PortId) (b : BundleId) (s : State) : Host.Outcome State Fault Refusal :=
  onBundle s q b s

/-- TRK_WORD_INVALID (R71): a word that fails TSYNC or TCHK, or carries an unlisted code, is counted. -/
def execTrkWordInvalid (q : PortId) (b : BundleId) (word : BitVec 32) (s : State) :
    Host.Outcome State Fault Refusal :=
  onBundle s q b (if trkGood word && trkKnown word then s else s.bump (0x3000 + 256 * q) 0x0F 1)

/-! ### Spares in service (R84–R86) -/

/-- TARG of SPARE_REQ and SPARE_GO: data wire in [5:0], bundle in [9:6] (R71). -/
def spareArg (b wire : Nat) : Nat := wire + 64 * b

/-- The threshold that triggers live swap and spare checking; 0 disables both. -/
def swapThreshold (s : State) (q : Nat) : Nat := s.pget 0x3000 q 0x09 16

/-- The spare of a group can take a wire: it is free and has not failed, or holds a marginal wire (R85). -/
def spareAvailable (map g : Nat) : Bool :=
  if bitAt map (5 * g + 4) then bitAt map (20 + g) else !bitAt map (24 + g)

/-- Errors located on a data wire (0–63), or mismatches of an idle spare (64–67), in the present 1-ms window (R84, R85). -/
def errorCount (s : State) (bn : Bundle) (w : Nat) : Nat :=
  if bn.errsAt = s.now / 1000000 then mgetD bn.errs w 0 else 0

/-- Count errors of a bundle by wire in the present 1-ms window. -/
def countErrors (now : Nat) (es : List (Nat × Nat)) (bn : Bundle) : Bundle :=
  let old := if bn.errsAt = now / 1000000 then bn.errs else []
  { bn with errsAt := now / 1000000,
            errs := es.foldl (fun m e => if e.2 = 0 then m else mset m e.1 (mgetD m e.1 0 + e.2)) old }

/-- A wire's located errors reach the threshold (R85): a swap is requested, refused, or already pending. -/
def swapTrigger (s : State) (q b wire : Nat) : State :=
  let bn := (s.port q).bundles.getD b {}
  let g := wire / 16
  if (s.port q).state ≠ .active ∨ crcOnly s q ∨ ucieMode s q ∨ swapThreshold s q = 0
      ∨ errorCount s bn wire < swapThreshold s q then s
  else if bn.swaps.any fun w => w.wire / 16 == g then s
  else if spareAvailable bn.spareMap g then
    (s.modBundle q b fun bn => { bn with swaps := bn.swaps ++ [⟨wire, 1⟩] }).sendCode q (some b) 4 (spareArg b wire)
  else s.bump (0x3000 + 256 * q) 0x10 1

/-- LIVE_SWAP_TRIGGER (R85). -/
def execLiveSwapTrigger (q : PortId) (b : BundleId) (wire : WireId) (s : State) :
    Host.Outcome State Fault Refusal := onBundle s q b (swapTrigger s q b wire)

/-- 64 cc without SPARE_GO: the request is repeated, and given up after 16 copies (R86). -/
def swapRepeat (s : State) (q b wire : Nat) : State :=
  let bn := (s.port q).bundles.getD b {}
  match bn.swaps.find? (·.wire == wire) with
  | none => s
  | some w =>
    if w.copies < 16 then
      (s.modBundle q b fun bn =>
        { bn with swaps := mapIf (·.wire == wire) (fun w => { w with copies := w.copies + 1 }) bn.swaps }).sendCode
          q (some b) 4 (spareArg b wire)
    else
      (s.modBundle q b fun bn => { bn with swaps := bn.swaps.filter (·.wire != wire) }).bump
        (0x3000 + 256 * q) 0x10 1

/-- SPARE_REQ_REPEAT (R86). -/
def execSpareReqRepeat (q : PortId) (b : BundleId) (wire : WireId) (s : State) :
    Host.Outcome State Fault Refusal := onBundle s q b (swapRepeat s q b wire)

/-- Group `g` of a map names wire `16 g + k`. -/
def mapWith (map g k : Nat) : Nat :=
  map - field (bitsOf map (5 * g) 5) (5 * g) 5 + field (16 + k) (5 * g) 5

/-- SPARE_REQ (R86): the transmitter answers SPARE_GO; from the word after it, it drives the wire on its group's spare as
well. -/
def spareRequested (s : State) (q b wire : Nat) : State :=
  if (s.port q).state = .active then s.sendCode q (some b) 5 (spareArg b wire) else s

/-- SPARE_REQ (R86). -/
def execSpareReq (q : PortId) (b : BundleId) (wire : WireId) (s : State) :
    Host.Outcome State Fault Refusal := onBundle s q b (spareRequested s q b wire)

/-- SPARE_GO (R86): the receiver reads the wire from the spare and updates the spare map; a marginal wire returns
to its own wire. -/
def spareGranted (s : State) (q b wire : Nat) : State :=
  let bn := (s.port q).bundles.getD b {}
  let g := wire / 16
  if bn.swaps.any (·.wire == wire) then
    (s.modBundle q b fun bn =>
      let m := mapWith bn.spareMap g (wire % 16)
      { bn with spareMap := m - field (b2n (bitAt m (20 + g))) (20 + g) 1,
                swaps := bn.swaps.filter (·.wire != wire) }).bump (0x3000 + 256 * q) 0x0B 1
  else s

/-- SPARE_GO (R86). -/
def execSpareGo (q : PortId) (b : BundleId) (wire : WireId) (s : State) :
    Host.Outcome State Fault Refusal := onBundle s q b (spareGranted s q b wire)

/-- The mismatches of an idle spare reach the threshold: its group is flagged until the next training (R84). -/
def spareFails (s : State) (q b g : Nat) : State :=
  let bn := (s.port q).bundles.getD b {}
  if crcOnly s q ∨ swapThreshold s q = 0 ∨ errorCount s bn (64 + g) < swapThreshold s q ∨ bitAt bn.spareMap (5 * g + 4) ∨ bitAt bn.spareMap (24 + g) then s
  else s.modBundle q b fun bn => { bn with spareMap := bn.spareMap + 2 ^ (24 + g) }

/-- SPARE_FAILED (R84). -/
def execSpareFailed (q : PortId) (b : BundleId) (group : Fin 4) (s : State) :
    Host.Outcome State Fault Refusal := onBundle s q b (spareFails s q b group)

end Sys2Proof.Machine
end

