-- ==== Sys2Proof/Machine/Sleep.lean ====
section
/-!
DEFINITION. Power states of ports: activity (R397), the sleep handshake (R87, R98), wakes from NAP and DORMANT
(R88, R89, R109, R399, R400) and the idle timers (R396, R398).
-/

namespace Sys2Proof.Machine
open Sys2Proof

/-- The calendar of the port owns slots, or has not yet been empty for one whole epoch (R13). -/
def ownsSlots (p : Port) : Bool := !p.cal.isEmpty || !p.calIdle

/-- Something is to be sent: flits, acknowledgements or credit returns (R87). -/
def somethingToSend (s : State) (q : Nat) : Bool :=
  let p := s.port (logical s q)
  !p.replay.isEmpty || !p.stream.isEmpty || p.ackAt.isSome || p.nakOwed || p.pend.any (· != 0)
    || !p.ctrlOut.isEmpty || p.credOut || !p.schedOut.isEmpty || anyWaits s (logical s q)

/-- Activity of R397, apart from flits of this cc, which restart the idle count themselves. -/
def hasActivity (s : State) (q : Nat) : Bool :=
  somethingToSend s q || ownsSlots (s.port (logical s q)) || domainLink s (logical s q)

/-- A unit of a pair that is CATCHUP or OUT refuses every sleep request of the pair (R320); a port in mode FW_UCIE
has no NAP or DORMANT (R352). -/
def unitRefusesSleep (s : State) (q : Nat) : Bool :=
  ucieMode s q || match pairOf s q with
  | some k => !((roleOf s k (pairA s k)).merged && (roleOf s k (pairB s k)).merged)
  | none => false

/-- The codes that carry the handshake: SLEEP_REQ 1 and SLEEP_ACK 2 with their target, SLEEP_NAK 3 with 0 (R71, R98). -/
def sendSleep (s : State) (q code : Nat) (t : SleepTarget) : State :=
  s.sendCode q none code (if code = 3 then 0 else match t with | .nap => 1 | .dormant => 2)

/-- The shallower of two targets (R87). -/
def shallower (a b : SleepTarget) : SleepTarget := if a = .nap ∨ b = .nap then .nap else .dormant

/-- The port keeps its owned slots and stays ACTIVE: its own handshake ends here (R13). -/
def stayAwake (s : State) (q : Nat) : State :=
  s.modPort q fun p => { p with sleepReq := none, sleepTo := none, wakeHeld := false, idleAt := s.now }

/-- The port may not sleep for its calendar (R13). -/
def mustStay (s : State) (q : Nat) : Bool := ownsSlots (s.port (logical s q))

/-- A sleep request arrives (R87): crossing requests acknowledge each other; otherwise ACK or NAK. A reach port has no NAP
(R108). A port whose calendar owns slots by now answers even a crossing request with NAK (R13, log entry 118). -/
def receiveSleepReq (s : State) (q : Nat) (t : SleepTarget) : State :=
  let p := s.port q
  if p.state ≠ .active then s
  else if Config.isReach q ∧ t = .nap then sendSleep s q 3 t
  else if mustStay s q then sendSleep (stayAwake s q) q 3 t
  else match p.sleepReq with
    | some own => s.modPort q fun p => { p with sleepReq := none, sleepTo := some (shallower own t) }
    | none =>
      if somethingToSend s q || unitRefusesSleep s q then sendSleep s q 3 t
      else sendSleep (s.modPort q fun p => { p with sleepTo := some t }) q 2 t

/-- SLEEP_REQ (R87). -/
def execSleepReq (q : PortId) (target : SleepTarget) (s : State) : Host.Outcome State Fault Refusal :=
  onPort s q (receiveSleepReq s q target)

/-- A sleep acknowledgement for the target asked (R87). -/
def receiveSleepAck (s : State) (q : Nat) (t : SleepTarget) : State :=
  if (s.port q).sleepReq = some t then
    if mustStay s q then stayAwake s q
    else s.modPort q fun p => { p with sleepReq := none, sleepTo := some t }
  else s

/-- SLEEP_ACK (R87). -/
def execSleepAck (q : PortId) (target : SleepTarget) (s : State) : Host.Outcome State Fault Refusal :=
  onPort s q (receiveSleepAck s q target)

/-- A request is refused or unanswered: the idle count restarts and the refusal is counted (R87, R397). -/
def sleepRefused (s : State) (q : Nat) : State :=
  if (s.port q).sleepReq.isSome then
    (s.modPort q fun p => { p with sleepReq := none, wakeHeld := false, idleAt := s.now }).bump (0xD100 + 16 * q) 0x06 1
  else s

/-- SLEEP_NAK (R87). -/
def execSleepNak (q : PortId) (s : State) : Host.Outcome State Fault Refusal := onPort s q (sleepRefused s q)

/-- SLEEP_REQ_TIMEOUT (R87). -/
def execSleepReqTimeout (q : PortId) (s : State) : Host.Outcome State Fault Refusal :=
  onPort s q (sleepRefused s q)

/-- What AON retains of a port in DORMANT (R400). -/
def retain (s : State) (q : Nat) : Retained :=
  let p := s.port q
  { mask := p.mask, width := p.width, loop := p.loop, bundleStates := p.bundles.map (·.state),
    laneStates := p.lanes.map (·.state),
    vEntries := (vEntriesOf q).map fun e => (ekey e.1 e.2, s.get e.1 e.2 0) }

/-- The class V values of a port written again from retention (R400). -/
def restoreV (s : State) (q : Nat) (r : Retained) : State :=
  let s := s.modPort q fun p =>
    { p with mask := r.mask, width := r.width, loop := r.loop, retained := none,
             bundles := (p.bundles.zip r.bundleStates).map fun (b, st) => { b with state := st },
             lanes := (p.lanes.zip r.laneStates).map fun (l, st) => { l with state := st } }
  { s with alm := r.vEntries.foldl (fun m kv => if kv.2 = 0 then mdel m kv.1 else mset m kv.1 kv.2) s.alm }

/-- Entry to the target state 16 cc after the acknowledgement has been sent or received (R87), unless the calendar owns slots
by now (R13). Work that arrived meanwhile, and a wake cause held since the handshake (R90), wake the port. -/
def sleepEnters (s : State) (q : Nat) : State :=
  let p := s.port q
  match p.state, p.sleepTo with
  | .active, some t =>
    if mustStay s q then stayAwake s q
    else if p.codes.any fun c => c.code == 2 then s
    else
      let s := match t with
        | .nap => s.goto q .nap
        | .dormant =>
          let r := retain s q
          let s := (s.clearV q).modPort q fun p => { p with retained := some r, pll := false }
          s.goto q .dormant
      let s := s.modPort q fun p =>
        { p with sleepTo := none, sleepReq := none, wakeAt := none, waker := false, wakeHeld := false, sleepAt := s.now }
      if somethingToSend s q || p.wakeHeld then wakePort s q else s
  | _, _ => s

/-- SLEEP_ENTRY (R87). -/
def execSleepEntry (q : PortId) (s : State) : Host.Outcome State Fault Refusal := onPort s q (sleepEnters s q)

/-- A wake ends in ACTIVE: its duration is written, and a NAP wake made only for DORMANT asks for it (R398), unless the
calendar owns slots by now (R13). -/
def wakeDone (s : State) (q : Nat) : State :=
  let p := s.port q
  let dur := min (s.now - p.wakeAt.getD s.now) 0xFFFFFFFF
  let again := p.toDormant && !mustStay s q && !unitRefusesSleep s q
  let s := match p.retained with
    | some r => restoreV s q r
    | none => s
  let s := (s.goto q .active).put (0xD100 + 16 * q) 0x07 0 dur
  let s := s.modPort q fun p =>
    { p with wakeAt := none, waker := false, toDormant := false, lossAt := none,
             bundles := p.bundles.map fun b => { b with lost := false, told := false } }
  if again then
    sendSleep (s.modPort q fun p => { p with sleepReq := some .dormant, sleepReqAt := s.now }) q 1 .dormant
  else s

/-- NAP_WAKE_PATTERN (R88): the partner's static high restarts this side's forwarded clock; this side drives no pattern. -/
def execNapWakePattern (q : PortId) (s : State) : Host.Outcome State Fault Refusal :=
  onPort s q (if (s.port q).state = .nap ∨ (s.port q).state = .active then answerWake s q else s)

/-- NAP_WAKE_COMPLETE (R88): 8 valid TRK words after re-acquisition. -/
def execNapWakeComplete (q : PortId) (s : State) : Host.Outcome State Fault Refusal :=
  onPort s q (if (s.port q).state = .nap ∧ (s.port q).wakeAt.isSome then wakeDone s q else s)

/-- NAP_WAKE_TIMEOUT (R88): no valid TRK word on some bundles; PARTNER_LOST when on none, else BUNDLE_LOST, which
acts once the port is ACTIVE on the others. -/
def napTimeout (s : State) (q : Nat) (silent : List Nat) : State :=
  let p := s.port q
  if p.state ≠ .nap ∨ p.wakeAt = none then s
  else
    let use_ := (List.range p.bundles.length).filter fun b => bitAt p.mask b
    let lost := use_.filter silent.contains
    if lost.length = use_.length then partnerLost (s.bump (0x3000 + 256 * q) 0x0C 1) q
    else if lost.isEmpty then s
    else requestFull (wakeDone (s.bump (0x3000 + 256 * q) 0x0C lost.length) q) q 1 true

/-- NAP_WAKE_TIMEOUT (R88). -/
def execNapWakeTimeout (q : PortId) (silent : List BundleId) (s : State) :
    Host.Outcome State Fault Refusal := onPort s q (napTimeout s q (silent.map (·.val)))

/-- The marker exchange of a wake finds W no larger than the stored value (R109). -/
def wakeDelayOk (p : Port) : Bool :=
  match p.retained with
  | some r => decide (ceilDiv (p.loops.foldl max 0) 2 ≤ ceilDiv r.loop 2)
  | none => true

/-- A DORMANT wake ends: ACTIVE without PARAM, or fast training when the wake form failed (R89, R109, R142). -/
def dormantWakes (s : State) (q : Nat) (ok : Bool) : State :=
  let p := s.port q
  if p.state = .dormant ∧ p.wakeAt.isSome then
    if ok && (!Config.isReach q || wakeDelayOk p) then wakeDone (s.modPort q fun p => { p with pll := true }) q
    else beginAttempt (s.modPort q fun p => { p with retained := none, wakeAt := none, pll := true }) q true
  else s

/-- DORMANT_WAKE_COMPLETE (R89). -/
def execDormantWakeComplete (q : PortId) (ok : Bool) (s : State) : Host.Outcome State Fault Refusal :=
  onPort s q (dormantWakes s q ok)

/-- REACH_WAKE_COMPLETE (R109). -/
def execReachWakeComplete (q : PortId) (ok : Bool) (s : State) : Host.Outcome State Fault Refusal :=
  onPort s q (dormantWakes s q ok)

/-- SIGNAL_DETECT (R109): AON starts the PLL of a sleeping reach port. -/
def execSignalDetect (q : PortId) (s : State) : Host.Outcome State Fault Refusal :=
  onPort s q (if (s.port q).state = .dormant then answerWake s q else s)

/-- PORT_WAKE (R399). -/
def execPortWake (q : PortId) (s : State) : Host.Outcome State Fault Refusal := onPort s q (wakePort s q)

/-- `pm_idle_entry` cc without activity: IDLE, without a handshake (R396). -/
def idleEnters (s : State) (q : Nat) : State :=
  if (s.port q).state = .active ∧ s.get (0xD100 + 16 * q) 0x01 16 ≠ 0 ∧ !hasActivity s q then
    s.modPort q fun p => { p with idle := true }
  else s

/-- IDLE_ENTRY (R396). -/
def execIdleEntry (q : PortId) (s : State) : Host.Outcome State Fault Refusal := onPort s q (idleEnters s q)

/-- Both units of a pair, or the port alone, ask for sleep together (R398). -/
def askSleep (s : State) (q : Nat) (t : SleepTarget) : State :=
  let one (s : State) (q : Nat) : State :=
    if (s.port q).state = .active ∧ (s.port q).sleepReq = none ∧ (s.port q).sleepTo = none ∧ !(s.port q).pllPark then
      sendSleep (s.modPort q fun p => { p with sleepReq := some t, sleepReqAt := s.now }) q 1 t
    else s
  if unitRefusesSleep s q then s
  else match sibling s q with
    | some b => one (one s q) b
    | none => one s q

/-- `pm_nap_idle` cc without activity: a wire port asks for NAP unless it goes straight to DORMANT (R398). -/
def napExpires (s : State) (q : Nat) : State :=
  let nap := s.get (0xD100 + 16 * q) 0x02 2000
  let dor := s.get (0xD100 + 16 * q) 0x03 1000000
  if Config.isReach q ∨ nap = 0 ∨ (dor ≠ 0 ∧ dor ≤ nap) ∨ hasActivity s q then s else askSleep s q .nap

/-- NAP_IDLE_EXPIRY (R398). -/
def execNapIdleExpiry (q : PortId) (s : State) : Host.Outcome State Fault Refusal :=
  onPort s q (napExpires s q)

/-- `pm_dormant_idle` cc without activity: DORMANT is requested; a napping port wakes first, and both units of a pair with
it (R398). -/
def dormantExpires (s : State) (q : Nat) : State :=
  if s.get (0xD100 + 16 * q) 0x03 1000000 = 0 ∨ hasActivity s q then s
  else match (s.port q).state with
    | .active => askSleep s q .dormant
    | .nap =>
      let s := (wakePort s q).modPort q fun p => { p with toDormant := true }
      match sibling s q with
      | some b => s.modPort b fun p => { p with toDormant := p.toDormant || p.state == .nap }
      | none => s
    | _ => s

/-- DORMANT_IDLE_EXPIRY (R398). -/
def execDormantIdleExpiry (q : PortId) (s : State) : Host.Outcome State Fault Refusal :=
  onPort s q (dormantExpires s q)

end Sys2Proof.Machine
end

