-- ==== Sys2Proof/Machine/Calendar.lean ====
section
/-!
DEFINITION. What the scheduled plane is built from: epochs and accept cc (R170), calendar rows and their checks
(R173–R175), head cells (R186), and the control cells (R189, R192, R197, R202).
-/

namespace Sys2Proof.Machine
open Sys2Proof

/-! ### Epochs -/

/-- EPLEN (R171). -/
def eplen (s : State) : Nat := s.get 0x6F00 0x03 1024
/-- L, `sch_lead` (R198). -/
def leadOf (s : State) : Nat := s.get 0x6F00 0x04 4
/-- `sch_domain_enable`. -/
def domainOn (s : State) : Bool := s.get 0x6F00 0x01 0 == 1

/-- How many epochs `n` lies after the current one, negative when before (R171: modulo 2⁴⁸, within 32). -/
def epochDist (s : State) (n : Epoch) : Int :=
  let d := (n - s.sch.epoch).toNat
  if d < 2 ^ 47 then (d : Int) else (d : Int) - 2 ^ 48

/-- N_n: of the current epoch, of a past one still in the history, of the next one when it is frozen; 0 else. -/
def leapsOf (s : State) (n : Epoch) : Nat :=
  let d := epochDist s n
  if d = 0 then s.sch.n
  else if d = 1 then (if s.sch.frozen then s.sch.nextN else 0)
  else if d < 0 then s.sch.nh.getD d.natAbs 0
  else 0

/-- T_n (R170): of the current epoch, of the past ones by the history, of later ones by the counts known. -/
def startOf (s : State) (n : Epoch) : Int :=
  let d := epochDist s n
  if d ≤ 0 then
    (s.sch.tn : Int) - (List.range d.natAbs).foldl (fun t i => t + eplen s + s.sch.nh.getD (i + 1) 0) 0
  else
    (s.sch.tn : Int) + eplen s + s.sch.n
      + (if d = 1 then 0 else (if s.sch.frozen then s.sch.nextN else 0) + (d - 1) * eplen s)

/-- Accept cc of START `st` in epoch `n` (R170). -/
def acceptCc (s : State) (n : Epoch) (st : Nat) : Int := startOf s n + leapsOf s n + st

/-! ### Calendar rows (R173) -/

/-- START of a row. -/
def calStart (r : Nat) : Nat := bitsOf r 0 12
/-- KIND of a row: 0 TX, 1 RX, 2 TXF, 3 RXF. -/
def calKind (r : Nat) : Nat := bitsOf r 12 2
/-- TEN of a row. -/
def calTen (r : Nat) : Ten := BitVec.ofNat 8 (bitsOf r 14 8)
/-- NPORT of a row. -/
def calNport (r : Nat) : Nat := bitsOf r 22 4
/-- NPORT of a row; TWIN_B's code names the pair (R314). -/
def nportOf (s : State) (r : Nat) : Nat := logical s (calNport r)
/-- NSLOT of a row. -/
def calNslot (r : Nat) : SlotId := BitVec.ofNat 12 (bitsOf r 26 12)
/-- PROXY of a row. -/
def calProxy (r : Nat) : Bool := bitAt r 38
/-- The row sends. -/
def calSends (r : Nat) : Bool := calKind r == 0 || calKind r == 2

/-- Rows of `sch_calendar_next`, header first (R174). -/
def nextRows (s : State) (q : Nat) : List Nat := s.rows (0x6002 + 256 * q) 0x01

/-- The calendar of a port that is in force in an epoch: the new one from the switch on (R177, R180). -/
def calFor (s : State) (q : Nat) (n : Epoch) : List Nat :=
  let p := s.port q
  if epochDist s n ≥ 1 ∧ s.sch.frozen ∧ s.sch.switchOk then ((p.calSwitch.map (·.drop 1)).getD p.cal) else p.cal

/-- Row `slot` of the calendar in force in an epoch. -/
def calRow (s : State) (q : Nat) (n : Epoch) (slot : SlotId) : Option Nat := (calFor s q n)[slot.toNat]?

/-- L_q (R181). -/
def latencyOf (q : Nat) (p : Port) : Nat := if Config.isReach q then 3 * p.pathDelay + 1 else 24

/-- Deadline of a slot in an epoch (R181). -/
def deadlineOf (s : State) (q : Nat) (n : Epoch) (r : Nat) : Int :=
  acceptCc s n (calStart r) + (s.port q).schLatency - 1

/-- A flit slot of this cc is owned by the calendar (R11). -/
def slotOwnedNow (s : State) (q : Nat) : Bool :=
  s.sch.joined && (s.port q).cal.any fun r => calSends r && acceptCc s s.sch.epoch (calStart r) == (s.now : Int)

/-- The first row, in ascending order, that completes a set of more than `limit` sending rows within `span`
consecutive offsets, which wrap (R175). -/
def densityRow (ep span limit : Nat) (rows : List Nat) : Option Nat :=
  let tx := (List.range rows.length).filter fun i => calSends (rows.getD i 0)
  let st (i : Nat) : Nat := calStart (rows.getD i 0)
  tx.find? fun i =>
    let upTo := tx.filter fun j => decide (j ≤ i)
    upTo.any fun k => decide (limit < (upTo.filter fun j => decide ((st j + ep - st k) % ep < span)).length)

/-- The checks of R175 on the header and rows of a calendar: the first case that fails, with its row. -/
def calCheck (s : State) (q : Nat) (header : Nat) (rows : List Nat) : Option (Nat × Nat) :=
  let nent := bitsOf header 16 13
  let ep := eplen s
  let p := s.port q
  let bad2 := (List.range rows.length).find? fun i =>
    calStart (rows.getD i 0) = 0 ∨ ep ≤ calStart (rows.getD i 0)
  let bad3 := (List.range rows.length).find? fun i =>
    0 < i ∧ calStart (rows.getD i 0) < calStart (rows.getD (i - 1) 0)
  let bd := s.pget 0x6000 q 0x02 (s.elab_.units q)
  let sm := slotTime (max 1 (delayWidth s q p))
  let bad4 := if Config.isReach q then none
    else
      let same := densityRow ep 1 bd rows
      let win := densityRow ep 16 (15 * bd) rows
      match same, win with
      | some a, some b => some (min a b)
      | a, none => a
      | none, b => b
  let bad5 := if Config.isReach q then
      let near := densityRow ep sm 1 rows
      let win := densityRow ep (16 * sm) 15 rows
      match near, win with
      | some a, some b => some (min a b)
      | a, none => a
      | none, b => b
    else none
  if calCapacity s q < nent ∨ rows.length ≠ nent then some (1, 0)
  else match bad2 with
    | some i => some (2, i)
    | none => match bad3 with
      | some i => some (3, i)
      | none => match bad4 with
        | some i => some (4, i)
        | none => match bad5 with
          | some i => some (5, i)
          | none => if s.pget 0x6000 q 0x01 0 = 0 ∧ nent ≠ 0 then some (6, 0) else none

/-! ### Cells -/

/-- An SCH head cell (R186). -/
def schHead (kind : Nat) (miss leap rpld : Bool) (reason : Nat) (epoch : Epoch) (leapn : Nat) (slot : SlotId)
    (q : Nat) (ten : Ten) (late : Nat) : Cell :=
  BitVec.ofNat 128
    (field kind 0 4 + field (b2n miss) 4 1 + field (b2n leap) 5 1 + field (b2n rpld) 6 1 + field reason 8 4
      + field epoch.toNat 16 48 + field leapn 64 8 + field slot.toNat 72 12 + field q 84 4
      + field ten.toNat 88 8 + field (min late 0xFFFFFFFF) 96 32)

/-- Put an SCH transaction into the egress buffer; it is due in a given cc. `d` is the deadline from which its LATE counts when
credit holds it longer; 0 where LATE stays as it is (R184). -/
def presentSch (s : State) (q : Nat) (slot : SlotId) (ten : Ten) (due : Nat) (cells : List Cell) (d : Nat := 0) : State :=
  let t : Txn := { opc := 0, ten := ten, tag := 0, sport := 0, spkg := 0, sdie := 0, head := .other 0, data := cells }
  { s with egress := s.egress ++ [(EgCh.sch, { txn := t, cport := BitVec.ofNat 4 q, cslot := slot, at_ := due, endAt := d })] }

/-- Present an SCH head cell alone, due in a given cc. -/
def presentHead (s : State) (kind q : Nat) (slot : SlotId) (ten : Ten) (reason : Nat) (epoch : Epoch) (due : Nat) :
    State :=
  presentSch s q slot ten due
    [schHead kind false (kind == 2 && leapsOf s epoch != 0) false reason epoch (leapsOf s epoch) slot q ten 0]

/-- The ports whose calendar is not empty. -/
def calendarPorts (s : State) : List Nat := (List.range 10).filter fun q => !(s.port q).cal.isEmpty

/-- Queue a control cell at a port. -/
def sendCtrl (s : State) (q : Nat) (c : Cell) : State := s.modPort q fun p => { p with ctrlOut := p.ctrlOut ++ [c] }

/-- The domain links, by logical port. -/
def domainLinks (s : State) : List Nat :=
  (List.range 10).filter fun q => s.elab_.portBuilt q && logical s q == q && domainLink s q

/-- A VOID cell (R189). -/
def voidCell (reason : Nat) (epoch : Epoch) (slot : SlotId) (ten : Ten) : Cell :=
  BitVec.ofNat 128 (7 + field reason 8 4 + field epoch.toNat 16 48 + field slot.toNat 64 12 + field ten.toNat 76 8)

/-- A beacon cell without its TXOFF, which its assembly fills in (R192). -/
def beaconCell (s : State) (q : Nat) : Cell :=
  let p := s.port q
  BitVec.ofNat 128
    (2 + field s.sch.epoch.toNat 16 48 + field s.sch.n 80 8 + field (if p.cal.isEmpty then 0 else p.calId) 88 16
      + field (leadOf s) 104 4 + field (eplen s) 112 13)

/-- TXOFF as a beacon's flit is assembled: cc from T_n of the epoch it opens, on a reach port to the start of RS encoding two
stages later (R103, R192). -/
def stampBeacon (s : State) (q : Nat) (c : Cell) : Cell :=
  if c.extractLsb' 0 8 = 2 then
    let off := ((s.now : Int) - startOf s (c.extractLsb' 16 48)).toNat + (if Config.isReach q then 2 else 0)
    c.extractLsb' 80 48 ++ BitVec.ofNat 16 off ++ c.extractLsb' 0 64
  else c

/-- A LEAP_REQ (0x03) or TEMPO (0x05) cell of this die (R197). -/
def leapCell (s : State) (ctype span : Nat) (epoch : Epoch) (k : Nat) : Cell :=
  BitVec.ofNat 128
    (ctype + field span 8 4 + field epoch.toNat 16 48 + field k 64 8 + field (ownPkg s) 72 12 + field s.die.toNat 84 8)

/-- A LEAP_NOTICE cell (R202). -/
def noticeCell (lepoch : Epoch) (deficit : Nat) (cepoch : Epoch) : Cell :=
  BitVec.ofNat 128 (4 + field lepoch.toNat 16 48 + field deficit 64 8 + field cepoch.toNat 80 48)

/-- A DFAULT cell of this die (R202). -/
def dfaultCell (s : State) (reason : Nat) (epoch : Epoch) : Cell :=
  BitVec.ofNat 128
    (6 + field reason 8 4 + field epoch.toNat 16 48 + field (ownPkg s) 64 12 + field s.die.toNat 76 8)

/-- CTYPE of a cell. -/
def ctypeOf (c : Cell) : Nat := (c.extractLsb' 0 8).toNat
/-- Bits [63:16] of a scheduled-plane cell: its epoch. -/
def cellEpoch (c : Cell) : Epoch := c.extractLsb' 16 48

/-- The cell is of the scheduled plane (R135). -/
def isSchCell (c : Cell) : Bool := decide (2 ≤ ctypeOf c) && decide (ctypeOf c ≤ 7)

end Sys2Proof.Machine
end

