-- ==== Sys2Proof/Machine/Ports.lean ====
section
/-!
DEFINITION. The Fabric Interface: acceptance of ingress transactions (R32–R34), the egress fill (R442, R37),
credit returns (R34, R39), IFI_WAKE (R38) and unlisted event codes (R40).
-/

namespace Sys2Proof.Machine
open Sys2Proof

/-! ### Ingress -/

/-- The channel a CCH code names for the direction die → adapter (R31). -/
def channelOf (c : BitVec 4) : Option IngCh :=
  if c == 1 then some .req else if c == 4 then some .inr else if c == 5 then some .snp
  else if c == 6 then some .msg else if c == 7 then some .sch else if c == 8 then some .red else none

/-- Channel codes (R31). -/
def ingCode : IngCh → Nat
  | .req => 1 | .inr => 4 | .snp => 5 | .msg => 6 | .sch => 7 | .red => 8

/-- Depth of an ingress buffer in cells (R35). -/
def ingDepth (s : State) (ch : IngCh) : Nat :=
  (match ch with | .req => 16 | .inr => 32 | .snp => 8 | .msg => 16 | .sch => 16 | .red => 32) * s.elab_.nBeat

/-- Cells in an ingress buffer. -/
def ingUsed (s : State) (ch : IngCh) : Nat :=
  sumNat ((s.ingress.filter (·.1 == ch)).map fun x => ingCells ch x.2)

/-- Cells an ingress transaction must have: 15 for an SCH payload (R178), one for a directory snoop (R255),
otherwise what its head requires (R213). -/
def ingExact (ch : IngCh) (h : Cell) : Option Nat :=
  match ch with
  | .sch => some 15
  | .snp => some 1
  | _ => (Txn.ofCells h []).exactCells

/-- A presentation in runs, each of which begins at a CSOP cell; a discard goes on to the end of its run (R33). -/
def ingressRuns : List IfiCell → List (List IfiCell)
  | [] => []
  | c :: cs =>
    match ingressRuns cs with
    | [] => [[c]]
    | r :: rs => if (r.head?.map (·.csop)).getD true then [c] :: r :: rs else (c :: r) :: rs

/-- The cells of a run up to its first CEOP cell, and the cells behind that. -/
def cutAtCeop : List IfiCell → List IfiCell × List IfiCell
  | [] => ([], [])
  | c :: cs => if c.ceop then ([c], cs) else let (a, b) := cutAtCeop cs; (c :: a, b)

/-- The cases of R33 on a channel with a legal code, for the cells of one transaction. -/
def ingressBad (ch : IngCh) (c : IfiCell) (rest : List IfiCell) : Bool :=
  let all := c :: rest
  !c.csop || !(all.getLastD c).ceop
    || rest.any (fun x => x.cten != c.cten)
    || (ch == .sch && all.any fun x => decide (10 ≤ x.cport.toNat))
    || (match ingExact ch c.data with | some n => n != all.length | none => false)

/-- A transaction or event discarded under R33 or R40. -/
def protocolError (s : State) : State := (s.bump 0x2105 0x01 1).irq 0

/-- The 16-B windows of R222 as rows. -/
def windowHit (s : State) (g : Gpa) (r : Nat) : Bool :=
  let base := bitsOf r 8 17 * 2 ^ 21
  bitsOf r 25 18 != 0 && (gpaPkg g).toNat == ownPkg s && (gpaDie g).toNat == bitsOf r 0 8
    && decide (base ≤ gpaOff g) && decide (gpaOff g < base + bitsOf r 25 18 * 2 ^ 21)

/-- The borrowed-capacity rewrite (R222). -/
def rewrite (s : State) (g : Gpa) : Gpa :=
  match (s.rows 0x7000 0x04).find? (windowHit s g) with
  | some r => mkGpa (BitVec.ofNat 12 (bitsOf r 43 12)) (BitVec.ofNat 8 (bitsOf r 55 8))
      (gpaOff g - bitsOf r 8 17 * 2 ^ 21 + bitsOf r 63 17 * 2 ^ 21)
  | none => g

/-- What a transaction is ordered by (R237): a CA = 0 line, a semaphore, an ordered queue. With no way of the RLC in
use, a CA = 1 request is served as CA = 0 (R244). -/
def orderKey (s : State) (t : Txn) : Option (Nat × Nat) :=
  match t.head with
  | .mem _ ca _ g => if ca && !(waysEnabled s).isEmpty then none else some (1, (lineOf (rewrite s g)).toNat)
  | .sync _ dpkg sid _ => some (2, dpkg.toNat * 2 ^ 16 + sid.toNat)
  | .msg _ true _ dpkg qid => some (3, dpkg.toNat * 2 ^ 20 + qid.toNat)
  | _ => none

/-- Transactions that the die issues and that are completed to it. -/
def isIssue (ch : IngCh) (opc : BitVec 8) : Bool := ch == .req || (ch == .msg && opc != 0x21)

/-- The transaction in the cells of an ingress presentation. An SCH payload is 15 cells without a head. -/
def ingTxn (ch : IngCh) (c : IfiCell) (rest : List IfiCell) : Txn :=
  let cells := rest.map (·.data)
  if ch = .sch then
    { opc := 0, ten := c.cten, tag := 0, sport := 0, spkg := 0, sdie := 0, head := .other 0, data := c.data :: cells }
  else Txn.ofCells c.data cells

/-- Take a transaction into the ingress buffer of its channel (R32, R34). -/
def acceptIngress (s : State) (ch : IngCh) (c : IfiCell) (rest : List IfiCell) : State :=
  let t := ingTxn ch c rest
  let w : Waiting := { txn := t, cport := c.cport, cslot := c.cslot, seq := s.seqNo, at_ := s.now - c.ago,
                       endAt := s.now - (rest.getLastD c).ago }
  let s := { s with ingress := s.ingress ++ [(ch, w)] }
  let s := if isIssue ch t.opc then
      { s with ord := s.ord ++ [{ seq := w.seq, ten := t.ten, opc := t.opc, key := orderKey s t, fen := t.fen,
                                  rqid := t.rqid }] }
    else s
  (s.tev 3 15 (ingCode ch) false (c.data.extractLsb' 0 64)).bumpSeq

/-- One run of a presentation: its transaction is taken, or it is discarded whole; cells behind the CEOP cell start
without CSOP, so they are discarded too. The credits of discarded cells return (R33). -/
def takeRun (s : State) (ch : IngCh) (run : List IfiCell) : State :=
  match cutAtCeop run with
  | (c :: rest, stray) =>
    if ingressBad ch c rest then (protocolError s).creditDie ch run.length
    else
      let s := acceptIngress s ch c rest
      if stray.isEmpty then s else (protocolError s).creditDie ch stray.length
  | ([], _) => s

/-- IFI_INGRESS_TRANSACTION (R32–R34, R38). Of a presentation that finds the buffer full, only the cells that held a
credit have one to return (log entry 108). -/
def execIfiIngressTransaction (cells : List IfiCell) (s : State) : Host.Outcome State Fault Refusal :=
  match cells with
  | [] => .next s
  | c :: _ =>
    if !s.ifiReady then .next s
    else match channelOf c.cch with
      | none => .next (protocolError s)
      | some ch =>
        let n := cells.length
        let held := s.icr.getD (ingIdx ch) 0
        if n ≤ held then
          .next ((ingressRuns cells).foldl (fun s run => takeRun s ch run)
            { s with icr := setAt (ingIdx ch) (held - n) s.icr })
        else if ingDepth s ch < ingUsed s ch + n then
          .next ((protocolError { s with icr := setAt (ingIdx ch) 0 s.icr }).creditDie ch held)
        else .fault .ingressWithoutCredit

/-! ### Egress -/

/-- Cells of an egress transaction: scheduled-plane transactions carry their head cell among them. -/
def egCells (ch : EgCh) (w : Waiting) : List Cell := if ch = .sch then w.txn.data else w.txn.ifiCells

/-- The index of the first element that satisfies a test. -/
def findIdx {α : Type} (p : α → Bool) : List α → Option Nat
  | [] => none
  | x :: xs => if p x then some 0 else (findIdx p xs).map (· + 1)

/-- The transaction of a channel whose cell comes next: the one begun, else on MSG a completion ahead of a
message (R213), else the oldest. -/
def egNext (s : State) (ch : EgCh) : Option Nat :=
  let on (p : Waiting → Bool) := findIdx (fun x : EgCh × Waiting => x.1 == ch && p x.2) s.egress
  (on fun w => w.taken != 0).orElse fun _ =>
    (on fun w => ch == .msg && w.txn.opc == 0x80).orElse fun _ => on fun _ => true

/-- Order of due SCH cells: deadline, CPORT, CSLOT (R442). -/
def schBefore (a b : Waiting) : Bool :=
  decide (a.at_ < b.at_) || (a.at_ == b.at_ && (decide (a.cport.toNat < b.cport.toNat)
    || (a.cport == b.cport && decide (a.cslot.toNat < b.cslot.toNat))))

/-- The SCH transaction to present next: the one begun, else the first due in the order of R442. -/
def schNext (s : State) : Option Nat :=
  (List.range s.egress.length).foldl
    (fun best i =>
      match s.egress[i]? with
      | some (EgCh.sch, w) =>
        if w.taken == 0 && decide (s.now < w.at_) then best
        else match best.bind fun j => s.egress[j]? with
          | some (_, b) => if b.taken != 0 || (w.taken == 0 && !schBefore w b) then best else some i
          | none => some i
      | _ => best)
    none

/-- SKIND of an SCH head cell (R186). -/
def schKind (h : Cell) : Nat := (h.extractLsb' 0 4).toNat

/-- A DATA or VOID head cell that credit held past its deadline is flagged MISS with REASON 5; one that is a MISS already keeps its
REASON, and its LATE counts to its presentation (R37, R184). -/
def lateHead (now : Nat) (w : Waiting) (h : Cell) : Cell :=
  if schKind h ≠ 1 ∧ schKind h ≠ 3 then h
  else if h.getLsbD 4 then
    if w.endAt ≠ 0 ∧ w.endAt < now then BitVec.ofNat 32 (min (now - w.endAt) 0xFFFFFFFF) ++ h.extractLsb' 0 96 else h
  else if w.at_ < now then
    let late := min (now - w.at_) 0xFFFFFFFF
    (BitVec.ofNat 32 late) ++ h.extractLsb' 12 84 ++ (if schKind h = 1 then 5#4 else h.extractLsb' 8 4)
      ++ h.extractLsb' 5 3 ++ 1#1 ++ h.extractLsb' 0 4
  else h

/-- Delivery counts of a scheduled flit as its head cell is presented (R184). -/
def countDelivery (s : State) (q : Nat) (h : Cell) : State :=
  if schKind h ≠ 1 then s
  else if h.getLsbD 4 then
    let late := (h.extractLsb' 96 32).toNat
    let s := s.pbump64 0x6001 q 0x03 1
    if s.pget 0x6001 q 0x04 0 < late then s.put (0x6001 + 256 * q) 0x04 0 late else s
  else s.pbump64 0x6001 q 0x02 1

/-- Present one cell of the transaction at an index of the egress buffer. -/
def presentCell (s : State) (i : Nat) : State :=
  match s.egress[i]? with
  | none => s
  | some (ch, w) =>
    let cells := egCells ch w
    let c0 := cells.getD w.taken 0
    let c := if ch = .sch ∧ w.taken = 0 then lateHead s.now w c0 else c0
    let s := { s with ecr := setAt (egIdx ch) (s.ecr.getD (egIdx ch) 0 - 1) s.ecr }
    let s := if w.taken = 0 then
        let s := freeOf (s.tev 4 15 (egCode ch) false (c.extractLsb' 0 64)) w.frees
        if ch = .sch then countDelivery s w.cport.toNat c else s
      else s
    let s := s.emit (.ifi ch (w.taken == 0) (decide (cells.length ≤ w.taken + 1)) w.cport w.cslot w.txn.ten c)
    if w.taken + 1 < cells.length then
      { s with egress := setAt i (ch, { w with taken := w.taken + 1 }) s.egress }
    else { s with egress := dropAt i s.egress }

/-- SCH cells first (R442 item 1), within the slots left. -/
def fillSch : (fuel : Nat) → State → Nat × State
  | 0, s => (0, s)
  | fuel + 1, s =>
    match schNext s with
    | some i => if s.ecr.getD 4 0 = 0 then (fuel + 1, s) else fillSch fuel (presentCell s i)
    | none => (fuel + 1, s)

/-- The round-robin channel codes in ascending order (R442). -/
def rrChannels : List EgCh := [.rsp, .inb, .snp, .msg, .red]

/-- The channels from the pointer on, with wrap. -/
def rrFrom (ptr : Nat) : List EgCh :=
  rrChannels.filter (fun c => decide (ptr ≤ egCode c)) ++ rrChannels.filter fun c => decide (egCode c < ptr)

/-- The channel after one, with wrap. -/
def rrAfter (ch : EgCh) : Nat :=
  match ch with
  | .rsp => 3 | .inb => 5 | .snp => 6 | .msg => 8 | _ => 2

/-- The other channels by round robin, one cell at a time (R442 items 2 and 3). -/
def fillRr : (fuel : Nat) → State → State
  | 0, s => s
  | fuel + 1, s =>
    match (rrFrom s.rr).find? fun c => s.ecr.getD (egIdx c) 0 != 0 && (egNext s c).isSome with
    | none => s
    | some c =>
      match egNext s c with
      | some i => fillRr fuel { presentCell s i with rr := rrAfter c }
      | none => s

/-- The egress cell slots of one cc (R442). -/
def egressFill (s : State) : State :=
  if !s.ifiReady then s
  else
    let (left, s) := fillSch (16 * s.elab_.nBeat) s
    fillRr left s

/-- IFI_EGRESS_FILL (R442). -/
def execIfiEgressFill (s : State) : Host.Outcome State Fault Refusal := .next (egressFill s)

/-! ### Credit, wake and events -/

/-- IFI_CREDIT_RETURN (R34, R39); with IFI_READY low the counters stay 0 (R38). -/
def execIfiCreditReturn (field : CreditField) (n : Nat) (s : State) : Host.Outcome State Fault Refusal :=
  if !s.ifiReady then .next s
  else match field with
    | .ecr ch => .next { s with ecr := addAt (egIdx ch) n s.ecr }
    | .evt => .next { s with evtCr := s.evtCr + n }

/-- IFI_WAKE (R38): the sampled level, and CORE started when it is high. -/
def execIfiWake (high : Bool) (s : State) : Host.Outcome State Fault Refusal :=
  let s := { s with ifiWake := high }
  .next (if high then startCore s else s)

/-- An event is taken from EVT and its credit returned (R39). -/
def takeEvt (s : State) (code : BitVec 8) (ten : Ten) : State :=
  (s.tev 5 15 0 false (evtBits code ten 0)).emit (.evtCredit 1)

/-- EVT_UNKNOWN_CODE (R40): a code the table of R40 does not list for the direction die → adapter. -/
def execEvtUnknownCode (ecode : BitVec 8) (s : State) : Host.Outcome State Fault Refusal :=
  if !s.ifiReady ∨ ecode = 1 ∨ ecode = 2 then .next s else .next (protocolError (takeEvt s ecode 0))

end Sys2Proof.Machine
end

