-- ==== Sys2Proof/Machine/WireBits.lean ====
section
/-!
DEFINITION. The wires of a bundle as bits: where a flit bit travels (R63), the levels of VLD (R64), spare substitution
(R82, R84), parity frames with their PRBS-15 content (R79), and the PARAM message on the data wires (R137).
-/

namespace Sys2Proof.Machine
open Sys2Proof

/-! ### Flit bits and wires (R63) -/

/-- What data wire `w` carries of a flit in the 32 UIs of its cc: flit bit b goes on d[b mod 64] in UI ⌊b / 64⌋. -/
def wireUis (bits w : Nat) : BitVec 32 :=
  BitVec.ofNat 32 (sumNat ((List.range 32).map fun u => field (bitsOf bits (64 * u + w) 1) u 1))

/-- The flit that the samples of d0–d63 spell. -/
def flitOfWires (ws : List (BitVec 32)) : Nat :=
  sumNat ((List.range 64).map fun w =>
    sumNat ((List.range 32).map fun u => field (bitsOf (ws.getD w 0).toNat u 1) (64 * u + w) 1))

/-- A flit with the samples of data wire `w` replaced. -/
def putWire (bits w : Nat) (uis : BitVec 32) : Nat :=
  (List.range 32).foldl
    (fun v u => if bitAt v (64 * u + w) = uis.getLsbD u then v else v ^^^ 2 ^ (64 * u + w)) bits

/-- The receiver reads a wire that its map names from the group's spare (R82, R86); without spare samples the flit holds
the steered wires already. -/
def steered (map : Nat) (spares : List (BitVec 32)) (bits : Nat) : Nat :=
  if spares.isEmpty then bits
  else (List.range 4).foldl
    (fun v g => if bitAt map (5 * g + 4) then putWire v (16 * g + bitsOf map (5 * g) 4) (spares.getD g 0) else v) bits

/-- What the transmitter drives on spare `g`: the wire its map names, else a copy of d[16g + 8]; low under CRC-ONLY (R81,
R84). -/
def spareUis (map : Nat) (crc : Bool) (bits g : Nat) : BitVec 32 :=
  if crc then 0
  else if bitAt map (5 * g + 4) then wireUis bits (16 * g + bitsOf map (5 * g) 4)
  else wireUis bits (16 * g + 8)

/-- Ones among the 32 bits of a sample. -/
def onesOf (v : BitVec 32) : Nat := ((List.range 32).filter fun u => v.getLsbD u).length

/-- Mismatches of idle spare `g` against the corrected bits of d[16g + 8] (R84). -/
def spareMismatches (bits g : Nat) (spare : BitVec 32) : Nat := onesOf (wireUis bits (16 * g + 8) ^^^ spare)

/-- How the 32 samples of VLD are decoded (R64). -/
inductive Vld where
  | flit | empty | ambiguous
deriving DecidableEq, Repr

/-- At least 24 ones are a flit, at most 8 are an empty cc, any other count is ambiguous. -/
def decodeVld (v : BitVec 32) : Vld :=
  let n := onesOf v
  if 24 ≤ n then .flit else if n ≤ 8 then .empty else .ambiguous

/-- The level of VLD in a cc (R64). -/
def vldUis (valid : Bool) : BitVec 32 := if valid then 0xFFFFFFFF else 0

/-! ### Parity frames (R79) -/

/-- Parity of the low `n` bits of a value. -/
def parityOf (n v : Nat) : Bool := (List.range n).foldl (fun p i => p != bitAt v i) false

/-- A wire of a parity frame: content in UIs 0–30, even parity over them in UI 31. -/
def parityFrame (c : BitVec 31) : BitVec 32 := BitVec.ofNat 32 (c.toNat + field (b2n (parityOf 31 c.toNat)) 31 1)

/-- The samples of a wire show a parity error. -/
def frameError (v : BitVec 32) : Bool := parityOf 32 v.toNat

/-- VLD in a parity frame: 0 in even UIs and 1 in odd ones. -/
def vldFrame : BitVec 32 := 0xAAAAAAAA

/-- Any other sample of VLD counts as a parity error. -/
def vldFrameError (v : BitVec 32) : Bool := v != vldFrame

/-- The next state of the PRBS-15 generator x¹⁵ + x¹⁴ + 1; its bit 14 is the bit sent (log entry 117). -/
def prbsStep (r : Nat) : Nat := (2 * r) % 2 ^ 15 + (bitsOf r 14 1 + bitsOf r 13 1) % 2

/-- The state after `n` bits. -/
def prbsAfter : (n r : Nat) → Nat
  | 0, r => r
  | n + 1, r => prbsAfter n (prbsStep r)

/-- The next `n` bits from a state, the first one lowest. -/
def prbsBits : (n r : Nat) → Nat
  | 0, _ => 0
  | n + 1, r => bitsOf r 14 1 + 2 * prbsBits n (prbsStep r)

/-- The content of wire `w` (d0–d63 as 0–63, s0–s3 as 64–67) in the given cc of T3 or A2: its seed is w + 1, and the
sequence advances 31 bits per cc. -/
def prbsContent (w cc : Nat) : BitVec 31 := BitVec.ofNat 31 (prbsBits 31 (prbsAfter (31 * cc) (w + 1)))

/-! ### PARAM messages (R137) -/

/-- A PARAM message as a flit: FTYPE PARAM, GEN = PGEN, every other header field 0, and the body in the cells. -/
def paramFlit (m : ParamMsg) : Flit :=
  { ftype := 5, gen := m.gen, cells := (List.range 15).map fun i => m.body.extractLsb' (128 * i) 128 }

/-- The 1984 bits of a PARAM message: message bit j travels on d[j mod 64] in UI ⌊j / 64⌋ of a parity frame. -/
def paramContent (m : ParamMsg) (w : Nat) : BitVec 31 :=
  BitVec.ofNat 31 (sumNat ((List.range 31).map fun u => field (bitsOf (paramFlit m).message (64 * u + w) 1) u 1))

/-- The message that a received flit or parity frame carries; none unless its header is that of a PARAM message. -/
def paramOf (f : Flit) : Option ParamMsg :=
  let body := BitVec.ofNat 1920 (sumNat ((List.range 15).map fun i => (f.cells.getD i 0).toNat <<< (128 * i)))
  let m := ParamMsg.ofBody body
  if f.header = (paramFlit m).header then some m else none

end Sys2Proof.Machine
end

