-- ==== Sys2Proof/Machine/Link.lean ====
section
/-!
DEFINITION. The link layer of a port: credit arithmetic with credit partitions (R128–R133, R302),
acknowledgement and replay (R120–R125), the sequence check with the twin merge (R117, R119, R129, R130, R317,
R318), and the timers (R121, R125, R120, R132, R139).
-/

namespace Sys2Proof.Machine
open Sys2Proof

/-! ### Credit (R128, R131, R132, R302) -/

/-- X = Σ max(0, U_v − RSV_v) over the credited VCs. -/
def excess (uv rsv : List Nat) : Nat :=
  sumNat ((List.range 16).map fun v => if v = 0 then 0 else uv.getD v 0 - rsv.getD v 0)

/-- δ of a transaction of `n` cells on VC `v` (R302). -/
def delta (p : Port) (v n : Nat) : Nat :=
  (p.uv.getD v 0 + n - p.rsvP.getD v 0) - (p.uv.getD v 0 - p.rsvP.getD v 0)

/-- The row of a tenancy in `ten_partitions`. -/
def partRow (s : State) (t : Nat) : Nat := (s.rows 0xA000 0x02).getD t 0x4000000

/-- rmin_t on a port, 0 while the tenancy is not ADMITTED (R298, R301). -/
def rminOf (s : State) (sh t : Nat) : Nat :=
  if tenState s t = 0 then sh * bitsOf (partRow s t) 0 11 / 1024 else 0

/-- cap_t on a port, 0 while the tenancy is not ADMITTED (R298, R301). -/
def capOf (s : State) (sh t : Nat) : Nat :=
  if tenState s t = 0 then sh * bitsOf (partRow s t) 16 11 / 1024 else 0

/-- Σ over u ≠ t of max(0, rmin_u − ST_u) (R302). -/
def reservedOthers (s : State) (p : Port) (t : Nat) : Nat :=
  if (s.rows 0xA000 0x02).isEmpty then 0
  else sumNat ((List.range 256).map fun u => if u = t then 0 else rminOf s p.shP u - mgetD p.st u 0)

/-- The port as it stood before the returns of this cc, which can be used from the next (R132, R144). -/
def beforeReturns (p : Port) : Port :=
  { p with uv := (List.range 16).map fun v => p.uv.getD v 0 + p.lateUv.getD v 0,
           st := p.lateSt.foldl (fun m x => mset m x.1 (mgetD m x.1 0 + x.2)) p.st }

/-- The checks of R131 and R302 for a transaction. -/
def creditOk (s : State) (q : Nat) (t : Ten) (v n : Nat) : Bool :=
  let p := beforeReturns (s.port q)
  let d := delta p v n
  let x := excess p.uv p.rsvP + d
  d == 0 && decide (excess p.uv p.rsvP ≤ p.shP)
    || (decide (x ≤ p.shP) && decide (mgetD p.st t.toNat 0 + d ≤ capOf s p.shP t.toNat)
        && decide (x ≤ p.shP - reservedOthers s p t.toNat))

/-- Consume the credit of a transaction and charge its tenancy (R131, R302). -/
def chargeCredit (t : Ten) (v n : Nat) (p : Port) : Port :=
  let d := delta p v n
  let p := { p with uv := addAt v n p.uv }
  if d = 0 then p
  else { p with st := mset p.st t.toNat (mgetD p.st t.toNat 0 + d),
                charges := setAt v (p.charges.getD v [] ++ [(t.toNat, d)]) p.charges }

/-- Take `r` charged cells from the head of a charge FIFO (R302). -/
def uncharge : (r : Nat) → List (Nat × Nat) → NMap Nat → List (Nat × Nat) × NMap Nat
  | _, [], st => ([], st)
  | r, (t, d) :: cs, st =>
    let k := min r d
    let left := mgetD st t 0 - k
    let st := if left = 0 then mdel st t else mset st t left
    if d ≤ r then uncharge (r - d) cs st else ((t, d - k) :: cs, st)

/-- Apply a credit return of `n` cells on VC `v` (R132, R133, R302); true when it was cut short or ignored. -/
def returnCredit (v n : Nat) (p : Port) : Port × Bool :=
  if v = 0 then (p, true)
  else
    let u := p.uv.getD v 0
    let u' := u - n
    let r := (u - p.rsvP.getD v 0) - (u' - p.rsvP.getD v 0)
    let (fifo, st) := uncharge r (p.charges.getD v []) p.st
    let back := (p.st.map fun x => (x.1, x.2 - mgetD st x.1 0)).filter fun x => x.2 != 0
    ({ p with uv := setAt v u' p.uv, charges := setAt v fifo p.charges, st := st, lateUv := addAt v (u - u') p.lateUv,
              lateSt := back.foldl (fun m x => mset m x.1 (mgetD m x.1 0 + x.2)) p.lateSt }, decide (u < n))

/-- Apply a return at a port and count it when it is ignored or cut short; a pair counts A_v (R321). -/
def applyReturn (s : State) (q v n : Nat) : State :=
  if n = 0 then s
  else
    let (p, bad) := returnCredit v n (s.port q)
    let s := s.setPort q p
    let s := if bad then s.pbump 0x5001 q 0x0E 1 else s
    match pairOf s q with
    | some k => s.modPair k fun pr => { pr with av := setAt v ((pr.av.getD v 0 + n) % 65536) pr.av }
    | none => s

/-! ### Acknowledgement and replay (R122–R125) -/

/-- Progress past the flit of the last retrain clears RA (R148). -/
def clearRa (p : Port) : Port := { p with ra := if p.raMark.isSome then 0 else p.ra, raMark := none }

/-- Free the `n` oldest replay entries (R122); they can be used from the next cc (R126). -/
def freeOldest (n : Nat) (p : Port) : Port :=
  if n = 0 then p
  else
    let freed := (List.range n).map fun i => p.o + BitVec.ofNat 12 i
    { clearRa p with
      o := p.o + BitVec.ofNat 12 n, replay := p.replay.drop n, replayCnt := 0, freedNow := p.freedNow + n,
      replayLost := p.replayLost.filter fun f => !freed.contains f,
      replayPtr := p.replayPtr.bind fun i => if p.replay.length ≤ n then none else some (i - n),
      fresh := min p.fresh (p.replay.length - n) }

/-- The port and its twin sibling make progress together: RA and its mark are kept per unit (R148, R314). -/
def freeAt (s : State) (q n : Nat) : State :=
  let s := s.modPort q (freeOldest n)
  match sibling s q with
  | some b => if n = 0 then s else s.modPort b clearRa
  | none => s

/-- `start_replay` (R124) for a flit at O with a replay count: a replay from O, or LINK_RETRAIN when the flit has had its
limit. In a cc in which a replay has started already it only starts again from O (R144). `gone` says that the flit was
freed in the same cc, so that the flit now at O has no count. -/
def replayAgain (s : State) (q cnt : Nat) (gone : Bool) : State :=
  let p := s.port q
  let ptr := if p.replay.isEmpty then none else some 0
  if p.replayAt = some s.now then s.modPort q fun p => { p with replayPtr := ptr }
  else if s.pget 0x5000 q 0x13 4 ≤ cnt then requestRetrain s (activeUnit s q) true
  else
    (s.modPort q fun p =>
      { p with replayCnt := if gone then 0 else cnt + 1, replayPtr := ptr, replayAt := some s.now }).pbump 0x5001 q 0x07 1

/-- A replay starts for the flit at O. -/
def startReplay (s : State) (q : Nat) : State := replayAgain s q (s.port q).replayCnt false

/-- `process_ack` (R122): the state with the entries freed, how many, and whether a NAK calls for a replay. -/
def processAck (s : State) (q : Nat) (kind : BitVec 2) (a : Fseq) : State × Nat × Bool :=
  if kind = 0 then (s, 0, false)
  else if kind = 3 then (s.pbump 0x5001 q 0x0D 1, 0, false)
  else
    let p := s.port q
    let n := (a - p.o + 1).toNat
    if p.replay.length < n then (s.pbump 0x5001 q 0x0D 1, 0, false)
    else
      let s := freeAt s q n
      if kind = 2 then (s.pbump 0x5001 q 0x06 1, n, !(s.port q).replay.isEmpty) else (s, n, false)

/-! ### Receiving cells (R129, R130) -/

/-- LVC of a framing byte. -/
def lvcOf (c : Cell) : Nat := (c.extractLsb' 0 4).toNat
/-- LCNT of a framing byte. -/
def lcntOf (c : Cell) : Nat := (c.extractLsb' 4 4).toNat

/-- Cells of each VC in the receive buffer of a port, the open transaction with all its cells. -/
def rxUsed (p : Port) : List Nat :=
  let base := p.rx.foldl (fun u w => addAt w.vc w.txn.size u) (List.replicate 16 0)
  match p.rxOpen with
  | some o => addAt o.vc (o.cells.length + o.left) base
  | none => base

/-- What a DATA flit's cells make of the cell stream. -/
structure Unpack where
  used : List Nat
  open_ : Option RxOpen
  done : List (Nat × List Cell)
deriving DecidableEq, Repr

/-- Why a DATA flit is handled as bad under R130. -/
inductive UnpackErr where
  | framing | overrun
deriving DecidableEq, Repr

/-- Unpack the payload cells of a DATA flit into the stream (R129, R130). A pad cell ends the flit; a transaction
of another cell count than its opcode requires is broken framing (R213). -/
def unpack (rsv : List Nat) (sh : Nat) : List Cell → Unpack → Except UnpackErr Unpack
  | [], u => .ok u
  | c :: cs, u =>
    match u.open_ with
    | some o =>
      let o := { o with left := o.left - 1, cells := o.cells ++ [c] }
      if o.left = 0 then unpack rsv sh cs { u with open_ := none, done := u.done ++ [(o.vc, o.cells)] }
      else unpack rsv sh cs { u with open_ := some o }
    | none =>
      let v := lvcOf c
      if v = 0 then .ok u
      else
        let n := lcntOf c + 1
        if ((Txn.ofCells c []).exactCells).getD n ≠ n then .error .framing
        else
          let used := addAt v n u.used
          if sh < excess used rsv then .error .overrun
          else if n = 1 then unpack rsv sh cs { u with used := used, done := u.done ++ [(v, [c])] }
          else unpack rsv sh cs { u with used := used, open_ := some { vc := v, left := n - 1, cells := [c] } }

/-- Count the cells of an accepted flit by VC (R421). -/
def countRxCells (cells : List (Nat × List Cell)) (p : Port) : Port :=
  cells.foldl (fun p x => obsAdd (16 + x.1) x.2.length p) p

/-- The transactions completed by a DATA flit enter the receive buffer. -/
def storeTxns (s : State) (q : Nat) (done : List (Nat × List Cell)) : State :=
  done.foldl
    (fun s x =>
      match x.2 with
      | [] => s
      | h :: data =>
        (s.modPort q fun p =>
          { p with rx := p.rx ++ [{ txn := Txn.ofCells h data, vc := x.1, seq := s.seqNo, at_ := s.now, from_ := some q }] }).bumpSeq)
    s

/-- Cells of a CTRL flit before its pad (R135). -/
def ctrlCells : List Cell → List Cell
  | [] => []
  | c :: cs => if c.extractLsb' 0 8 = 0 then [] else c :: ctrlCells cs

/-- Accept a CTRL cell: a beacon names the epoch of the SCHED flits that follow it (R183). -/
def acceptCtrl (s : State) (q : Nat) (live : Bool) (c : Cell) : State :=
  let s := s.tev 8 q 0 false (c.extractLsb' 0 64)
  s.modPort q fun p =>
    { p with ctrlIn := p.ctrlIn ++ [{ cell := c, live := live, at_ := s.now }],
             beaconEpoch := if c.extractLsb' 0 8 = 2 then some (c.extractLsb' 16 48) else p.beaconEpoch }

/-- The port shows activity: the idle count restarts and IDLE is left (R397). -/
def markActive (s : State) (q : Nat) : State :=
  s.modPort q fun p => { p with idleAt := s.now, idle := false }

/-- The credit return in a header of an accepted flit (R132, R133). -/
def headerReturn (s : State) (q : Nat) (f : Flit) : State :=
  if f.crcnt = 0 then (if f.crvc = 0 then s else s.pbump 0x5001 q 0x0E 1)
  else applyReturn s q f.crvc.toNat f.crcnt.toNat

/-- Pass on the payload of an accepted flit that is no DATA flit. -/
def passPayload (s : State) (q : Nat) (f : Flit) : State :=
  if f.ftype = 2 then
    s.modPort q fun p => obsAdd 16 15 { p with schedIn := p.schedIn ++ [{ flit := f, epoch := p.beaconEpoch, at_ := s.now }] }
  else (ctrlCells f.cells).foldl (fun s c => acceptCtrl s q (!f.rply && !f.hold) c) s

/-! ### The sequence check (R119) -/

/-- What the flits of one cc have called for so far. -/
structure SeqAcc where
  bad : Bool := false
  gap : Bool := false
  rply : Bool := false
  full : Bool := false
  /-- A NAK called for a replay: the replay count of the flit then at O, and whether a later acknowledgement of this cc
  freed it. -/
  nak : Option (Nat × Bool) := none
  dup : Bool := false
  k : Nat := 0
  seqd : List Flit := []
deriving DecidableEq, Repr

/-- Insert a flit by its distance ahead of E. -/
def insertByDist (e : Fseq) (f : Nat × Flit) : List (Nat × Flit) → List (Nat × Flit)
  | [] => [f]
  | g :: gs => if (f.2.fseq - e).toNat < (g.2.fseq - e).toNat then f :: g :: gs else g :: insertByDist e f gs

/-- Flits in ascending distance ahead of E, those of equal distance in the order in which they came. -/
def sortByDist (e : Fseq) (fs : List (Nat × Flit)) : List (Nat × Flit) := fs.foldl (fun l f => insertByDist e f l) []

/-- The flits that R130 handles as bad, by position, each at its turn in the sequence check. -/
def brokenFlits (p : Port) : List (Nat × Flit) → Nat → Unpack → List (Nat × UnpackErr)
  | [], _, _ => []
  | (i, f) :: fs, k, u =>
    if (f.fseq - p.e).toNat ≠ k then brokenFlits p fs k u
    else if f.ftype = 1 then
      match unpack p.rsvA p.shA f.cells u with
      | .ok u' => brokenFlits p fs (k + 1) u'
      | .error er => (i, er) :: brokenFlits p fs k u
    else brokenFlits p fs (k + 1) u

/-- The flit goes to the sequence check: it is good, of the current GEN, and sequenced. -/
def isSeqd (p : Port) (c : Checked) : Bool := !c.bad && c.flit.gen == p.gen && decide (c.flit.ftype.toNat ≤ 3)

/-- The checked flits of one cc, each with what R130 finds wrong in it: such a flit is bad in every respect (R117), so no
field of it may be used before this is known. -/
def withBroken (p : Port) (cs : List Checked) : List (Checked × Option UnpackErr) :=
  let seqd := ((withIdx cs).filter fun x => isSeqd p x.2).map fun x => (x.1, x.2.flit)
  let broken := brokenFlits p (sortByDist p.e seqd) 0 ⟨rxUsed p, p.rxOpen, []⟩
  (withIdx cs).map fun x => (x.2, (broken.find? fun b => b.1 == x.1).map (·.2))

/-- First pass of R119 over one checked flit. -/
def firstPass (q : Nat) (x : State × SeqAcc) (ce : Checked × Option UnpackErr) : State × SeqAcc :=
  let (s, a) := x
  let (c, err) := ce
  let bad := c.bad || err.isSome
  let s := if c.corrected = 0 then s else s.pbump64 0x5001 q 0x03 c.corrected
  let s := if c.wires.isEmpty then s else s.modPort q (obsAdd 61 c.wires.length)
  let s := s.tev 2 q 0 bad c.flit.header
  let s := if err = some .overrun then s.pbump 0x5001 q 0x0F 1 else s
  if bad then (s.pbump64 0x5001 q 0x04 1, { a with bad := true })
  else if c.flit.gen ≠ (s.port q).gen then (s.pbump 0x5001 q 0x0C 1, { a with full := true })
  else if c.flit.ftype = 5 then (s.pbump 0x5001 q 0x0D 1, a)
  else
    let (s, n, rep) := processAck s q c.flit.ackk c.flit.ackseq
    let nak := match a.nak with
      | some (cnt, gone) => some (cnt, gone || n != 0)
      | none => if rep then some ((s.port q).replayCnt, false) else none
    let a := { a with nak := nak, rply := a.rply || c.flit.rply }
    if c.flit.ftype = 4 then
      -- An ACKO returns no credit: CRCNT other than 0 is ignored, and so is CRVC other than 0 with CRCNT = 0 (R133).
      ((if c.flit.crcnt = 0 ∧ c.flit.crvc = 0 then s else s.pbump 0x5001 q 0x0E 1), a)
    else (s, { a with seqd := a.seqd ++ [c.flit] })

/-- Second pass of R119 over one sequenced flit, in ascending distance from E. -/
def secondPass (q : Nat) (e : Fseq) (x : State × SeqAcc) (f : Flit) : State × SeqAcc :=
  let (s, a) := x
  let d := (f.fseq - e).toNat
  if 2048 ≤ d then (s.pbump64 0x5001 q 0x0A 1, { a with dup := true })
  else if d ≠ a.k then (s.pbump64 0x5001 q 0x0B 1, { a with gap := true })
  else
    let p := s.port q
    let took (s : State) : State := markActive ((headerReturn s q f).pbump64 0x5001 q 0x02 1) q
    if f.ftype = 1 then
      match unpack p.rsvA p.shA f.cells ⟨rxUsed p, p.rxOpen, []⟩ with
      | .ok u =>
        let s := s.modPort q fun p => countRxCells u.done { p with rxOpen := u.open_ }
        (took (storeTxns s q u.done), { a with k := a.k + 1 })
      | .error _ => (s, { a with bad := true })
    else (took (passPayload s q f), { a with k := a.k + 1 })

/-- A NAK is called for when R120 allows it. -/
def callNak (a : SeqAcc) (p : Port) : Port :=
  if (a.bad || a.gap) && (!p.nakSent || p.nakOver || p.rplySeen) then
    { p with nakOwed := true, nakSent := true, nakOver := false, rplySeen := false }
  else p

/-- `receive_cc` (R119) over the checked flits of one cc, with the order of strength of R143. -/
def receiveCc (s : State) (q : Nat) (cs : List Checked) : State :=
  let (s, a) := (withBroken (s.port q) cs).foldl (firstPass q) (s, {})
  let e := (s.port q).e
  let sorted := (sortByDist e (withIdx a.seqd)).map (·.2)
  let (s, a) := sorted.foldl (secondPass q e) (s, a)
  let s := s.modPort q fun p =>
    { p with e := p.e + BitVec.ofNat 12 a.k,
             ackAt := if a.k ≠ 0 ∨ a.dup then some (p.ackAt.getD s.now) else p.ackAt,
             nakSent := if a.k ≠ 0 then false else p.nakSent,
             rplySeen := p.rplySeen || a.rply }
  if a.full then requestFull s (activeUnit s q) 3 true
  else
    let s := s.modPort q (callNak a)
    match a.nak with
    | some (cnt, gone) => replayAgain s q cnt gone
    | none => s

/-! ### The twin merge (R317, R318) -/

/-- A checked flit with the unit and bundle on which it came. -/
structure Copy where
  unitB : Bool
  bundle : Nat
  c : Checked
deriving DecidableEq, Repr

/-- The dual-action window of a pair is running (R321). -/
def inWindow (s : State) (k : Nat) : Bool :=
  (s.twins.getD k {}).window.isSome

/-- TOUT names the facing unit (R323): TWIN_A faces TWIN_A. The code of the partner's unit is the port that its
hellos and PARAM name. -/
def toutCell (oport cause : Nat) : Cell := BitVec.ofNat 128 (9 + field oport 8 4 + field cause 12 4)

/-- A service record for a unit that left its pair (R318, R320). -/
def twinRecord (s : State) (k q detail : Nat) : State := s.service 0x20 7 k q detail

/-- The vigil count of a pair reached its threshold at a mismatch of a unit's copy (R318): the unit leaves, TOUT
goes to the partner, a record opens. -/
def vigilOut (s : State) (k q : Nat) : State :=
  let facing := (s.port q).partnerPort
  let a := pairA s k
  let s := s.modPort a fun p => { p with ctrlOut := p.ctrlOut ++ [toutCell facing 1] }
  twinRecord (unitLeaves s q) k q 1

/-- One discarded copy is compared with the copy kept (R318). -/
def vigilCompare (s : State) (k q : Nat) (kept gone : Flit) : State :=
  let i := 0xB300 + 16 * k
  let s := s.bump64 i 0x04 1
  if kept.header = gone.header ∧ kept.cells = gone.cells then s
  else
    let s := s.bump i 0x05 1
    let s := s.modPair k fun pr =>
      let old := if pr.vigilAt + 1000000 ≤ s.now then 0 else pr.vigil
      { pr with vigil := old + 1, vigilAt := if old = 0 then s.now else pr.vigilAt,
                health := gone.fseq.toNat + field q 12 4 + field s.now 16 48 }
    let thr := s.get i 0x07 4
    if thr ≠ 0 ∧ thr ≤ (s.twins.getD k {}).vigil ∧ siblingMerged s q then
      vigilOut (s.modPair k fun pr => { pr with vigil := 0 }) k q
    else s

/-- Bundles in use that lie below a bundle: its place among them. -/
def rankIn (mask b : Nat) : Nat := ((List.range b).filter (bitAt mask)).length

/-- The bundle in use at a place. -/
def bundleAt (mask r : Nat) : Nat := ((List.range 16).filter (bitAt mask)).getD r 0

/-- A copy is sequenced: DATA, SCHED or CTRL. -/
def Copy.seqd (x : Copy) : Bool := !x.c.bad && decide ((x.c.flit.ftype).toNat ≤ 3)

/-- The merge of one cc (R317): foreign GEN takes a unit out, a bad copy covered by its sibling is no bad flit,
and of two good copies of one FSEQ the active unit's is kept. Both units drive the same flits in the order of their bundles
in use, whose number is equal (R320), so copies belong together by their place in that order (log entry 124). -/
def mergeTwin (s : State) (k : Nat) (xs : List Copy) : State × List Checked :=
  let a := pairA s k
  let b := pairB s k
  let unitOf (x : Copy) : Nat := if x.unitB then b else a
  let live := xs.filter fun x => (roleOf s k (unitOf x)).merged && (s.port (unitOf x)).state == .active
  if !((roleOf s k a).merged && (roleOf s k b).merged) then (s, live.map (·.c))
  else
    let gen := (s.port a).gen
    let foreign := live.filter fun x => !x.c.bad && x.c.flit.gen != gen
    match foreign with
    | f :: _ =>
      -- The unit leaves; its sibling's copies carry the pair on.
      let s := (requestFull s (unitOf f) 3 true).pbump 0x5001 a 0x0C foreign.length
      (s, (live.filter fun x => unitOf x != unitOf f).map (·.c))
    | [] =>
      let place (x : Copy) : Nat := rankIn (s.port (unitOf x)).mask x.bundle
      let covered (x : Copy) : Bool :=
        x.c.bad && live.any fun y => !y.c.bad && y.unitB != x.unitB && place y == place x
      let s := s.bump64 (0xB300 + 16 * k) 0x06 (live.filter covered).length
      let live := live.filter fun x => !covered x
      let act := activeUnit s a
      let dupOf (x : Copy) : Option Copy :=
        if !x.seqd || unitOf x == act then none
        else live.find? fun y => y.seqd && unitOf y == act && y.c.flit.fseq == x.c.flit.fseq
      let keep := (live.filter fun x => (dupOf x).isNone).map (·.c)
      let s := if inWindow s k then s else
        live.foldl (fun s x => match dupOf x with
          | some y => vigilCompare s k (unitOf x) y.c.flit x.c.flit
          | none => s) s
      (s, keep)

/-! ### The samples of a wire port (R63, R64, R82, R84) -/

/-- The unit on which a flit came: bundles 16 and up are TWIN_B's. -/
def rxUnit (s : State) (q : Nat) (r : RxFlit) : Nat :=
  match pairOf s q with
  | some k => if 16 ≤ r.bundle then pairB s k else pairA s k
  | none => q

/-- The bundle on which a flit came. -/
def rxBundle (s : State) (q : Nat) (r : RxFlit) : Bundle := (s.port (rxUnit s q r)).bundles.getD (r.bundle % 16) {}

/-- VLD is decoded (R64): an empty cc is no flit, an ambiguous one is a flit and counts. -/
def countVld (q : Nat) (s : State) (r : RxFlit) : State :=
  if decodeVld r.vld = .ambiguous then s.bump (0x3000 + 256 * rxUnit s q r) 0x0D 1 else s

/-- The flits among the samples of a cc, with the wires of the spare maps read from their spares (R82, R86). -/
def wireFlits (s : State) (q : Nat) (rs : List RxFlit) : List RxFlit :=
  (rs.filter fun r => decodeVld r.vld != .empty).map fun r =>
    { r with bits := BitVec.ofNat 2048 (steered (rxBundle s q r).spareMap r.spares r.bits.toNat) }

/-- Errors that a flit shows on the wires of its bundle: those the locator assigns (R85, R115), and of a good flit the
mismatches of the idle spares that have not failed (R84). -/
def wireErrors (s : State) (q : Nat) (r : RxFlit) (c : Checked) : List (Nat × Nat) :=
  let u := rxUnit s q r
  let map := (rxBundle s q r).spareMap
  if crcOnly s u || ucieMode s u then []
  else
    c.wires.map (fun w => (w, 1))
      ++ (if c.bad || r.spares.isEmpty then []
          else ((List.range 4).filter fun g => !bitAt map (5 * g + 4) && !bitAt map (24 + g)).map fun g =>
            (64 + g, spareMismatches c.flit.wireBits.toNat g (r.spares.getD g 0)))

/-- The errors of a flit are counted at its bundle. -/
def countWireErrors (q : Nat) (s : State) (x : RxFlit × Checked) : State :=
  let es := wireErrors s q x.1 x.2
  if es.all (fun e => e.2 == 0) then s
  else s.modBundle (rxUnit s q x.1) (x.1.bundle % 16) (countErrors s.now es)

/-- The flits of one cc at a port: those of the codewords first, then those presented (R95, R118). -/
def receiveFlits (s : State) (q : Nat) (flits : List RxFlit) : State :=
  let l := logical s q
  let all := (s.port l).slotsIn ++ flits
  let s := s.modPort l fun p => { p with slotsIn := [] }
  if !linkUp s l then s
  else if Config.isReach q then receiveCc s q (all.map checkReach)
  else
    let s := all.foldl (countVld q) s
    let got := wireFlits s q all
    let check (r : RxFlit) : Checked := if ucieMode s q then checkUcie r.bits else checkWire r.bits
    let s := (got.map fun r => (r, check r)).foldl (countWireErrors q) s
    match pairOf s q with
    | none => receiveCc s q (got.map check)
    | some k =>
      let (s, cs) := mergeTwin s k (got.map fun r => ⟨decide (16 ≤ r.bundle), r.bundle % 16, check r⟩)
      if linkUp s l then receiveCc s l cs else s

/-- FLIT_RECEIVE (R119). -/
def execFlitReceive (q : PortId) (flits : List RxFlit) (s : State) : Host.Outcome State Fault Refusal :=
  onPort s q (receiveFlits s q flits)

/-! ### Timers and control cells -/

/-- ACK_DELAY_EXPIRY (R121): an ACKO is owed. -/
def execAckDelayExpiry (q : PortId) (s : State) : Host.Outcome State Fault Refusal :=
  onPort s q (s.modPort (logical s q) fun p => if p.ackAt.isSome then { p with ackOwed := true } else p)

/-- ACK_TIMEOUT (R125). -/
def execAckTimeout (q : PortId) (s : State) : Host.Outcome State Fault Refusal :=
  let l := logical s q
  onPort s q
    (if linkUp s l ∧ !(s.port l).replay.isEmpty then (startReplay s l).pbump 0x5001 l 0x09 1 else s)

/-- NAK_GUARD_EXPIRY (R120). -/
def execNakGuardExpiry (q : PortId) (s : State) : Host.Outcome State Fault Refusal :=
  onPort s q (s.modPort (logical s q) fun p => if p.nakSent then { p with nakOver := true } else p)

/-- CREDIT_DELAY_EXPIRY (R132): CREDIT cells for every VC with a pending count. -/
def execCreditDelayExpiry (q : PortId) (s : State) : Host.Outcome State Fault Refusal :=
  let l := logical s q
  onPort s q
    (if linkUp s l ∧ (s.port l).pend.any (· != 0) then s.modPort l fun p => { p with credOut := true } else s)

/-- The first control cell that waits at a port, when its CTYPE is the given one. -/
def ctrlHead (s : State) (q : Nat) (ctype : Nat) : Option CtrlIn :=
  match (s.port q).ctrlIn with
  | c :: _ => if (c.cell.extractLsb' 0 8).toNat = ctype then some c else none
  | [] => none

/-- The port without its first waiting control cell. -/
def dropCtrl (s : State) (q : Nat) : State := s.modPort q fun p => { p with ctrlIn := p.ctrlIn.drop 1 }

/-- The seven entries of a CREDIT cell (R136). -/
def creditEntries (c : Cell) : List (Nat × Nat) :=
  (List.range 7).map fun e => ((c.extractLsb' (16 * e + 16) 4).toNat, (c.extractLsb' (16 * e + 20) 12).toNat)

/-- CREDIT (R136). -/
def execCredit (q : PortId) (s : State) : Host.Outcome State Fault Refusal :=
  let l := logical s q
  onPort s q
    (match ctrlHead s l 1 with
     | some c => (creditEntries c.cell).foldl (fun s x => applyReturn s l x.1 x.2) (dropCtrl s l)
     | none => s)

/-- CTYPE codes that no rule gives a cell (R135, R323). -/
def unknownCtype (n : Nat) : Bool := decide (0x0A ≤ n)

/-- UNKNOWN_CTRL (R135). -/
def execUnknownCtrl (q : PortId) (s : State) : Host.Outcome State Fault Refusal :=
  let l := logical s q
  onPort s q
    (match (s.port l).ctrlIn with
     | c :: _ => if unknownCtype (c.cell.extractLsb' 0 8).toNat then (dropCtrl s l).pbump 0x5001 l 0x11 1 else s
     | [] => s)

end Sys2Proof.Machine
end

