-- ==== Sys2Proof/Machine/Firewall.lean ====
section
/-!
DEFINITION. The hub firewall (R353–R356) and the entry of every transaction command: the transaction at a place,
when it has the opcode of the command, after the firewall when it came over a firewall port.
-/

namespace Sys2Proof.Machine
open Sys2Proof

/-- The opcode is one a transaction may carry on a link (R213, R251, R275, R383). -/
def legalOpc (opc : BitVec 8) : Bool :=
  isMem opc || opc == 0x20 || opc == 0x21 || opc == 0x80 || isSync opc || isCoh opc || isRed opc || isMgmt opc

/-- The opcode is one that a transaction may have at a place: on a link (R213), or on its IFI channel (R14, R31). -/
def legalAt (pl : Place) (opc : BitVec 8) : Bool :=
  match pl with
  | .ifi .req _ => isMem opc || opc == 0x0F || isSync opc || isMgmt opc
  | .ifi .msg _ => opc == 0x20 || opc == 0x21
  | .ifi .inr _ => opc == 0x80 || opc == 0x48 || opc == 0x49
  | .ifi .snp _ => isSnoop opc
  | .ifi .sch _ => true
  | .ifi .red _ => opc == 0x62 || opc == 0x63 || opc == 0x65
  | _ => legalOpc opc && opc != 0x21 && opc != 0x62 && opc != 0x63 && opc != 0x64 && opc != 0x65

/-- The OPMASK bit of an opcode (R354). -/
def opmaskBit (opc : BitVec 8) : Option Nat :=
  match opc.toNat with
  | 0x01 => some 0 | 0x02 => some 1 | 0x03 => some 2
  | 0x20 => some 4
  | 0x32 | 0x33 | 0x34 => some 5
  | 0x31 => some 6
  | 0x30 | 0x37 => some 7
  | 0x35 | 0x36 => some 8
  | _ => if isAtomic opc then some 3 else none

/-- The target of a request as KIND and value: page, QID or SID (R355). -/
def ruleTarget (t : Txn) : Nat × Nat :=
  match t.head with
  | .mem _ _ _ g => (0, g.toNat / 4096)
  | .msg _ _ _ _ qid => (1, qid.toNat)
  | .sync _ _ sid _ => (2, sid.toNat)
  | _ => (3, 0)

/-- A rule of R354 matches a request that arrived on a port (R355). -/
def ruleMatches (q : Nat) (t : Txn) (r : Nat) : Bool :=
  let kind := bitsOf r 4 2
  let (tk, v) := ruleTarget t
  bitAt r 0 && bitAt r (16 + q) && (bitAt r 2 || bitsOf r 8 8 == t.ten.toNat)
    && (match opmaskBit t.opc with | some b => bitAt r (32 + b) | none => false)
    && (kind == 3 || (kind == tk && decide (bitsOf r 64 46 ≤ v) && decide (v ≤ bitsOf r 128 46)))

/-- The first rule that matches: its index and row (R355). -/
def fwRule (s : State) (q : Nat) (t : Txn) : Option (Nat × Nat) :=
  let rows := s.rows 0xC001 0x01
  ((List.range rows.length).find? fun i => ruleMatches q t (rows.getD i 0)).map fun i => (i, rows.getD i 0)

/-- Units in the bucket of a rule; a bucket that was never charged is full (R356). -/
def bucketOf (s : State) (i r : Nat) : Nat := mgetD s.fw.bucket i (bitsOf r 208 16 * 1024)

/-- What the firewall decides (R353). -/
inductive FwOutcome where
  | pass (rule : Nat) (left : Nat)
  | wait (rule : Nat)
  | deny (status : BitVec 8)
deriving DecidableEq, Repr

/-- Destination package of a request. -/
def destPkg (t : Txn) : Pkg :=
  match t.head with
  | .mem _ _ _ g => gpaPkg g
  | .msg _ _ _ d _ => d
  | .sync _ d _ _ => d
  | .mgmt _ d _ _ _ _ _ => d
  | _ => 0

/-- The opcode is none that a firewall port takes as a request: 0x40–0x7F, or illegal on a link (R214, R353). -/
def fwOpcBad (opc : BitVec 8) : Bool :=
  (decide (0x40 ≤ opc.toNat) && decide (opc.toNat < 0x80)) || !legalOpc opc || opc == 0x21

/-- Checks 1 to 4 of R353 in their order: the status of the first that fails. -/
def fwStatus (s : State) (q : Nat) (t : Txn) : Option (BitVec 8) :=
  if fwOpcBad t.opc then some 0x16
  else if t.spkg.toNat ≠ ownPkg s ∨ t.sdie ≠ (s.port q).partnerDie then some 0x16
  else if (destPkg t).toNat ≠ ownPkg s then some 0x16
  else if quiesced s t.ten then some 0x04
  else none

/-- Checks 5 and 6 of R353 against the first rule that matches. -/
def fwByRule (s : State) (t : Txn) : Option (Nat × Nat) → FwOutcome
  | none => .deny 0x16
  | some (i, r) =>
    if !bitAt r 1 then .deny 0x16
    else if bitsOf r 192 16 = 0 then .wait i
    else if t.size * 1024 ≤ bucketOf s i r then .pass i (bucketOf s i r - t.size * 1024)
    else .wait i

/-- The checks of R353 in their order. -/
def fwCheck (s : State) (q : Nat) (t : Txn) : FwOutcome :=
  match fwStatus s q t with
  | some st => .deny st
  | none => fwByRule s t (fwRule s q t)

/-- A refused request: completed with its status, or discarded when posted (R353). -/
def fwRefuse (s : State) (pl : Place) (t : Txn) (status : BitVec 8) : State :=
  let s := (takeAt s pl).bump64 0xC002 0x01 1
  if isPosted t.opc then s.bump 0xC002 0x04 1 else answerRemote s t status 0 []

/-- A match is counted by its rule (R355). -/
def countHit (s : State) (i : Nat) : State :=
  { s with fw := { s.fw with hits := mset s.fw.hits i (satAdd 64 (mgetD s.fw.hits i 0) 1) } }

/-- Take the units of an admitted transaction from the bucket (R356). -/
def takeBucket (s : State) (i left : Nat) : State := { s with fw := { s.fw with bucket := mset s.fw.bucket i left } }

/-- An earlier transaction of the same VC waits at a bucket (R356). -/
def behindBucket (s : State) (q k : Nat) (vc : Nat) : Bool :=
  ((s.port (logical s q)).rx.take k).any fun w => w.step == 10 && w.vc == vc

/-- A transaction that arrived on a firewall port reaches the firewall; one it admits goes on at once. The match is counted when
check 5 is made, and not again while the transaction waits at its bucket (log entry 136). -/
def atFirewall (s : State) (pl : Place) (q k : Nat) (w : Waiting) (f : State → Waiting → State) : State :=
  if behindBucket s q k w.vc then s
  else
    let s := match fwStatus s q w.txn, fwRule s q w.txn with
      | none, some (i, _) => countHit s i
      | _, _ => s
    match fwCheck s q w.txn with
    | .deny st => fwRefuse s pl w.txn st
    | .wait _ => putAt s pl { w with step := 10 }
    | .pass i left =>
      let w := { w with step := 11 }
      f (putAt (takeBucket s i left) pl w) w

/-- The transaction has not been decided: it has not been routed, held or served. -/
def undecided (w : Waiting) : Bool := w.step == 0 || w.step == 10 || w.step == 11 || w.step == 13

/-- Package and die to which a transaction goes. -/
def streamDest (s : State) (t : Txn) : Pkg × Option Nat :=
  match destPair s t with
  | (pkg, .ok d) => (pkg, some d)
  | (pkg, .error _) => (pkg, none)

/-- Two transactions of one buffer belong to one stream: source, destination, VC and TEN (R237). All those of an IFI buffer
come from this die. -/
def sameStream (s : State) (ifi : Bool) (a b : Txn) : Bool :=
  a.ten == b.ten && (ifi || (a.spkg == b.spkg && a.sdie == b.sdie)) && outVc s a == outVc s b
    && streamDest s a == streamDest s b

/-- An earlier transaction of the stream waits in the same buffer, undecided or for its local service (R237). Completions keep
no such order. -/
def behindStream (s : State) (pl : Place) (w : Waiting) : Bool :=
  w.txn.opc != 0x80 && w.txn.opc != 0x21
    && (aheadAt s pl).any fun x =>
        (undecided x || (x.step == 8 && x.txn.opc == 0x20)) && sameStream s (placeIsIfi pl) x.txn w.txn

/-- Everything in the receive path, with its CPORT; 15 for the own path of R444. -/
def receivePath (s : State) : List (Nat × Waiting) :=
  ((List.range 10).map fun q => (s.port q).rx.map fun w => (q, w)).flatten ++ s.ownQ.map fun w => (15, w)

/-- A CPL for this die that reached it earlier has not been used yet (R226). -/
def behindCpl (s : State) (w : Waiting) : Bool :=
  w.txn.opc == 0x80 && destOf s w.txn == .self
    && (receivePath s).any fun x =>
        x.2.txn.opc == 0x80 && x.2.step != 9 && x.2.step != 13 && decide (x.2.seq < w.seq) && destOf s x.2.txn == .self

/-- CPORT of a place; 15 for the own die, which comes last (R235). -/
def placePort : Place → Nat
  | .rx q _ => q
  | _ => 15

/-- A synchronisation request homed here comes before another at the semaphore unit: by cc of arrival, by CPORT within a cc,
the own REQ channel last (R235). -/
def syncBehind (s : State) (q : Nat) (w : Waiting) (x : Nat × Waiting) : Bool :=
  isSync x.2.txn.opc && (x.2.step == 0 || x.2.step == 11) && destOf s x.2.txn == .self
    && (decide (x.2.at_ < w.at_) || (x.2.at_ == w.at_
      && (decide (x.1 < q) || (x.1 == q && decide (x.2.seq < w.seq)))))

/-- A synchronisation request for this die that reached the unit earlier has not been served yet (R235). -/
def behindSync (s : State) (pl : Place) (w : Waiting) : Bool :=
  isSync w.txn.opc && destOf s w.txn == .self
    && (receivePath s ++ (s.ingress.filter fun x => x.1 == IngCh.req).map fun x => ((15 : Nat), x.2)).any (syncBehind s (placePort pl) w)

/-- It is this transaction's turn (R226, R235, R237). -/
def inTurn (s : State) (pl : Place) (w : Waiting) : Bool :=
  !behindStream s pl w && !behindCpl s w && !behindSync s pl w

/-- A command that serves the transaction at a place: nothing happens unless one with its opcode waits there
undecided, the opcode may stand there, and it is its turn. -/
def serveAt (s : State) (pl : Place) (opc : Nat) (f : State → Waiting → State) :
    Host.Outcome State Fault Refusal :=
  match atPlace s pl with
  | none => .next s
  | some w =>
    if w.txn.opc.toNat ≠ opc ∨ w.step = 9 ∨ w.step = 10 ∨ w.step = 13 ∨ !legalAt pl w.txn.opc ∨ !inTurn s pl w then .next s
    else match pl with
      | .rx q k =>
        if isFwPort s q ∧ w.step = 0 ∧ opc ≠ 0x80 ∧ opc ≠ 0x21 then .next (atFirewall s pl q k w f)
        else .next (f s w)
      | _ => .next (f s w)

/-- The waiting request is matched against the rules again and admitted once its bucket allows (R356, R361). -/
def admitWaiting (s : State) (q : PortId) (k : Nat) : State :=
  match atPlace s (.rx q k) with
  | some w =>
    if w.step ≠ 10 ∨ behindBucket s q k w.vc then s
    else match fwCheck s q w.txn with
      | .deny st => fwRefuse s (.rx q k) w.txn st
      | .wait _ => s
      | .pass i left => putAt (takeBucket s i left) (.rx q k) { w with step := 11 }
  | none => s

/-- FIREWALL_ADMIT (R356). -/
def execFirewallAdmit (q : PortId) (k : Nat) (s : State) : Host.Outcome State Fault Refusal :=
  onPort s q (admitWaiting s q k)

/-- A transaction received for another die goes on: it waits in its buffer for a port of its route (R219, R22). -/
def forwardAt (s : State) (pl : Place) (w : Waiting) (route : List Nat) : State :=
  match pl with
  | .own _ => queueOut (takeAt s pl) route w
  | _ => putAt s pl { w with step := 9, route := route }

/-- Serve at this die, forward, or answer a missing route (R219); a posted transaction without a route is
discarded. -/
def targetOr (s : State) (pl : Place) (w : Waiting) (f : State → State) : State :=
  match destOf s w.txn with
  | .self => f s
  | .via ports => forwardAt s pl w ports
  | .bad st => if isPosted w.txn.opc then takeAt s pl else answerAt s pl w st 0 []

end Sys2Proof.Machine
end

