-- ==== Sys2Proof/Machine/Rlc.lean ====
section
/-!
DEFINITION. The Remote Line Cache: lookup and placement (R241–R245), serving a CA = 1 request (R248, R249), the
requester's side of coherence (R261, R262, R342), snoops (R260) and evictions (R244, R259).
-/

namespace Sys2Proof.Machine
open Sys2Proof

/-! ### Lines, sets and ways -/

/-- s of R242: log₂ of the number of sets. -/
def rlcBits (s : State) : Nat := (s.elab_.rlcKib / 2).log2

/-- The set of a line (R242). -/
def rlcSet (s : State) (la : LineAddr) : Nat :=
  let b := rlcBits s
  (la.toNat % 2 ^ b) ^^^ ((laDie la).toNat * 2 ^ (b - 8) % 2 ^ b)

/-- The codes of R247; 5–15 are received as 0. -/
def LineSt.code : LineSt → Nat
  | .i => 0 | .s => 1 | .e => 2 | .m => 3 | .o => 4

/-- A line state from its code. -/
def lineSt (c : BitVec 4) : LineSt :=
  match c.toNat with
  | 1 => .s | 2 => .e | 3 => .m | 4 => .o | _ => .i

/-- The state holds dirty data. -/
def LineSt.dirty : LineSt → Bool
  | .m => true
  | .o => true
  | _ => false

/-- The RLC line at an address. -/
def rlcLine (s : State) (la : LineAddr) : Option RlcLine := mget s.rlc.lines la.toNat

/-- Replace a line. -/
def setLine (s : State) (la : LineAddr) (l : RlcLine) : State :=
  { s with rlc := { s.rlc with lines := mset s.rlc.lines la.toNat l } }

/-- Remove a line. -/
def delLine (s : State) (la : LineAddr) : State :=
  { s with rlc := { s.rlc with lines := mdel s.rlc.lines la.toNat } }

/-- The lines of a set. -/
def linesOfSet (s : State) (set_ : Nat) : List (LineAddr × RlcLine) :=
  (s.rlc.lines.filter fun x => x.2.set_ == set_).map fun x => (BitVec.ofNat 51 x.1, x.2)

/-- The hint that covers a line: its index and POLICY (R245). -/
def hintOf (s : State) (la : LineAddr) : Option (Nat × Nat) :=
  let u := la.toNat / 2 ^ 14
  let rows := s.rows 0x8000 0x05
  ((List.range rows.length).find? fun i =>
    let r := rows.getD i 0
    bitsOf r 64 18 != 0 && decide (bitsOf r 0 37 ≤ u) && decide (u < bitsOf r 0 37 + bitsOf r 64 18)).map
    fun i => (i, bitsOf (rows.getD i 0) 82 2)

/-- POLICY of a line. -/
def policyOf (s : State) (la : LineAddr) : Nat := ((hintOf s la).map (·.2)).getD 0

/-- The pseudo-LRU bits after a path to a way: away from it, or toward it (R242). -/
def plruTouch (bits : BitVec 15) (way : Nat) (toward : Bool) : BitVec 15 :=
  (List.range 4).foldl
    (fun b lvl =>
      -- Node on level lvl of the path, and the half that the path takes there.
      let node := 2 ^ lvl - 1 + way / 2 ^ (4 - lvl)
      let high := bitAt way (3 - lvl)
      let v := if toward then high else !high
      let m : BitVec 15 := 1#15 <<< node
      if v then b ||| m else b &&& ~~~m)
    bits

/-- The pseudo-LRU bits of a set. -/
def plruOf (s : State) (set_ : Nat) : BitVec 15 := mgetD s.rlc.plru set_ 0

/-- Note a hit or a fill of a way (R242). -/
def touchWay (s : State) (set_ way : Nat) (toward : Bool) : State :=
  { s with rlc := { s.rlc with plru := mset s.rlc.plru set_ (plruTouch (plruOf s set_) way toward) } }

/-- Follow the bits from a node to a candidate way; a half without a candidate is passed over (R242). -/
def plruSearch (bits : BitVec 15) (cand : List Nat) : (lvl node base : Nat) → Nat
  | 0, _, base => base
  | lvl + 1, node, base =>
    let half := 2 ^ lvl
    let inHalf (h : Nat) : Bool := cand.any fun w => decide (base + h * half ≤ w) && decide (w < base + (h + 1) * half)
    let h0 := if bits.getLsbD node then 1 else 0
    let h := if inHalf h0 then h0 else 1 - h0
    plruSearch bits cand lvl (2 * node + 1 + h) (base + h * half)

/-- A line of an outstanding transaction: it has a miss-tracker entry. -/
def outstanding (s : State) (la : LineAddr) : Bool := s.rlc.miss.any fun m => m.la == la

/-- Where a fill goes (R242). -/
inductive FillWay where
  | free (way : Nat)
  | victim (way : Nat) (la : LineAddr)
  | none
deriving DecidableEq, Repr

/-- The way for a line of a set (R242). -/
def fillWay (s : State) (set_ : Nat) : FillWay :=
  let ways := waysEnabled s
  let lines := linesOfSet s set_
  match ways.find? fun w => !lines.any (·.2.way == w) with
  | some w => .free w
  | none =>
    let held := lines.filter fun x => ways.contains x.2.way
    let keep (x : LineAddr × RlcLine) : Bool := policyOf s x.1 == 1
    let anyOther := lines.any fun x => !keep x
    let cand := held.filter fun x => !outstanding s x.1 && !(anyOther && keep x)
    if cand.isEmpty then .none
    else
      let w := plruSearch (plruOf s set_) (cand.map (·.2.way)) 4 0 0
      match cand.find? (·.2.way == w) with
      | some x => .victim w x.1
      | none => .none

/-! ### Data -/

/-- Bits of a line that a write covers, from a byte mask. -/
def byteMask (m : Nat) : Nat := sumNat ((List.range 128).map fun i => if bitAt m i then 255 * 2 ^ (8 * i) else 0)

/-- The byte mask of a WR or WRP (R215). -/
def writeMask (t : Txn) : Nat :=
  if t.opc = 0x03 then (t.data.getD 0 0).toNat else (2 ^ t.len - 1) * 2 ^ (gpaOff t.gpa % 128)

/-- The line bytes a WR or WRP carries, at their place in the line. -/
def writeBits (t : Txn) : Nat :=
  if t.opc = 0x03 then ofBytes (cellsToBytes 128 (t.data.drop 1))
  else ofBytes (cellsToBytes t.len t.data) * 2 ^ (8 * (gpaOff t.gpa % 128))

/-- A line after a write (R215). -/
def applyWrite (v : BitVec 1024) (t : Txn) : BitVec 1024 :=
  let m := BitVec.ofNat 1024 (byteMask (writeMask t))
  (v &&& ~~~m) ||| (BitVec.ofNat 1024 (writeBits t) &&& m)

/-- The bytes an RD returns from a line. -/
def readLine (v : BitVec 1024) (t : Txn) : List Byte :=
  toBytes t.len (v.toNat / 2 ^ (8 * (gpaOff t.gpa % 128)))

/-- A write of all 128 bytes (R248). -/
def fullLine (t : Txn) : Bool := writeMask t == 2 ^ 128 - 1

/-! ### Messages -/

/-- A coherence message of this adapter as requester or evicting die. -/
def cohTxn (s : State) (opc : BitVec 8) (ten : Ten) (tag : Tag) (sport : BitVec 4) (h : Head) (data : List Cell) : Txn :=
  { opc := opc, ten := ten, tag := tag, sport := sport, spkg := BitVec.ofNat 12 (ownPkg s), sdie := s.die,
    head := h, data := data }

/-- A coherence head with nothing set but the line. -/
def plainCoh (la : LineAddr) : Head := .coh 0 false false false false 0 la

/-- Send a coherence request of the RLC: it waits with its line noted, so that its commit can enter the TAG. -/
def queueCoh (s : State) (t : Txn) (la : LineAddr) : State :=
  match destOf s t with
  | .via ports => queueOut s ports { txn := t, line := some la }
  | _ => s

/-- Evict a line into the victim buffer and queue its CWB or CEVC (R243, R259). The WBACK of a line whose eviction R244 owes is
awaited under R244, whatever chose it; requests that waited on the line wait on. -/
def evictLine (s : State) (la : LineAddr) (st : LineSt) (data : BitVec 1024) (waiting : List LineReq) : State :=
  let d := st.dirty
  let v : Victim := { la := la, st := st, dirty := d, data := if d then data else 0, port := none, tag := 0,
                      flush := s.rlc.owed.contains la, waiting := waiting }
  let s := { s with rlc := { s.rlc with victims := s.rlc.victims ++ [v], owed := s.rlc.owed.filter (· != la) } }
  let s := delLine s la
  queueCoh s (cohTxn s (if d then 0x44 else 0x45) 0 0 0 (.coh 0 d d false false 0 la)
    (if d then lineToCells data else [])) la

/-! ### Local requests (R248) -/

/-- Complete a local or proxied request (R226, R357). -/
def completeReq (s : State) (r : LineReq) (status : BitVec 8) (bytes : List Byte) : State :=
  match r.proxy with
  | none => answerSource s { txn := r.txn, seq := r.seq } status 0 bytes
  | some _ => answerFreeing s r.txn status bytes r.frees

/-- The coherence request a local request needs in a line state; none is a hit (R248). -/
def needs (t : Txn) (st : LineSt) : Option (BitVec 8) :=
  if t.opc = 0x01 then (if st = .i then some 0x40 else none)
  else match st with
    | .e | .m => none
    | .s | .o => some 0x42
    | .i => if fullLine t then some 0x43 else some 0x41

/-- Serve a request from a line whose state allows it: the line after it, and the completion. -/
def serveFrom (s : State) (r : LineReq) (st : LineSt) (v : BitVec 1024) : State × LineSt × BitVec 1024 :=
  if r.txn.opc = 0x01 then (completeReq s r 0 (readLine v r.txn), st, v)
  else (completeReq s r 0 [], .m, applyWrite v r.txn)

/-- Open a miss-tracker entry for waiting requests and send its coherence request (R243). -/
def openMiss (s : State) (opc : BitVec 8) (la : LineAddr) (rs : List LineReq) : State :=
  let ten := (rs.head?.map fun r => r.txn.ten).getD 0
  let m : Miss := { la := la, opc := opc, port := none, tag := 0, ten := ten, waiting := rs, gnt := none, acks := 0,
                    data := none, fwd := none, dirty := false, policy := policyOf s la }
  queueCoh { s with rlc := { s.rlc with miss := s.rlc.miss ++ [m] } } (cohTxn s opc ten 0 0 (plainCoh la) []) la

/-- Serve waiting requests in issue order while the line allows; what remains needs a transaction. -/
def serveWaiting : List LineReq → State → LineSt → BitVec 1024 → State × LineSt × BitVec 1024 × List LineReq
  | [], s, st, v => (s, st, v, [])
  | r :: rs, s, st, v =>
    match needs r.txn st with
    | some _ => (s, st, v, r :: rs)
    | none =>
      let (s, st, v) := serveFrom s r st v
      serveWaiting rs s st v

/-- The remaining requests of a line start a new transaction from the state it is in. -/
def reopen (s : State) (la : LineAddr) (st : LineSt) (rs : List LineReq) : State :=
  match rs with
  | [] => s
  | r :: _ =>
    match needs r.txn st with
    | some opc => openMiss s opc la rs
    | none => s

/-! ### Completion of a transaction (R261) -/

/-- The data a miss-tracker entry completes with: FWD or GNT data, the own copy, or none needed for a CWRL. -/
def missData (s : State) (m : Miss) : Option (BitVec 1024) :=
  if m.lost.isSome then some 0
  else match m.data with
  | some v => some v
  | none => match rlcLine s m.la with
    | some l => some l.data
    | none => if m.opc = 0x43 then some 0 else none

/-- The entry is complete: GNT, all IACKs, and data (R261). -/
def missReady (s : State) (m : Miss) : Bool :=
  match m.gnt with
  | some (_, n) => decide (n ≤ m.acks) && (missData s m).isSome
  | none => false

/-- Replace or remove the miss-tracker entry of a line. -/
def modMiss (s : State) (la : LineAddr) (f : Miss → Miss) : State :=
  { s with rlc := { s.rlc with miss := mapIf (fun m => m.la == la) f s.rlc.miss } }

/-- Remove the miss-tracker entry of a line. -/
def delMiss (s : State) (la : LineAddr) : State :=
  { s with rlc := { s.rlc with miss := s.rlc.miss.filter fun m => m.la != la } }

/-- The TAG of an entry, once it has one. -/
def Miss.tagOf (m : Miss) : Option (Nat × Nat) := m.port.map fun q => (q, m.tag.toNat)

/-- The request that opened an entry was proxied, and is served now: its completion frees the TAG (R225). -/
def freesLater (m : Miss) (base : LineSt) : Bool :=
  match m.waiting with
  | r :: _ => r.proxy.isSome && (needs r.txn base).isNone
  | [] => false

/-- The requests of an entry; the first one frees the TAG when that waits for its completion to leave. -/
def servedReqs (m : Miss) (later : Bool) : List LineReq :=
  match m.waiting with
  | r :: rs => (if later then { r with frees := m.tagOf } else r) :: rs
  | [] => []

/-- A line without a way goes from its miss-tracker entry to the victim buffer, and the entry is free (R242). -/
def evictMiss (s : State) (m : Miss) (st : LineSt) (v : BitVec 1024) (rs : List LineReq) : State :=
  evictLine (delMiss s m.la) m.la st v rs

/-- Finish an entry: complete the requests, place the line, send CACK, free TAG and entry. A line without a way is evicted, and
waits in the entry for a victim-buffer entry (R242). A completed CUPG touches the pseudo-LRU as a fill does (log entry 131). -/
def finishMiss (s : State) (m : Miss) (place : Option (Nat × Nat)) : State :=
  let base := match m.fwd with
    | some st => st
    | none => match m.gnt with | some (st, _) => st | none => .i
  let v := (missData s m).getD 0
  let later := freesLater m base
  let (s, st, v, rest) := serveWaiting (servedReqs m later) (delMiss s m.la) base v
  let cack := cohTxn s 0x46 m.ten m.tag (BitVec.ofNat 4 (m.port.getD 15))
      (.coh (BitVec.ofNat 4 st.code) false false false false 0 m.la) []
  let s := if later then s else freeOf s m.tagOf
  match place with
  | some (set_, way) =>
    let s := setLine s m.la { set_ := set_, way := way, st := st, data := v, hint := (hintOf s m.la).map (·.1) }
    let s := touchWay s set_ way (policyOf s m.la == 3)
    sendOut (reopen s m.la st rest) cack
  | none =>
    let kept : Miss := { m with waiting := rest, data := some v, evict := some st, port := none }
    let s := if 32 ≤ s.rlc.victims.length then { s with rlc := { s.rlc with miss := s.rlc.miss ++ [kept] } }
      else evictMiss s kept st v rest
    sendOut s cack

/-- An entry whose data is lost ends without a line (R333): its requests end with TARGET_ERROR, or start again. -/
def finishLost (s : State) (m : Miss) (failed : Bool) : State :=
  let s := freeOf (delLine (delMiss s m.la) m.la) m.tagOf
  let s := sendOut s (cohTxn s 0x46 m.ten m.tag (BitVec.ofNat 4 (m.port.getD 15)) (plainCoh m.la) [])
  if failed then m.waiting.foldl (fun s r => completeReq s r 0x18 []) s else reopen s m.la .i m.waiting

/-- Complete the entry of a line when R261 holds; a fill that needs a victim waits for a victim-buffer entry. -/
def tryComplete (s : State) (la : LineAddr) : State :=
  match s.rlc.miss.find? (·.la == la) with
  | none => s
  | some m =>
    match m.evict with
    | some st =>
      if 32 ≤ s.rlc.victims.length then s else evictMiss s m st (m.data.getD 0) m.waiting
    | none =>
    if !missReady s m then s
    else match m.lost with
    | some failed => finishLost s m failed
    | none => match rlcLine s la with
      | some l => finishMiss s m (some (l.set_, l.way))
      | none =>
        let set_ := rlcSet s la
        match fillWay s set_ with
        | .free w => finishMiss s m (some (set_, w))
        | .victim w vla =>
          if 32 ≤ s.rlc.victims.length then s
          else match rlcLine s vla with
            | some l => finishMiss (evictLine s vla l.st l.data []) m (some (set_, w))
            | none => s
        | .none => finishMiss s m none

/-- Complete every entry that can: after a victim-buffer entry became free. -/
def completeAll (s : State) : State := (s.rlc.miss.map (·.la)).foldl tryComplete s

/-! ### Serving a CA = 1 request -/

/-- An earlier CA = 1 request of the die to the same line waits in the REQ buffer, or went out as a CA = 0 read under NOALLOC
and has not completed (R245, R249). -/
def earlierSameLine (s : State) (w : Waiting) (la : LineAddr) : Bool :=
  (s.ingress.any fun (ch, x) =>
    ch == .req && decide (x.seq < w.seq) && isMem x.txn.opc && x.txn.ca && x.step != 9
      && lineOf (rewrite s x.txn.gpa) == la)
    || s.ord.any fun r => decide (r.seq < w.seq) && r.key == some (4, la.toNat)

/-- A request admitted earlier from a firewall port waits for the same line (R357). -/
def earlierProxied (s : State) (w : Waiting) (la : LineAddr) : Bool :=
  (List.range 8).any fun q =>
    isFwPort s q && (s.port (logical s q)).rx.any fun x =>
      (x.step == 8 || x.step == 11) && decide (x.seq < w.seq)
        && (x.txn.opc == 0x01 || x.txn.opc == 0x02 || x.txn.opc == 0x03) && lineOf x.txn.gpa == la

/-- A CA = 1 request waits behind an earlier one to its line, in issue order or in the order of admission (R249, R357). -/
def behindLine (s : State) (pl : Place) (w : Waiting) (la : LineAddr) : Bool :=
  if placeIsIfi pl then earlierSameLine s w la else earlierProxied s w la

/-- A read that goes out under NOALLOC is noted by its line, so that later CA = 1 requests to it wait (R249). -/
def keyLine (s : State) (seq : Nat) (la : LineAddr) : State :=
  { s with ord := mapIf (fun r => r.seq == seq) (fun r => { r with key := some (4, la.toNat) }) s.ord }

/-- A CA = 1 RD, WR or WRP reaches the RLC (R241, R243, R248); `g` is its address after the rewrite. It waits in
its buffer behind a victim-buffer entry, or when no miss-tracker entry is free. -/
def rlcServe (s : State) (pl : Place) (w : Waiting) (g : Gpa) : State :=
  let la := lineOf g
  let t := { w.txn with head := .mem w.txn.fen false (BitVec.ofNat 8 w.txn.len) g }
  let r : LineReq := { txn := t, seq := w.seq, proxy := match pl with | .rx q _ => some q.val | _ => none }
  let wait := putAt s pl { w with step := 8, gpa := g }
  if s.rlc.victims.any (·.la == la) then wait
  else if outstanding s la then
    modMiss (takeAt s pl) la fun m => { m with waiting := m.waiting ++ [r] }
  else
    let line := rlcLine s la
    let st := (line.map (·.st)).getD .i
    match needs t st, line with
    | none, some l =>
      let s := touchWay ((takeAt s pl).bump64 0x8001 0x01 1) l.set_ l.way false
      let (s, st, v) := serveFrom s r l.st l.data
      setLine s la { l with st := st, data := v }
    | some opc, _ =>
      if 256 ≤ s.rlc.miss.length then wait
      else openMiss (takeAt s pl) opc la [r]
    | none, none => s

/-! ### Answers to the requester (R261, R262) -/

/-- A coherence answer names a TAG that its request still holds (R226, R262). -/
def cohTagOk (s : State) (t : Txn) : Bool :=
  match mget (s.port t.sport.toNat).tags t.tag.toNat with
  | some i => i.use_ == .rlc t.la && i.ten == t.ten
  | none => false

/-- A stale CACK (R262). -/
def staleCack (t : Txn) : Txn :=
  if t.opc = 0x5C then { t with opc := 0x46, head := .coh 0 true true true false 0 t.la }
  else { t with opc := 0x46, head := .coh 0 false false true false 0 t.la, data := [] }

/-- A stale answer: GNT and dirty FWD are answered, the rest is discarded (R262). -/
def staleAnswer (s : State) (t : Txn) : State :=
  let s := s.bump 0x8001 0x0B 1
  if t.opc = 0x48 ∨ (t.opc = 0x5C ∧ t.dty) then sendOut s (staleCack t) else s

/-- A GNT, FWD or IACK at the requester. -/
def takeAnswer (s : State) (pl : Place) (w : Waiting) (f : Miss → Miss) : State :=
  targetOr s pl w fun s =>
    let s := takeAt s pl
    if cohTagOk s w.txn then tryComplete (modMiss s w.txn.la f) w.txn.la else staleAnswer s w.txn

/-- GNT at the requester (R261). -/
def takeGnt (s : State) (pl : Place) (w : Waiting) : State :=
  takeAnswer s pl w fun m =>
    { m with gnt := some (lineSt w.txn.cst, w.txn.ackcnt),
             data := if w.txn.cdata ∧ m.data = none then some (cellsToLine w.txn.data) else m.data }

/-- FWD (R261). -/
def takeFwd (s : State) (pl : Place) (w : Waiting) : State :=
  takeAnswer s pl w fun m =>
    { m with fwd := some (lineSt w.txn.cst), data := some (cellsToLine w.txn.data), dirty := w.txn.dty }

/-- FWD (R261). -/
def execFwd (pl : Place) (s : State) : Host.Outcome State Fault Refusal :=
  serveAt s pl 0x5C fun s w => takeFwd s pl w

/-- IACK (R261). -/
def execIack (pl : Place) (s : State) : Host.Outcome State Fault Refusal :=
  serveAt s pl 0x5D fun s w => takeAnswer s pl w fun m => { m with acks := m.acks + 1 }

/-- Lines still to be evicted or acknowledged by R244: `rlc_evict_busy` (R244). -/
def settleBusy (s : State) : State :=
  if s.rlc.busy && s.rlc.owed.isEmpty && !s.rlc.victims.any (·.flush) then
    { s with rlc := { s.rlc with busy := false } }
  else s

/-- A victim-buffer entry is free: its waiting requests start anew on the Invalid line, and an entry that waited for the room
goes on (R243, R248). -/
def freeVictim (s : State) (la : LineAddr) : State :=
  let rs := ((s.rlc.victims.find? (·.la == la)).map (·.waiting)).getD []
  let s := { s with rlc := { s.rlc with victims := s.rlc.victims.filter fun v => v.la != la } }
  completeAll (reopen (settleBusy s) la .i rs)

/-- WBACK at the evicting die (R259): the victim entry and its TAG are freed. One whose TAG the entry does not hold is counted
with the stale answers (log entry 132). -/
def takeWback (s : State) (pl : Place) (w : Waiting) : State :=
  targetOr s pl w fun s =>
    let s := takeAt s pl
    let t := w.txn
    let s := if t.stale then s.bump 0x8001 0x09 1 else s
    match mget (s.port t.sport.toNat).tags t.tag.toNat with
    | some i =>
      if i.use_ = .victim t.la then
        freeVictim (s.freeTagAt t.sport.toNat t.tag.toNat) t.la
      else s.bump 0x8001 0x0B 1
    | none => s.bump 0x8001 0x0B 1

/-- A coherence request is refused for want of COH (R342): every waiting request completes with the status, the
line is Invalid, TAG and entry are freed. -/
def refuseMiss (s : State) (la : LineAddr) (status : BitVec 8) : State :=
  match s.rlc.miss.find? (·.la == la) with
  | none => s
  | some m =>
    let s := freeOf (delLine (delMiss s la) la) m.tagOf
    m.waiting.foldl (fun s r => completeReq s r status []) s

/-! ### Snoops (R260) -/

/-- What a holder does on a snoop: state after it, forwarded state, IACK, dirty data to the home. -/
structure SnoopAct where
  st : LineSt
  fwd : Option LineSt := none
  iack : Bool := false
  home : Bool := false
deriving DecidableEq, Repr

/-- The table of R260. -/
def snoopAct (opc : BitVec 8) (mode : Bool) (st : LineSt) : SnoopAct :=
  match opc.toNat, mode, st with
  | 0x50, false, .m => { st := .o, fwd := some .s }
  | 0x50, false, .o => { st := .o, fwd := some .s }
  | 0x50, false, .e => { st := .s, fwd := some .s }
  | 0x50, false, x => { st := x }
  | 0x50, true, .m => { st := .s, home := true }
  | 0x50, true, .o => { st := .s, home := true }
  | 0x50, true, .e => { st := .s }
  | 0x50, true, x => { st := x }
  | 0x51, false, .m => { st := .i, fwd := some .m }
  | 0x51, false, .o => { st := .i, fwd := some .m }
  | 0x51, false, .e => { st := .i, fwd := some .e }
  | 0x51, false, _ => { st := .i }
  | 0x52, false, _ => { st := .i, iack := true }
  | _, _, .m => { st := .i, home := true }
  | _, _, .o => { st := .i, home := true }
  | _, _, _ => { st := .i }

/-- The entry in which a line without a way waits for a victim-buffer entry, with its state (R242). -/
def evicting (s : State) (la : LineAddr) : Option (Miss × LineSt) :=
  (s.rlc.miss.find? fun m => m.la == la && m.evict.isSome).bind fun m => m.evict.map fun st => (m, st)

/-- State and data a snoop finds, and whether in the victim buffer; a victim entry of a CEVC counts as I. -/
def snoopLookup (s : State) (la : LineAddr) : LineSt × BitVec 1024 × Bool × Bool :=
  match s.rlc.victims.find? (·.la == la) with
  | some v => (if v.dirty then v.st else .i, v.data, true, true)
  | none => match rlcLine s la with
    | some l => (l.st, l.data, false, true)
    | none => match evicting s la with
      | some (m, st) => (st, m.data.getD 0, false, true)
      | none => (.i, 0, false, false)

/-- Record the state a snoop leaves. -/
def snoopLeaves (s : State) (la : LineAddr) (inVictim : Bool) (st : LineSt) : State :=
  if inVictim then
    { s with rlc := { s.rlc with victims := mapIf (fun v => v.la == la) (fun v => if v.dirty then { v with st := st } else v) s.rlc.victims } }
  else match rlcLine s la with
    | some l => if st = .i then delLine s la else setLine s la { l with st := st }
    | none => match evicting s la with
      | some (m, _) =>
        if st = .i then reopen (delMiss s la) la .i m.waiting else modMiss s la fun m => { m with evict := some st }
      | none => s

/-- Perform one snoop of a line and send the holder's answers (R260). -/
def doSnoop (s : State) (t : Txn) (opc : BitVec 8) (la : LineAddr) : State :=
  let target := t.data.getD 0 0
  let mode := target.getLsbD 20
  let (st, v, inV, found) := snoopLookup s la
  let a := snoopAct opc mode st
  let s := s.bump64 0x8001 0x06 1
  let s := if found then s.bump64 0x8001 0x07 1 else s
  let s := snoopLeaves s la inV a.st
  let s := match a.fwd with
    | some f =>
      sendOut (s.bump64 0x8001 0x08 1)
        { t with opc := 0x5C, head := .coh (BitVec.ofNat 4 f.code) true (f == .m) false false 0 la,
                 data := lineToCells v }
    | none => s
  let s := if a.iack then sendOut s { t with opc := 0x5D, head := plainCoh la, data := [] } else s
  sendOut s { t with opc := 0x58, head := .coh (BitVec.ofNat 4 st.code) a.home a.home false inV 0 la,
                     data := target :: (if a.home then lineToCells v else []) }

/-- A snoop reaches the holder it names. -/
def takeSnoop (s : State) (pl : Place) (w : Waiting) : State :=
  targetOr s pl w fun s => doSnoop (takeAt s pl) w.txn w.txn.opc w.txn.la

/-- SNPS (R260). -/
def execSnps (pl : Place) (s : State) : Host.Outcome State Fault Refusal :=
  serveAt s pl 0x50 fun s w => takeSnoop s pl w

/-- SNPX (R260). -/
def execSnpx (pl : Place) (s : State) : Host.Outcome State Fault Refusal :=
  serveAt s pl 0x51 fun s w => takeSnoop s pl w

/-- SNPI (R260). -/
def execSnpi (pl : Place) (s : State) : Host.Outcome State Fault Refusal :=
  serveAt s pl 0x52 fun s w => takeSnoop s pl w

/-- SNPF (R260). -/
def execSnpf (pl : Place) (s : State) : Host.Outcome State Fault Refusal :=
  serveAt s pl 0x53 fun s w => takeSnoop s pl w

/-- The region flush of R260: SNPF on every line of the 4-KiB region held here, then SRSPR. -/
def flushRegion (s : State) (t : Txn) : State :=
  let base := t.la &&& ~~~31#51
  let s := (List.range 32).foldl
    (fun s i =>
      let la := base + BitVec.ofNat 51 i
      let (_, _, _, found) := snoopLookup s la
      if found then doSnoop s t 0x53 la else s)
    s
  sendOut s { t with opc := 0x59, head := plainCoh t.la }

/-- SNPR (R260). -/
def execSnpr (pl : Place) (s : State) : Host.Outcome State Fault Refusal :=
  serveAt s pl 0x54 fun s w => targetOr s pl w fun s => flushRegion (takeAt s pl) w.txn

/-! ### Evictions of R244 -/

/-- Lines in ascending set and way order. -/
def setWayOrder (xs : List (LineAddr × RlcLine)) : List (LineAddr × RlcLine) :=
  xs.foldl
    (fun acc x =>
      let before := fun y : LineAddr × RlcLine => decide (y.2.set_ < x.2.set_) || (y.2.set_ == x.2.set_ && decide (y.2.way ≤ x.2.way))
      acc.filter before ++ [x] ++ acc.filter fun y => !before y)
    []

/-- The lines of the given ways are owed an eviction, and with `fills` those whose transaction is outstanding too, for the time
after it (R244). -/
def oweEvictions (s : State) (fills : Bool) (way : Nat → Bool) : State :=
  let xs := (s.rlc.lines.map fun x => (BitVec.ofNat 51 x.1, x.2)).filter fun x : LineAddr × RlcLine => way x.2.way
  let lines := (setWayOrder xs).map (·.1)
  let add := lines ++ if fills then (s.rlc.miss.map (·.la)).filter fun la => !lines.contains la else []
  settleBusy { s with rlc := { s.rlc with owed := s.rlc.owed ++ add.filter (fun la => !s.rlc.owed.contains la), busy := true } }

/-- One line is evicted: the first owed one that has no outstanding transaction; ways that have become Invalid are skipped (R244,
R259). -/
def evictOwed (s : State) : State :=
  if 32 ≤ s.rlc.victims.length then s
  else
    let owed := s.rlc.owed.filter fun la => (rlcLine s la).isSome || outstanding s la
    let s := settleBusy { s with rlc := { s.rlc with owed := owed } }
    match owed.find? fun la => !outstanding s la with
    | none => s
    | some la => match rlcLine s la with
      | some l => evictLine s la l.st l.data []
      | none => s

/-- RLC_EVICTION (R244). -/
def execRlcEviction (s : State) : Host.Outcome State Fault Refusal := .next (evictOwed s)

end Sys2Proof.Machine
end

