-- ==== Sys2Proof/Machine/Home.lean ====
section
/-!
DEFINITION. The home side of coherence: the export filter (R265–R267), the line tracker (R256), requests and
writebacks (R257–R259), directory snoops (R255), recalls (R266, R267, R269), and the messages that arrive at the
home (R254, R258, R262).
-/

namespace Sys2Proof.Machine
open Sys2Proof

/-! ### The export filter (R265) -/

/-- First line of the 4-KiB region of a line. -/
def regionOf (la : LineAddr) : LineAddr := la &&& ~~~31#51

/-- Sets of the export filter. -/
def filterSets (s : State) : Nat := s.elab_.exportEntries / 16

/-- The set of a line (R265): V = OFFSET[38:12], folded by XOR. -/
def filterSet (s : State) (la : LineAddr) : Nat :=
  let f := (filterSets s).log2
  let v := bitsOf la.toNat 5 27
  (v ^^^ (v >>> f)) % 2 ^ f

/-- The entry is the line entry of a line. -/
def isLineEntry (la : LineAddr) (e : FilterEntry) : Bool := !e.region && e.la == la

/-- The entry is the region entry of a line's region. -/
def isRegionEntry (la : LineAddr) (e : FilterEntry) : Bool := e.region && e.la == regionOf la

/-- The line entry, else the region entry, else nothing (R265). -/
def findEntry (s : State) (la : LineAddr) : Option FilterEntry :=
  (s.home.filter.find? (isLineEntry la)).orElse fun _ => s.home.filter.find? (isRegionEntry la)

/-- Change the filter. -/
def setFilter (s : State) (f : List FilterEntry) : State := { s with home := { s.home with filter := f } }

/-- Change the line entry of a line; one without holders is no entry. -/
def modLine (s : State) (la : LineAddr) (f : FilterEntry → FilterEntry) : State :=
  setFilter s ((mapIf (isLineEntry la) f s.home.filter).filter fun e => e.region || !e.holders.isEmpty)

/-- Remove a die from the line entry of a line. -/
def dropHolder (s : State) (la : LineAddr) (h : Holder) : State :=
  modLine s la fun e =>
    { e with holders := e.holders.filter (· != h),
             owner := if e.owner = some h then none else e.owner,
             owned := e.owned && e.owner != some h }

/-- Note the use of an entry (the pseudo-LRU of R266). -/
def touchEntry (s : State) (p : FilterEntry → Bool) : State :=
  { s with home := { s.home with
      filter := mapIf p (fun e => { e with used := s.home.useCtr }) s.home.filter, useCtr := s.home.useCtr + 1 } }

/-- The filter states of R257, which count holders other than the requester. -/
inductive FilterSt where
  | n
  | sh (sharers : List Holder)
  | ex (q : Holder) (sharers : List Holder)
  | ow (q : Holder) (sharers : List Holder)
deriving DecidableEq, Repr

/-- The filter state of a line for a requester. A region line has been recalled and counts as N (R267). -/
def filterSt (s : State) (la : LineAddr) (r : Holder) : FilterSt :=
  match s.home.filter.find? (isLineEntry la) with
  | none => .n
  | some e =>
    let others := e.holders.filter (· != r)
    match e.owner.filter (· != r) with
    | some q => if e.owned then .ow q (others.filter (· != q)) else .ex q (others.filter (· != q))
    | none => if others.isEmpty then .n else .sh others

/-- XPRE of a filter state (R250). -/
def FilterSt.xpre : FilterSt → Nat
  | .n => 0
  | .sh _ => 1
  | _ => 2

/-- The holder of a request, a writeback or a snoop answer. -/
def holderOf (t : Txn) : Holder := ⟨t.spkg, t.sdie⟩

/-- HPKG and HDIE of a target cell (R252). -/
def targetHolder (t : Txn) : Holder :=
  let c := t.data.getD 0 0
  ⟨c.extractLsb' 0 12, c.extractLsb' 12 8⟩

/-- A target cell (R252). -/
def targetCell (h : Holder) (mode : Bool) : Cell := 0#107 ++ BitVec.ofBool mode ++ h.die ++ h.pkg

/-- A lost line is counted and raises its cause (R258). -/
def lineLost (s : State) : State := (s.bump 0x8100 0x07 1).irq 5

/-! ### The line tracker (R256) -/

/-- Change one tracker entry. -/
def modTrack (s : State) (id : Nat) (f : Track → Track) : State :=
  { s with home := { s.home with track := mapIf (·.id == id) f s.home.track } }

/-- Remove one tracker entry. -/
def delTrack (s : State) (id : Nat) : State :=
  { s with home := { s.home with track := s.home.track.filter (·.id != id) } }

/-- All 1024 entries are in use (R256); a recall of R269 takes none. -/
def trackerFull (s : State) : Bool := decide (1024 ≤ (s.home.track.filter (·.kind != .recall)).length)

/-- Lines that an entry covers: its own, and the line or region it recalls. -/
def covers (t : Track) : List (Bool × LineAddr) :=
  (false, t.la) :: (if t.recalling || t.kind == .recall then [(t.region, t.rla)] else [])

/-- Two lines or regions meet. -/
def meets (a b : Bool × LineAddr) : Bool :=
  if a.1 || b.1 then regionOf a.2 == regionOf b.2 else a.2 == b.2

/-- Two entries cover a common line. -/
def conflict (a b : Track) : Bool := (covers a).any fun x => (covers b).any (meets x)

/-- Add an entry for an arriving transaction. -/
def addTrack (s : State) (kind : TrackKind) (t : Txn) (la : LineAddr) : State :=
  { s with home := { s.home with track := s.home.track ++ [{ id := s.home.nextId, la := la, kind := kind, txn := t }],
                                 nextId := s.home.nextId + 1 } }

/-- A request presented on INB by the home. -/
def presentCoh (s : State) (t : Txn) (opc : BitVec 8) (xpre : Nat) (nodata : Bool) (d : Bool) : State :=
  presentInb s { t with opc := opc, head := .coh (BitVec.ofNat 4 (xpre + 4 * b2n nodata)) d d false false 0 t.la,
                        data := if d then t.data else [] }

/-- Dirty data that came home is written through INB as a CWB of this die (R260, R262, R266); its XPRE describes the holders that
the filter still records (log entry 72). -/
def writeHome (s : State) (la : LineAddr) (data : List Cell) : State :=
  let x := match findEntry s la with
    | none => 0
    | some e => if e.region || e.owner.isSome then 2 else 1
  presentCoh s { opc := 0x44, ten := 0, tag := 0, sport := 0, spkg := BitVec.ofNat 12 (ownPkg s), sdie := s.die,
                 head := plainCoh la, data := data } 0x44 x false true

/-- Send a snoop on behalf of an entry; it names the transaction of the entry (R250, R252). -/
def sendSnoop (s : State) (t : Txn) (opc : BitVec 8) (la : LineAddr) (mode : Bool) (h : Holder) : State :=
  sendOut s { t with opc := opc, head := plainCoh la, data := [targetCell h mode] }

/-- Send one snoop to each holder of a list. -/
def sendSnoops (s : State) (t : Txn) (opc : BitVec 8) (la : LineAddr) (mode : Bool) (hs : List Holder) : State :=
  hs.foldl (fun s h => sendSnoop s t opc la mode h) s

/-! ### Room for an entry and recalls (R266, R267) -/

/-- The line has an entry, or lies in a region that has one. -/
def hasEntry (s : State) (la : LineAddr) : Bool := (findEntry s la).isSome

/-- Ways of the export filter left by field repair (R265, R332). -/
def filterWays (s : State) : Nat := 16 - banksGone s 5 0

/-- Ways of a set that are taken: entries, and lines of busy entries that will need one. -/
def waysTaken (s : State) (set_ : Nat) : Nat :=
  (s.home.filter.filter fun e => filterSet s e.la == set_).length
    + (s.home.track.filter fun t =>
        t.kind == .request && t.busy && !t.inrDone && filterSet s t.la == set_ && !hasEntry s t.la).length

/-- A line or region of the filter that no tracker entry has to do with. -/
def entryIdle (s : State) (e : FilterEntry) : Bool :=
  !s.home.track.any fun t => t.busy && (covers t).any (meets (e.region, e.la))

/-- Foreign holders of a list (R265). -/
def foreign (s : State) (hs : List Holder) : Nat := (hs.filter fun h => h.pkg.toNat != ownPkg s).length

/-- Idle line entries of a region. -/
def regionLines (s : State) (base : LineAddr) : List FilterEntry :=
  s.home.filter.filter fun e => !e.region && regionOf e.la == base && entryIdle s e

/-- Union of the holders of entries. -/
def unionHolders (es : List FilterEntry) : List Holder :=
  es.foldl (fun u e => u ++ e.holders.filter fun h => !u.contains h) []

/-- The region of a set to fold: the one with the most line entries, two at least, the lowest on a tie (R266). -/
def foldChoice (s : State) (set_ : Nat) : Option LineAddr :=
  let bases := ((s.home.filter.filter fun e => !e.region && filterSet s e.la == set_).map fun e => regionOf e.la).dedup
  bases.foldl
    (fun best b =>
      let n := (regionLines s b).length
      let old := s.home.filter.filter (isRegionEntry b)
      if n < 2 || decide (8 < foreign s (unionHolders (old ++ regionLines s b))) then best
      else match best with
        | none => some b
        | some c =>
          let m := (regionLines s c).length
          if m < n || (m == n && decide (b.toNat < c.toNat)) then some b else best)
    none

/-- Fold a region into one region entry (R266). -/
def foldRegion (s : State) (base : LineAddr) : State :=
  let es := regionLines s base
  let old := s.home.filter.filter (isRegionEntry base)
  let e : FilterEntry :=
    { region := true, la := base, owner := none, owned := false, holders := unionHolders (old ++ es),
      used := s.home.useCtr }
  let keep := s.home.filter.filter fun x => !es.contains x && !old.contains x
  ({ setFilter s (keep ++ [e]) with home := { s.home with filter := keep ++ [e], useCtr := s.home.useCtr + 1 } }).bump
    0x8100 0x04 1

/-- The entry of a set to recall: the least recently used one that no tracker entry has to do with (R266). -/
def recallChoice (s : State) (set_ : Nat) : Option FilterEntry :=
  (s.home.filter.filter fun e => filterSet s e.la == set_ && entryIdle s e).foldl
    (fun best e => match best with
      | none => some e
      | some b => if e.used < b.used then some e else best)
    none

/-- Begin the recall of a line or region by an entry: SNPF or SNPR to the holders (R266, R267). -/
def beginRecall (s : State) (id : Nat) (t : Track) (region : Bool) (la : LineAddr) (hs : List Holder) : State :=
  let s := modTrack s id fun t => { t with busy := true, recalling := true, region := region, rla := la, awaiting := hs }
  sendSnoops s t.txn (if region then 0x54 else 0x53) la true hs

/-- Recall a whole filter entry (R266). -/
def recallEntry (s : State) (id : Nat) (t : Track) (e : FilterEntry) : State :=
  (beginRecall s id t e.region e.la e.holders).bump 0x8100 0x05 1

/-! ### Starting an entry -/

/-- A request goes to the directory (R257). -/
def presentRequest (s : State) (id : Nat) (t : Track) : State :=
  let r := holderOf t.txn
  let line := s.home.filter.find? (isLineEntry t.la)
  let recorded := match line with
    | some e => e.holders.contains r
    | none => false
  let opc : BitVec 8 := if t.txn.opc = 0x42 ∧ !recorded then 0x41 else t.txn.opc
  let s :=
    if opc ≠ 0x42 ∧ recorded then
      let lost := match line with | some e => e.owner == some r | none => false
      let s := dropHolder s t.la r
      if lost then lineLost s else s
    else s
  let st := filterSt s t.la r
  let x := st.xpre
  let nodata := opc == 0x42 || opc == 0x43 || x == 2
  let s := modTrack s id fun t =>
    { t with busy := true, presented := true, nodata := nodata, txn := { t.txn with opc := opc } }
  presentCoh (touchEntry s (isLineEntry t.la)) t.txn opc x nodata false

/-- A request starts (R257, R266, R267): a region line is recalled first, and room is made for a new entry; with
no room to be had it waits in its entry. -/
def startRequest : (fuel : Nat) → State → Nat → Track → State
  | 0, s, _, _ => s
  | fuel + 1, s, id, t =>
    let r := holderOf t.txn
    match findEntry s t.la with
    | some e =>
      if !e.region then presentRequest s id t
      else if r.pkg.toNat ≠ ownPkg s ∧ !e.holders.contains r ∧ 8 ≤ foreign s e.holders then
        if entryIdle s e then recallEntry s id t e else s
      else beginRecall s id t false t.la e.holders
    | none =>
      let set_ := filterSet s t.la
      if waysTaken s set_ < filterWays s then presentRequest s id t
      else match foldChoice s set_ with
        | some b => startRequest fuel (foldRegion s b) id t
        | none => match recallChoice s set_ with
          | some e => recallEntry s id t e
          | none => s

/-- XPRE for the holders that remain after a writeback (R259). -/
def remainXpre (s : State) (la : LineAddr) (r : Holder) : Nat :=
  match s.home.filter.find? (isLineEntry la) with
  | some _ => (filterSt s la r).xpre
  | none => match s.home.filter.find? (isRegionEntry la) with
    | some e => if e.holders.any (· != r) then 2 else 0
    | none => 0

/-- The filter records a die for a line (R259). -/
def recordsHolder (s : State) (la : LineAddr) (r : Holder) : Bool :=
  match findEntry s la with
  | some e => e.holders.contains r
  | none => false

/-- WBACK to the evicting die (R259). -/
def sendWback (s : State) (t : Txn) (stale : Bool) : State :=
  sendOut s { t with opc := 0x49, ten := 0, head := .coh 0 false false stale false 0 t.la, data := [] }

/-- A CWB or CEVC starts (R259). -/
def startWriteback (s : State) (id : Nat) (t : Track) : State :=
  let r := holderOf t.txn
  if recordsHolder s t.la r then
    let s := dropHolder s t.la r
    let s := modTrack s id fun t => { t with busy := true, presented := true }
    presentCoh s t.txn t.txn.opc (remainXpre s t.la r) false (t.txn.opc == 0x44)
  else sendWback (delTrack s id) t.txn true

/-- Clean copies remain after a directory snoop (R255). -/
def copiesRemain (s : State) (t : Track) : Bool :=
  (s.home.filter.find? (isLineEntry t.la)).isSome || t.remain

/-- A directory snoop is answered with one SRSP on IFI-SNP, without a target cell (R252, R255). -/
def answerDirectory (s : State) (t : Track) : State :=
  let d := match t.dirty with
    | some v => lineToCells v
    | none => []
  (delTrack s t.id).toIfi .snp
    { t.txn with opc := 0x58,
                 head := .coh (if copiesRemain s t then 1 else 0) t.dirty.isSome t.dirty.isSome false false 0 t.la,
                 data := d }

/-- A directory snoop starts (R255): SNPS goes to the possible owner, SNPF to every holder, and on a region line
to every region holder. SNPF removes its targets. -/
def startSnoop (s : State) (id : Nat) (t : Track) : State :=
  let e := findEntry s t.la
  let region := match e with | some e => e.region | none => false
  let owner := e.bind (·.owner)
  let hs := match e with
    | some e => if t.txn.opc = 0x53 || e.region then e.holders else e.owner.toList
    | none => []
  let own : Txn := { t.txn with spkg := BitVec.ofNat 12 (ownPkg s), sdie := s.die, ten := 0 }
  if hs.isEmpty then answerDirectory s t
  else
    let s := modTrack s id fun t =>
      { t with busy := true, awaiting := hs, region := region, target := if region then none else owner, tsnoop := t.txn.opc }
    let s := if t.txn.opc = 0x53 ∧ !region then hs.foldl (fun s h => dropHolder s t.la h) s else s
    sendSnoops s own t.txn.opc t.la true hs

/-- A recall of R269 starts: the entry, when it still exists, is recalled and its data discarded. -/
def startAbsentRecall (s : State) (id : Nat) (t : Track) : State :=
  match s.home.filter.find? fun e => e.region == t.region && e.la == t.rla with
  | some e => recallEntry s id t e
  | none => delTrack s id

/-- Start one entry when nothing earlier or busy covers its lines. -/
def tryStart (s : State) (id : Nat) : State :=
  match s.home.track.find? (·.id == id) with
  | none => s
  | some t =>
    let blocked := s.home.track.any fun o => o.id != id && (o.busy || decide (o.id < id)) && conflict o t
    if t.busy || blocked then s
    else match t.kind with
      | .request => startRequest 64 s id t
      | .writeback => startWriteback s id t
      | .snoop => startSnoop s id t
      | .recall => startAbsentRecall s id t

/-- Start every entry that can, in arrival order (R256). -/
def pump (s : State) : State := (s.home.track.map (·.id)).foldl tryStart s

/-! ### Ending an entry -/

/-- Everything an entry serving a request waits for has come (R256, R262). -/
def trackDone (t : Track) : Bool :=
  t.inrDone && !t.needFetch && !t.fetching && t.awaiting.isEmpty && t.ackDone
    && (!(t.staleAck && t.dirtyFwd) || t.dataAck)

/-- Release an entry that is done and let the parked ones go on. -/
def settleTrack (s : State) (id : Nat) : State :=
  match s.home.track.find? (·.id == id) with
  | some t => if t.kind == .request && trackDone t then pump (delTrack s id) else s
  | none => s

/-- The last answer of a recall has come: the entry is removed, unless one line of a region was recalled, and the
request goes on (R266, R267, R269). -/
def recallEnds (s : State) (t : Track) : State :=
  let whole := t.region || t.kind == .recall || t.rla != t.la
  let s := if whole then setFilter s (s.home.filter.filter fun e => !(e.region == t.region && e.la == t.rla)) else s
  if t.kind == .recall then pump (delTrack s t.id)
  else
    let t' := { t with recalling := false, region := false, rla := 0, awaiting := [] }
    let s := modTrack s t.id fun _ => { t' with busy := false }
    -- A recalled region line proceeds as state N; after a recall for room the request looks for it again.
    let s := if whole then tryStart s t.id else presentRequest s t.id t'
    pump s

/-- A directory snoop is answered once every holder has answered. -/
def snoopEnds (s : State) (id : Nat) : State :=
  match s.home.track.find? (·.id == id) with
  | some t => if t.awaiting.isEmpty then pump (answerDirectory s t) else s
  | none => s

/-! ### Requests and writebacks arriving (R257, R259) -/

/-- An absent range covers an address (R223). -/
def absentHit (s : State) (g : Gpa) (len : Nat) : Bool :=
  let off := gpaOff g
  (s.rows 0x7000 0x05).any fun r =>
    let base := bitsOf r 8 10 * 2 ^ 28
    bitsOf r 18 11 != 0 && bitsOf r 0 8 == (gpaDie g).toNat && decide (off < base + bitsOf r 18 11 * 2 ^ 28)
      && decide (base < off + max len 1)

/-- A coherence request at its home: refused when the range is absent (R223), held back when the tracker is full. -/
def homeRequest (s : State) (pl : Place) (w : Waiting) : State :=
  targetOr s pl w fun s =>
    if absentHit s (lineGpa w.txn.la) 128 then answerAt s pl w 0x11 0 []
    else if trackerFull s then s
    else pump (addTrack (takeAt s pl) .request w.txn w.txn.la)

/-- A CWB or CEVC at its home. -/
def homeWriteback (s : State) (pl : Place) (w : Waiting) : State :=
  targetOr s pl w fun s =>
    if trackerFull s then s else pump (addTrack (takeAt s pl) .writeback w.txn w.txn.la)

/-- CRD (R257). -/
def execCrd (pl : Place) (s : State) : Host.Outcome State Fault Refusal :=
  serveAt s pl 0x40 fun s w => homeRequest s pl w

/-- CRDX (R257). -/
def execCrdx (pl : Place) (s : State) : Host.Outcome State Fault Refusal :=
  serveAt s pl 0x41 fun s w => homeRequest s pl w

/-- CUPG (R257). -/
def execCupg (pl : Place) (s : State) : Host.Outcome State Fault Refusal :=
  serveAt s pl 0x42 fun s w => homeRequest s pl w

/-- CWRL (R257). -/
def execCwrl (pl : Place) (s : State) : Host.Outcome State Fault Refusal :=
  serveAt s pl 0x43 fun s w => homeRequest s pl w

/-- CWB (R259). -/
def execCwb (pl : Place) (s : State) : Host.Outcome State Fault Refusal :=
  serveAt s pl 0x44 fun s w => homeWriteback s pl w

/-- CEVC (R259). -/
def execCevc (pl : Place) (s : State) : Host.Outcome State Fault Refusal :=
  serveAt s pl 0x45 fun s w => homeWriteback s pl w

/-- A directory snoop takes an entry (R255, R256): at once while the busy entry of its line awaits its INR answer,
otherwise in turn. -/
def directorySnoop (s : State) (k : Nat) : State :=
  match atPlace s (.ifi .snp k) with
  | none => s
  | some w =>
    let t := w.txn
    if t.opc ≠ 0x50 ∧ t.opc ≠ 0x53 then takeAt s (.ifi .snp k)
    else if trackerFull s then s
    else
      let id := s.home.nextId
      let s := addTrack (takeAt s (.ifi .snp k)) .snoop t t.la
      match s.home.track.find? (·.id == id) with
      | none => s
      | some tr =>
        let busyOnes := s.home.track.filter fun o => o.id != id && o.busy && conflict o tr
        let early := s.home.track.any fun o => o.id != id && conflict o tr
        if !early then startSnoop s id tr
        else if busyOnes.all fun o => o.kind != .snoop && !o.inrDone then startSnoop s id tr
        else s

/-- DIRECTORY_SNOOP (R255). -/
def execDirectorySnoop (k : Nat) (s : State) : Host.Outcome State Fault Refusal := .next (directorySnoop s k)

/-! ### Answers of the directory (R254, R257–R259) -/

/-- The request on INB that an answer on INR belongs to: bits [59:16] and LA are copied (R254). -/
def inbMatch (t x : Txn) : Bool :=
  x.ten == t.ten && x.tag == t.tag && x.sport == t.sport && x.spkg == t.spkg && x.sdie == t.sdie
    && isCoh x.opc && x.la == t.la

/-- Forget a request on INB. -/
def dropInb (s : State) (t : Txn) : State :=
  match findIdx (inbMatch t) s.inbOut with
  | some i => { s with inbOut := dropAt i s.inbOut }
  | none => s

/-- Record a grant in the filter (R257, R266, R267). -/
def recordGrant (s : State) (la : LineAddr) (r : Holder) (st : LineSt) : State :=
  if s.home.filter.any (isLineEntry la) then
    modLine s la fun e =>
      if st = .e then { e with owner := some r, owned := false, holders := [r] }
      else { e with holders := if e.holders.contains r then e.holders else e.holders ++ [r] }
  else if s.home.filter.any (isRegionEntry la) then
    setFilter s (mapIf (isRegionEntry la)
      (fun e => { e with holders := if e.holders.contains r then e.holders else e.holders ++ [r] }) s.home.filter)
  else
    setFilter s (s.home.filter ++ [{ region := false, la := la, owner := if st = .e then some r else none,
                                     owned := false, holders := [r], used := s.home.useCtr }])

/-- The sharer recorded longest that a seventh holder displaces (R266). -/
def displaced (s : State) (la : LineAddr) (r : Holder) : Option Holder :=
  match s.home.filter.find? (isLineEntry la) with
  | some e =>
    if 6 ≤ (e.holders.filter (· != r)).length then e.holders.find? fun h => h != r && e.owner != some h else none
  | none => none

/-- What the grant of a request calls for (R257): granted state, snoop to the possible owner, sharers to
invalidate, acknowledgements. -/
structure GrantPlan where
  st : LineSt
  owner : Option (BitVec 8 × Holder)
  inval : List Holder
  acks : Nat
deriving DecidableEq, Repr

/-- The table of R257. -/
def grantPlan (opc : BitVec 8) (fs : FilterSt) (dirSt : LineSt) : GrantPlan :=
  match opc.toNat, fs with
  | 0x40, .n => ⟨dirSt, none, [], 0⟩
  | 0x40, .sh _ => ⟨.s, none, [], 0⟩
  | 0x40, .ex q _ => ⟨.s, some (0x50, q), [], 0⟩
  | 0x40, .ow q _ => ⟨.s, some (0x50, q), [], 0⟩
  | _, .n => ⟨.e, none, [], 0⟩
  | _, .sh hs => ⟨.e, none, hs, hs.length⟩
  | 0x41, .ex q hs => ⟨.e, some (0x51, q), hs, hs.length⟩
  | 0x41, .ow q hs => ⟨.e, some (0x51, q), hs, hs.length⟩
  | _, .ex q hs => ⟨.e, some (0x52, q), hs, hs.length + 1⟩
  | _, .ow q hs => ⟨.e, some (0x52, q), hs, hs.length + 1⟩

/-- The INR answer of a request: snoops and the GNT of that cc (R257, R258). -/
def grantRequest (s : State) (tr : Track) (g : Txn) : State :=
  let t := tr.txn
  let la := tr.la
  let r := holderOf t
  let recorded := recordsHolder s la r
  let opc : BitVec 8 := if t.opc = 0x42 ∧ !recorded then 0x41 else t.opc
  let p := grantPlan opc (filterSt s la r) (lineSt g.cst)
  let old := if p.st = .e then none else displaced s la r
  let forwards := match p.owner with
    | some (o, _) => o != 0x52
    | none => false
  let fetch := tr.nodata && (opc == 0x40 || opc == 0x41) && !forwards
  let s := match p.owner with
    | some (o, q) =>
      let s := sendSnoop s t o la false q
      if o = 0x50 then s else dropHolder s la q
    | none => s
  let s := p.inval.foldl (fun s h => dropHolder (sendSnoop s t 0x52 la false h) la h) s
  let s := match old with
    | some h => dropHolder (sendSnoop s t 0x52 la true h) la h
    | none => s
  let s := recordGrant s la r p.st
  let s := modTrack s tr.id fun x =>
    { x with inrDone := true, grant := some p.st, needFetch := fetch, txn := { t with opc := opc },
             awaiting := (p.owner.map (·.2)).toList ++ p.inval ++ old.toList,
             target := p.owner.map (·.2), tsnoop := (p.owner.map (·.1)).getD 0 }
  let s := sendOut s { t with opc := 0x48,
                              head := .coh (BitVec.ofNat 4 p.st.code) g.cdata false false false
                                (BitVec.ofNat 4 p.acks) la,
                              data := if g.cdata then g.data else [] }
  settleTrack s tr.id

/-- The answer to a CFETCH goes to the requester as FWD (R258). -/
def forwardFetched (s : State) (tr : Track) (g : Txn) : State :=
  let s := modTrack s tr.id fun x => { x with fetching := false }
  let st := (tr.grant.map (·.code)).getD 0
  let s := sendOut s { tr.txn with opc := 0x5C, head := .coh (BitVec.ofNat 4 st) true false false false 0 tr.la,
                                   data := g.data }
  settleTrack s tr.id

/-- The busy entry that serves a transaction of a kind on a line. -/
def busyTrack (s : State) (kind : TrackKind) (t : Txn) : Option Track :=
  s.home.track.find? fun x =>
    x.busy && x.kind == kind && x.la == t.la && x.txn.tag == t.tag && x.txn.sport == t.sport
      && holderOf x.txn == holderOf t

/-- GNT on IFI-INR (R254): to the request, or to its CFETCH. One that answers nothing is discarded. -/
def inrGrant (s : State) (k : Nat) (g : Txn) : State :=
  let s := takeAt s (.ifi .inr k)
  if s.inbOut.any (inbMatch g) then
    let s := dropInb s g
    match busyTrack s .request g with
    | some tr =>
      if tr.presented && !tr.inrDone then grantRequest s tr g
      else if tr.fetching then forwardFetched s tr g
      else s
    | none => s
  else s

/-- WBACK on IFI-INR (R259); the answer to a CWB that the home itself presented is consumed. -/
def inrWback (s : State) (k : Nat) (g : Txn) : State :=
  let s := takeAt s (.ifi .inr k)
  if s.inbOut.any (inbMatch g) then
    let s := dropInb s g
    match busyTrack s .writeback g with
    | some tr => if tr.presented then pump (sendWback (delTrack s tr.id) tr.txn false) else s
    | none => s
  else s

/-- GNT (R254, R261): the directory's answer on IFI-INR, or a grant at the requester. -/
def execGnt (pl : Place) (s : State) : Host.Outcome State Fault Refusal :=
  serveAt s pl 0x48 fun s w =>
    match pl with
    | .ifi .inr k => inrGrant s k w.txn
    | .ifi _ _ => s
    | _ => takeGnt s pl w

/-- WBACK (R254, R259): the directory's answer on IFI-INR, or the acknowledgement at the evicting die. -/
def execWback (pl : Place) (s : State) : Host.Outcome State Fault Refusal :=
  serveAt s pl 0x49 fun s w =>
    match pl with
    | .ifi .inr k => inrWback s k w.txn
    | .ifi _ _ => s
    | _ => takeWback s pl w

/-- The home presents CFETCH for a requester left without data (R258). -/
def fetchLine (s : State) (la : LineAddr) : State :=
  match s.home.track.find? fun t => t.busy && t.la == la && t.needFetch with
  | some t =>
    let s := modTrack s t.id fun t => { t with needFetch := false, fetching := true }
    presentCoh (s.bump 0x8100 0x06 1) t.txn 0x47 0 false false
  | none => s

/-- CFETCH (R258). -/
def execCfetch (la : LineAddr) (s : State) : Host.Outcome State Fault Refusal := .next (fetchLine s la)

/-! ### Answers of holders and requesters (R256–R258, R262, R266) -/

/-- The entry that awaits a snoop answer. -/
def awaitingTrack (s : State) (t : Txn) (h : Holder) : Option Track :=
  s.home.track.find? fun x =>
    x.busy && x.awaiting.contains h && x.txn.tag == t.tag && x.txn.sport == t.sport
      && (if x.recalling then meets (x.region, x.rla) (false, t.la) else x.la == t.la)
      && holderOf t == (if x.kind == .request then holderOf x.txn else ⟨BitVec.ofNat 12 (ownPkg s), s.die⟩)

/-- A recall receives an answer: dirty data is written home, or discarded under R269; a region holder has answered
with its SRSPR only. -/
def recallAnswer (s : State) (x : Track) (t : Txn) (h : Holder) : State :=
  let owner := match s.home.filter.find? (isLineEntry x.rla) with
    | some e => !x.region && e.owner == some h
    | none => false
  let s := if lineSt t.cst == .i && !t.vb && owner then lineLost s else s
  let s := if t.cdata && !x.discard then writeHome s t.la (t.data.drop 1) else s
  if x.region then s
  else
    let left := x.awaiting.filter (· != h)
    let s := modTrack s x.id fun x => { x with awaiting := left }
    if left.isEmpty then recallEnds s { x with awaiting := left } else s

/-- A directory snoop receives an answer (R255, R260). -/
def directoryAnswer (s : State) (x : Track) (t : Txn) (h : Holder) : State :=
  let st := lineSt t.cst
  let s := if st == .i && !t.vb && x.target == some h then lineLost s else s
  let s := if x.tsnoop = 0x50 ∧ !x.region then
      if st = .i then dropHolder s x.la h
      else modLine s x.la fun e => if e.owner = some h then { e with owner := none, owned := false } else e
    else s
  let s := modTrack s x.id fun x =>
    { x with awaiting := x.awaiting.filter (· != h),
             dirty := if t.cdata then some (cellsToLine (t.data.drop 1)) else x.dirty,
             remain := x.remain || (x.region && x.tsnoop == 0x50 && st != .i) }
  snoopEnds s x.id

/-- A request's snoop is answered (R257, R258): the record after SNPS, a missing forward, a lost line. -/
def requestAnswer (s : State) (x : Track) (t : Txn) (h : Holder) : State :=
  let st := lineSt t.cst
  let isTarget := x.target == some h
  let s := if isTarget && st == .i && !t.vb then lineLost s else s
  let s := if isTarget && x.tsnoop == 0x50 then
      match st with
      | .i => dropHolder s x.la h
      | .m | .o => modLine s x.la fun e => { e with owner := some h, owned := true }
      | _ => modLine s x.la fun e => if e.owner = some h then { e with owner := none, owned := false } else e
    else s
  let noFwd := isTarget && (x.tsnoop == 0x50 || x.tsnoop == 0x51) && (st == .i || st == .s)
  let s := if t.cdata then writeHome s x.la (t.data.drop 1) else s
  let s := modTrack s x.id fun x =>
    { x with awaiting := x.awaiting.erase h, needFetch := x.needFetch || noFwd,
             dirtyFwd := x.dirtyFwd || (isTarget && x.tsnoop == 0x51 && st.dirty) }
  settleTrack s x.id

/-- SRSP at the home. One that nothing awaits is discarded. -/
def takeSrsp (s : State) (t : Txn) : State :=
  let h := targetHolder t
  match awaitingTrack s t h with
  | none => s
  | some x =>
    if x.recalling then recallAnswer s x t h
    else if x.kind == .snoop then directoryAnswer s x t h
    else requestAnswer s x t h

/-- SRSP (R257). -/
def execSrsp (pl : Place) (s : State) : Host.Outcome State Fault Refusal :=
  serveAt s pl 0x58 fun s w => targetOr s pl w fun s => takeSrsp (takeAt s pl) w.txn

/-- SRSPR at the home (R266): this holder has flushed the region. -/
def takeSrspr (s : State) (t : Txn) : State :=
  let h := targetHolder t
  match awaitingTrack s t h with
  | none => s
  | some x =>
    if x.recalling && x.region then
      let left := x.awaiting.filter (· != h)
      let s := modTrack s x.id fun x => { x with awaiting := left }
      if left.isEmpty then recallEnds s { x with awaiting := left } else s
    else s

/-- SRSPR (R266). -/
def execSrspr (pl : Place) (s : State) : Host.Outcome State Fault Refusal :=
  serveAt s pl 0x59 fun s w => targetOr s pl w fun s => takeSrspr (takeAt s pl) w.txn

/-- A requester that no longer knows its transaction leaves the filter: the line entry, or the region entry that stands for it
(R262, R265). -/
def dropStale (s : State) (la : LineAddr) (h : Holder) : State :=
  if s.home.filter.any (isLineEntry la) then dropHolder s la h
  else
    setFilter s ((mapIf (isRegionEntry la) (fun e => { e with holders := e.holders.filter (· != h) }) s.home.filter).filter
      fun e => !e.holders.isEmpty)

/-- CACK at the home (R256, R262). One that carries data is the second of two and does not end the entry (log entry 133). -/
def takeCack (s : State) (t : Txn) : State :=
  match busyTrack s .request t with
  | none => s
  | some x =>
    if !x.inrDone then s
    else
      let s := if t.stale then dropStale s x.la (holderOf t) else s
      let s := if t.cdata then writeHome s x.la t.data else s
      let s := modTrack s x.id fun x =>
        { x with staleAck := x.staleAck || t.stale, dataAck := x.dataAck || t.cdata, ackDone := x.ackDone || !t.cdata }
      settleTrack s x.id

/-- CACK (R262). -/
def execCack (pl : Place) (s : State) : Host.Outcome State Fault Refusal :=
  serveAt s pl 0x46 fun s w => targetOr s pl w fun s => takeCack (takeAt s pl) w.txn

end Sys2Proof.Machine
end

