-- ==== Sys2Proof/Machine/Send.lean ====
section
/-!
DEFINITION. The sending side of a port: which waiting transaction is committed next (R134, R152, R225, R302, R340),
and what a flit slot carries (R11, R118, R121, R123, R126, R129, R132, R135).
-/

namespace Sys2Proof.Machine
open Sys2Proof

/-! ### Candidates -/

/-- Where a transaction stands that may be committed. -/
inductive CandAt where
  | place (pl : Place)
  | waitq (q k : Nat)
deriving DecidableEq, Repr

/-- A transaction that waits at step 10 of R219, and its place. -/
structure Cand where
  loc : CandAt
  w : Waiting
deriving DecidableEq, Repr

/-- Every transaction that might wait for a port: queues of the adapter, receive buffers, IFI buffers. -/
def allCands (s : State) : List Cand :=
  let ing (ch : IngCh) : List Cand :=
    (withIdx (s.ingress.filter (·.1 == ch))).map fun x => ⟨.place (.ifi ch x.1), x.2.2⟩
  ((List.finRange 10).map fun (q : PortId) =>
    ((withIdx (s.port q).waitq).map fun x => (⟨.waitq q x.1, x.2⟩ : Cand))
      ++ (withIdx (s.port q).rx).map fun x => ⟨.place (.rx q x.1), x.2⟩).flatten
    ++ ing .req ++ ing .inr ++ ing .msg

/-- Insert by time of arrival, after those that came no later. -/
def insertCand (c : Cand) : List Cand → List Cand
  | [] => [c]
  | d :: ds => if c.w.at_ < d.w.at_ then c :: d :: ds else d :: insertCand c ds

/-- The transactions that wait for a port, oldest first. -/
def cands (s : State) (q : Nat) : List Cand :=
  ((allCands s).filter fun c => waitsFor s q c.w).foldl (fun l c => insertCand c l) []

/-- The source adapter gives this transaction a TAG (R224, R225). -/
def needsTag (w : Waiting) : Bool :=
  w.from_.isNone
    && (isMem w.txn.opc || w.txn.opc == 0x20 || isSync w.txn.opc || isCohReq w.txn.opc || isMgmt w.txn.opc)

/-- The head of a VC: its first transaction that can get its TAG. -/
def vcHead (s : State) (q : Nat) (cs : List Cand) (v : Nat) : Option Cand :=
  cs.find? fun c => outVc s c.w.txn == v && (!needsTag c.w || (nextTag s q).isSome)

/-- The head of a VC passes the credit check (R131, R302). -/
def headPasses (s : State) (q v : Nat) (c : Cand) : Bool := creditOk s q c.w.txn.ten v c.w.txn.size

/-- The VC holds a transaction whose head fails only the credit check (counters 33–47). -/
def creditStarved (s : State) (q : Nat) (cs : List Cand) (v : Nat) : Bool :=
  match vcHead s q cs v with
  | some c => !headPasses s q v c
  | none => false

/-- CREDIT_TIMEOUT (R139): a VC has long held a transaction that fails only the credit check: LINK_FULL with reason credit
timeout; of a pair the active unit leaves (R319). 0 means no timeout. -/
def execCreditTimeout (q : PortId) (s : State) : Host.Outcome State Fault Refusal :=
  let l := logical s q
  onPort s q
    (if s.pget 0x5000 l 0x14 1000000 ≠ 0 ∧ (List.range 15).any (fun i => creditStarved s l (cands s l) (i + 1)) then
      requestFull s (activeUnit s l) 4 true
    else s)

/-! ### Arbitration (R134) -/

/-- The round-robin class (R127). -/
def rrClass : List Nat := [1, 5, 6, 7, 8, 10, 11, 12, 13, 14, 15]
/-- The priority class in rank order (R127). -/
def prioClass : List Nat := [2, 3, 4, 9]

/-- Weight of a VC. -/
def vcWeight (s : State) (q v : Nat) : Nat := s.pget 0x5011 q v 1

/-- The list from the element after `x` on, with wrap, `x` itself last. -/
def rotateAfter (x : Nat) (xs : List Nat) : List Nat := xs.filter (x < ·) ++ xs.filter (· ≤ x)

/-- What the arbitration has chosen: the transaction, its VC, and the port with its pointers moved. -/
abbrev Choice := Cand × Nat × Port

/-- A round-robin VC that has been ready with credit for 512 cc or more, the longest-waiting first (step 1). -/
def agedVc (s : State) (q : Nat) (ok : Nat → Option Cand) : Option (Cand × Nat) :=
  let p := s.port q
  rrClass.foldl
    (fun best v =>
      match ok v, p.readyAt.getD v none with
      | some c, some t =>
        if t + 512 ≤ s.now then
          match best with
          | some (_, b) => if t < (p.readyAt.getD b none).getD s.now then some (c, v) else best
          | none => some (c, v)
        else best
      | _, _ => best)
    none

/-- Deficit round robin over the VCs of non-zero weight, then plain round robin over those of weight 0 (step 3). A pointer at
a VC whose weight has been written 0 goes to the lowest-numbered VC of non-zero weight (log entry 123). -/
def rrChoice (s : State) (q : Nat) (ready : Nat → Bool) (ok : Nat → Option Cand) : Option Choice :=
  let p := s.port q
  let ws := rrClass.filter fun v => vcWeight s q v != 0
  let p := { p with deficit := (List.range 16).map fun v => if ready v then p.deficit.getD v 0 else 0 }
  let cur := if ws.contains p.drr then p.drr else ws.headD 0
  match (ok cur).filter fun c => ws.contains cur && decide (c.w.txn.size ≤ p.deficit.getD cur 0) with
  | some c => some (c, cur, { p with drr := cur, deficit := setAt cur (p.deficit.getD cur 0 - c.w.txn.size) p.deficit })
  | none =>
    match (rotateAfter cur ws).findSome? fun v => (ok v).map fun c => (c, v) with
    | some (c, v) =>
      some (c, v, { p with drr := v,
                           deficit := setAt v (p.deficit.getD v 0 + 16 * vcWeight s q v - c.w.txn.size) p.deficit })
    | none =>
      let zs := rrClass.filter fun v => vcWeight s q v == 0
      ((rotateAfter p.drr0 zs).findSome? fun v => (ok v).map fun c => (c, v)).map fun x =>
        (x.1, x.2, { p with drr0 := x.2 })

/-- The next transaction to start on a port. -/
def arbitrate (s : State) (q : Nat) (cs : List Cand) : Option Choice :=
  let ok (v : Nat) : Option Cand := (vcHead s q cs v).filter (headPasses s q v)
  match agedVc s q ok with
  | some (c, v) => some (c, v, s.port q)
  | none => match prioClass.findSome? fun v => (ok v).map fun c => (c, v) with
    | some (c, v) => some (c, v, s.port q)
    | none => rrChoice s q (fun v => (vcHead s q cs v).isSome) ok

/-! ### Commitment -/

/-- Take a candidate out of its place. -/
def takeCand (s : State) (c : Cand) : State :=
  match c.loc with
  | .place pl => takeAt s pl
  | .waitq q k => s.modPort q fun p => { p with waitq := dropAt k p.waitq }

/-- What a TAG is used for. -/
def tagUse (w : Waiting) : TagUse :=
  match w.line with
  | some la => if w.txn.opc = 0x44 ∨ w.txn.opc = 0x45 then .victim la else .rlc la
  | none => if w.taken = 0 then .die else .proxy (w.taken - 1)

/-- Count a coherence request as it is sent (the counters of 0x8001). -/
def countCoh (s : State) (opc : BitVec 8) : State :=
  if opc = 0x44 then s.bump64 0x8001 0x05 1
  else if opc = 0x45 then s.bump64 0x8001 0x04 1
  else if opc = 0x42 then s.bump64 0x8001 0x03 1
  else s.bump64 0x8001 0x02 1

/-- The entry of the RLC that a coherence request serves learns its port and TAG. -/
def noteTag (s : State) (q : Nat) (tag : Tag) (w : Waiting) : State :=
  match w.line with
  | none => s
  | some la =>
    let r := s.rlc
    let r := if w.txn.opc = 0x44 ∨ w.txn.opc = 0x45 then
        { r with victims := mapIf (fun v => v.la == la) (fun v => { v with port := some q, tag := tag }) r.victims }
      else { r with miss := mapIf (fun m => m.la == la) (fun m => { m with port := some q, tag := tag }) r.miss }
    countCoh { s with rlc := r } w.txn.opc

/-- Link form of a transaction of this adapter (R208, R209). -/
def linkForm (s : State) (q : Nat) (tag : Tag) (w : Waiting) : Txn :=
  { w.txn with
    tag := tag, sport := BitVec.ofNat 4 q, spkg := BitVec.ofNat 12 (ownPkg s), sdie := s.die,
    head := match w.txn.head with | .mem fen _ len _ => .mem fen false len w.gpa | h => h }

/-- Commit a transaction to a port (R152, R225): TAG, credit, and its cells behind those of the flit that is being filled. The
next head of its VC is ready anew (R134). -/
def commitTxn (s : State) (q v : Nat) (c : Cand) : State :=
  let w := c.w
  let place (s : State) (t : Txn) : State :=
    (freeOf (takeCand s c) w.frees).modPort q fun p =>
      { (chargeCredit t.ten v t.size p) with
        stream := p.stream ++ t.linkCells v, readyAt := setAt v none p.readyAt, idleAt := s.now, idle := false }
  if needsTag w then
    match nextTag s q with
    | none => s
    | some tag =>
      let i : TagInfo := { opc := w.txn.opc, ten := w.txn.ten, rqid := w.txn.rqid, seq := w.seq, use_ := tagUse w }
      let tg := BitVec.ofNat 12 tag
      place (noteTag (s.setTag q tag i) q tg w) (linkForm s q tg w)
  else place s w.txn

/-- Discard or complete a transaction whose feature the partner lacks (R340, R342). -/
def refuseFeature (s : State) (q : Nat) (c : Cand) : State :=
  let s := s.bump (0xC100 + 16 * q) 0x07 1
  match c.loc, c.w.line with
  | .waitq _ _, some la =>
    let s := takeCand s c
    if c.w.txn.opc = 0x44 ∨ c.w.txn.opc = 0x45 then
      freeVictim s la
    else refuseMiss (s.countStatus 0x15) la 0x15
  | .waitq _ _, none =>
    let s := takeCand s c
    if c.w.taken = 0 then s else s.bump 0xC002 0x03 1
  | .place pl, _ => if isPosted c.w.txn.opc then takeAt s pl else answerAt s pl c.w 0x15 0 []

/-- One step of commitment on a port that can take a new on-demand flit: nothing when no transaction is ready. -/
def commitStep (s : State) (q : Nat) : Option State :=
  let cs := cands s q
  match cs.find? fun c => !featuresCover s q c.w.txn with
  | some c => some (refuseFeature s q c)
  | none => match arbitrate s q cs with
    | some (c, v, p) => some (commitTxn (s.setPort q p) q v c)
    | none => none

/-! ### Flits -/

/-- The VC whose return rides the next header (R132): the largest pending count, the lowest VC on a tie. -/
def largestPend (p : Port) : Nat × Nat :=
  (List.range 16).foldl (fun b v => if b.2 < p.pend.getD v 0 then (v, p.pend.getD v 0) else b) (0, 0)

/-- Credit return of a sequenced header, at most 63 cells; none in the dual-action window (R132, R321). -/
def headerCredit (s : State) (q : Nat) : Nat × Nat :=
  let quiet := match pairOf s q with
    | some k => inWindow s k || (s.port q).ctrlOut.any fun c => ctypeOf c == 8
    | none => false
  if quiet then (0, 0)
  else
    let (v, n) := largestPend (s.port q)
    if n = 0 then (0, 0) else (v, min n 63)

/-- RC_v of a pair rises with every cell placed in a return (R321). -/
def countReturn (s : State) (q v n : Nat) : State :=
  match pairOf s q with
  | some k => s.modPair k fun pr => { pr with rc := setAt v ((pr.rc.getD v 0 + n) % 65536) pr.rc }
  | none => s

/-- Take a header return out of the pending counts; when none is left, no CREDIT cells are owed either (R132). -/
def takeReturn (s : State) (q v n : Nat) : State :=
  if n = 0 then s
  else
    countReturn
      (s.modPort q fun p =>
        let left := setAt v (p.pend.getD v 0 - n) p.pend
        { p with pend := left, credOut := p.credOut && left.any (· != 0) }) q v n

/-- The bundle for the next flit of a unit: the first bundle in use at or after the striping pointer (R118). -/
def nextBundle (mask start : Nat) : Nat :=
  ((List.range 32).findSome? fun i => if bitAt mask ((start + i) % 16) then some ((start + i) % 16) else none).getD 0

/-- Mask of the port, of a pair that of its active unit. -/
def sendMask (s : State) (q : Nat) : Nat := (s.port (activeUnit s q)).mask

/-- Flit time of a UCIe module in cc, which holds the flit slot (R351). -/
def flitTime (rate width : Nat) : Nat :=
  (match rate with | 0 => 32 | 1 => 16 | 2 => 11 | _ => 8) * (if width = 8 then 2 else 1)

/-- A flit slot is free in this cc: on a wire port the bundle that comes next carries no flit yet (R118), and a UCIe module
holds no slot (R351); a reach port has the slots of one codeword pair ahead of the codewords (R95). -/
def slotFree (s : State) (q : Nat) : Bool :=
  let p := s.port q
  if Config.isReach q then decide (p.txSlots.length < 5)
  else !p.sentOn.contains (nextBundle (sendMask s q) p.stripe) && decide (p.slotTill ≤ s.now)

/-- The units on which a flit of a port goes out: the port, or the merged and catching-up units of its pair. -/
def sendUnits (s : State) (q : Nat) : List Nat :=
  match pairOf s q with
  | some k => [pairA s k, pairB s k].filter fun u =>
      unitUp s u && ((roleOf s k u).merged || roleOf s k u == .catchup)
  | none => [q]

/-- A flit goes out on a unit: on a bundle, whose wires keep its last UI (R64), or into the next slot of the codewords. -/
def sendOnUnit (f : Flit) (inverted : Bool) (place : Nat) (s : State) (u : Nat) : State :=
  if Config.isReach u then
    (s.emit (.flit u 0 f inverted)).modPort u fun p => { p with txSlots := p.txSlots ++ [(f, inverted)] }
  else
    let b := bundleAt (s.port u).mask place
    (s.emit (.flit u b f inverted)).modBundle u b fun bn =>
      { bn with lastUi := some ((f.sentBits inverted).extractLsb' 1984 64) }

/-- Drive a flit: acknowledgement debts are settled by every header (R121), and the idle count restarts (R397). A wire port
sends nothing behind an ACKO flit in the same cc (R118). -/
def driveFlit (s : State) (q : Nat) (f : Flit) (inverted : Bool) : State :=
  let p := s.port q
  let f := { f with gen := p.gen, ackseq := p.e - 1, ackk := if p.nakOwed then 2 else 1, twin := (pairOf s q).isSome }
  let s := if p.nakOwed then s.pbump 0x5001 q 0x05 1 else s
  let mask := sendMask s q
  let b := if Config.isReach q then 0 else nextBundle mask p.stripe
  let s := (sendUnits s q).foldl (sendOnUnit f inverted (rankIn mask b)) s
  let s := s.tev 1 q b false f.header
  s.modPort q fun p =>
    { p with nakOwed := false, ackAt := none, ackOwed := false, stripe := (b + 1) % 16, idleAt := s.now, idle := false,
             sentOn := if f.ftype = 4 then List.range 16 else p.sentOn ++ [b]
             slotTill := if ucieMode s q then s.now + flitTime (s.get (0xC200 + 16 * q) 0x02 0) (s.get (0xC200 + 16 * q) 0x03 0)
               else p.slotTill }

/-- Send a sequenced flit for the first time (R119, R126): it takes the next FSEQ and enters the replay buffer. -/
def sendNew (s : State) (q : Nat) (f : Flit) : State :=
  let p := s.port q
  let (v, n) := if f.ftype = 3 ∧ f.cells.any (fun c => ctypeOf c == 8) then (0, 0) else headerCredit s q
  let f := { f with fseq := p.o + BitVec.ofNat 12 p.replay.length, crvc := BitVec.ofNat 4 v, crcnt := BitVec.ofNat 6 n }
  let s := (takeReturn s q v n).modPort q fun p => { p with replay := p.replay ++ [f] }
  driveFlit (s.pbump64 0x5001 q 0x01 1) q f false

/-- Cells of each VC placed in flits sent for the first time (R421). -/
def countSent (q : Nat) (counts : List Nat) (s : State) : State :=
  s.modPort q fun p => (List.range 16).foldl (fun p v => obsAdd v (counts.getD v 0) p) p

/-- Walk over cells of the stream: cells left of the open transaction, its VC, and the count of each VC. -/
def walkCells : List Cell → Nat → Nat → List Nat → Nat × Nat × List Nat
  | [], left, vc, acc => (left, vc, acc)
  | c :: cs, left, vc, acc =>
    if left ≠ 0 then walkCells cs (left - 1) vc (addAt vc 1 acc)
    else walkCells cs (lcntOf c) (lvcOf c) (addAt (lvcOf c) 1 acc)

/-- Resend the flit at the replay pointer (R123). A re-packed flit that was never sent goes out as a first
transmission, with the credit return of its assembly (R164). -/
def sendReplay (s : State) (q i : Nat) : State :=
  let p := s.port q
  match p.replay[i]? with
  | none => s.modPort q fun p => { p with replayPtr := none }
  | some f =>
    let isFresh := decide (p.replay.length - p.fresh ≤ i)
    let next := if i + 1 < p.replay.length then some (i + 1) else none
    if isFresh then
      let (v, n) := headerCredit s q
      let f := { f with crvc := BitVec.ofNat 4 v, crcnt := BitVec.ofNat 6 n, rply := false }
      let (_, _, counts) := walkCells f.cells 0 0 (List.replicate 16 0)
      let s := (takeReturn s q v n).modPort q fun p =>
        { p with replay := setAt i f p.replay, replayPtr := next, fresh := p.fresh - 1 }
      let s := if f.ftype = 1 then countSent q (setAt 0 0 counts) s else s
      driveFlit (s.pbump64 0x5001 q 0x01 1) q f false
    else
      let s := s.modPort q fun p => obsAdd 58 1 { p with replayPtr := next }
      driveFlit (s.pbump64 0x5001 q 0x08 1) q { f with rply := true } (p.replayLost.contains f.fseq)

/-- Payload cells of a flit, filled with pad (R129, R135). -/
def pad15 (cs : List Cell) : List Cell := cs ++ List.replicate (15 - cs.length) 0

/-- The entries of CREDIT cells for the pending counts (R136): a count above 4095 takes several. -/
def pendEntries (p : Port) : List (Nat × Nat) :=
  ((List.range 16).map fun v =>
    let n := p.pend.getD v 0
    (List.range (ceilDiv n 4095)).map fun i => (v, min 4095 (n - 4095 * i))).flatten

/-- A CREDIT cell (R136). -/
def creditCell (es : List (Nat × Nat)) : Cell :=
  BitVec.ofNat 128 (1 + sumNat ((withIdx es).map fun x => field x.2.1 (16 * x.1 + 16) 4 + field x.2.2 (16 * x.1 + 20) 12))

/-- A TCREDIT cell (R322). -/
def tcreditCell (es : List (Nat × Nat)) : Cell :=
  BitVec.ofNat 128 (8 + sumNat ((withIdx es).map fun x => field x.2.1 (24 * x.1 + 16) 4 + field x.2.2 (24 * x.1 + 24) 16))

/-- Place every pending return: RC_v counts it and the pending counts become 0. -/
def flushPend (s : State) (q : Nat) : State :=
  let s := (List.range 16).foldl (fun s v => countReturn s q v ((s.port q).pend.getD v 0)) s
  s.modPort q fun p => { p with pend := List.replicate 16 0, credOut := false }

/-- TCREDIT entries for every credited VC of a pair, with RC_v (R321). -/
def tcreditCells (s : State) (k : Nat) : List Cell :=
  let rc := (s.twins.getD k {}).rc
  (chunk 4 4 ((List.range 15).map fun i => (i + 1, rc.getD (i + 1) 0))).map tcreditCell

/-- Send a CTRL flit of control cells (R113, R135). -/
def sendCtrlFlit (s : State) (q : Nat) (cs : List Cell) : State :=
  let cs := cs.map (stampBeacon s q)
  let f : Flit := { ftype := 3, cells := pad15 cs,
                    leap := cs.any fun c => ctypeOf c == 3 || ctypeOf c == 4 || ctypeOf c == 5,
                    beacon := cs.any fun c => ctypeOf c == 2 }
  let s := cs.foldl (fun s c => s.tev 8 q 0 false (c.extractLsb' 0 64)) s
  sendNew (s.modPort q (obsAdd 60 1)) q f

/-- Cells before the second beacon of a list: SCHED flits of the first one's epoch go in between (R193). -/
def beforeBeacon : (seen : Bool) → List Cell → Nat
  | _, [] => 0
  | seen, c :: cs =>
    if ctypeOf c = 2 then (if seen then 0 else 1 + beforeBeacon true cs) else 1 + beforeBeacon seen cs

/-- The cells of the next control flit: those of the scheduled plane first, at most 15 (R191), and one beacon. -/
def nextCtrl (p : Port) : List Cell × List Cell :=
  let all := p.ctrlOut.filter isSchCell ++ p.ctrlOut.filter fun c => !isSchCell c
  let n := min 15 (beforeBeacon false all)
  (all.take n, all.drop n)

/-- The beacon that opens an epoch waits to be sent. -/
def beaconWaits (p : Port) (n : Epoch) : Bool := p.ctrlOut.any fun c => ctypeOf c == 2 && c.extractLsb' 16 48 == n

/-- The first waiting SCHED flit may go: a flit accepted in epoch n follows the beacon n of the port, while one accepted before
goes ahead of it (R193). -/
def schedReady (p : Port) : Bool :=
  match p.schedOut with
  | [] => false
  | x :: _ => !beaconWaits p x.2

/-- An ACKO flit (R121). -/
def sendAcko (s : State) (q : Nat) : State :=
  driveFlit (s.modPort q (obsAdd 59 1)) q { ftype := 4, cells := List.replicate 15 0 } false

/-- Commit transactions to the flit in assembly until it is full or none is ready. -/
def fillStream : (fuel : Nat) → State → Nat → State
  | 0, s, _ => s
  | fuel + 1, s, q =>
    if 15 ≤ (s.port q).stream.length then s
    else match commitStep s q with
      | some s' => fillStream fuel s' q
      | none => s

/-- Send a DATA flit of up to 15 cells of the stream (R129). -/
def sendData (s : State) (q : Nat) : State :=
  let p := s.port q
  let cells := p.stream.take 15
  let (left, vc, counts) := walkCells cells p.streamLead p.streamVc (List.replicate 16 0)
  let lead := min p.streamLead cells.length
  let s := if slotOwnedNow s q then s.modPort q (obsAdd 57 1) else s
  let s := (countSent q counts s).modPort q fun p =>
    { p with stream := p.stream.drop 15, streamLead := left, streamVc := vc }
  sendNew s q { ftype := 1, cells := pad15 cells, lead := lead }

/-- Control cells of the port that have nothing to do with the schedule return credit (R132, R321). -/
def sendCredits (s : State) (q : Nat) : State :=
  match pairOf s q with
  | some k =>
    if inWindow s k then
      let s := flushPend s q
      sendCtrlFlit s q (tcreditCells s k)
    else sendCtrlFlit (flushPend s q) q ((chunk 15 7 (pendEntries (s.port q))).map creditCell)
  | none => sendCtrlFlit (flushPend s q) q ((chunk 15 7 (pendEntries (s.port q))).map creditCell)

/-- The replay buffer has room for a new sequenced flit: entries freed in this cc count as used still (R126). -/
def replayRoom (s : State) (q : Nat) : Bool :=
  decide ((s.port q).replay.length + (s.port q).freedNow < replayLimit s q)

/-- What the next flit slot of a port is for (R11, R126). -/
inductive SlotUse where
  | replay (i : Nat)
  | stalled
  | sched (f : Flit) (rest : List (Flit × Epoch))
  | ctrl
  | credit
  | onDemand
deriving DecidableEq, Repr

/-- A replay, a scheduled flit, a control flit, an on-demand flit, in this order (R11). With the replay buffer full only
replays and ACKO flits go out (R126). -/
def slotUse (s : State) (q : Nat) : SlotUse :=
  let p := s.port q
  match p.replayPtr with
  | some i => .replay i
  | none =>
    if !replayRoom s q then .stalled
    else match p.schedOut with
      | x :: xs => if schedReady p then .sched x.1 xs else .ctrl
      | [] => if !p.ctrlOut.isEmpty then .ctrl else if p.credOut then .credit else .onDemand

/-- An acknowledgement that is owed goes out alone when nothing carries it; else the slot stays empty. -/
def sendAckOnly (s : State) (q : Nat) : State :=
  if (s.port q).ackOwed || (s.port q).nakOwed then sendAcko s q else s.modPort q (obsAdd 56 1)

/-- On-demand traffic fills a slot, or the slot stays empty but for an acknowledgement (R11 item 4, R121). -/
def fillOnDemand (s : State) (q : Nat) : State :=
  let s := fillStream 64 s q
  if (s.port q).stream.isEmpty then sendAckOnly s q else sendData s q

/-- What one flit slot carries (R11). -/
def fillSlot (s : State) (q : Nat) : State :=
  match slotUse s q with
  | .replay i => sendReplay s q i
  | .stalled => sendAckOnly s q
  | .sched f rest => sendNew (s.modPort q fun p => obsAdd 0 15 { p with schedOut := rest }) q f
  | .ctrl =>
    let (now, later) := nextCtrl (s.port q)
    sendCtrlFlit (s.modPort q fun p => { p with ctrlOut := later }) q now
  | .credit => sendCredits s q
  | .onDemand => fillOnDemand s q

/-- A flit slot of a port is filled: the port carries flits and has agreed no sleep (R87), and a slot is free (R118). -/
def useSlot (s : State) (q : Nat) : State := if linkSends s q && slotFree s q then fillSlot s q else s

/-- FLIT_SLOT_FILL (R11). -/
def execFlitSlotFill (q : PortId) (s : State) : Host.Outcome State Fault Refusal := onPort s q (useSlot s (logical s q))

/-! ### Commitment in a flit (R152, R225) -/

/-- The port could start a transaction now: it sends, a slot is free, and the slot is on-demand traffic's (R11). A flit whose
15 cells all continue a transaction takes no first cell. -/
def mayCommit (s : State) (q : Nat) : Bool :=
  linkSends s q && slotFree s q && slotUse s q == .onDemand && decide ((s.port q).stream.length < 15)

/-- TRANSACTION_COMMIT: a waiting transaction gets its TAG and credit, and its first cell in the flit that goes out now (R152);
one that waits for a sleeping port wakes it (R399). -/
def commitOne (s : State) (q : Nat) : State :=
  if !linkUp s q then (if anyWaits s q then wakePort s q else s)
  else if mayCommit s q then
    match commitStep s q with
    | none => s
    | some t =>
      let t := fillStream 64 t q
      if (t.port q).stream.isEmpty then t else sendData t q
  else s

/-- TRANSACTION_COMMIT (R225). -/
def execTransactionCommit (q : PortId) (s : State) : Host.Outcome State Fault Refusal :=
  onPort s q (commitOne s (logical s q))

end Sys2Proof.Machine
end

