-- ==== Sys2Proof/Machine/Recovery.lean ====
section
/-!
DEFINITION. Link recovery (R145–R156, R165), the PARAM exchange (R157–R160, R320, R339), and how sequence, credit
and held traffic are settled at COMMIT (R161–R164).
-/

namespace Sys2Proof.Machine
open Sys2Proof

/-! ### Requests and timers -/

/-- FULL_REQ (R146): a LINK_FULL from ACTIVE or RETRAIN. -/
def execFullReq (q : PortId) (s : State) : Host.Outcome State Fault Refusal :=
  onPort s q (requestFull s q 5 false)

/-- RETRAIN_REQ (R146): a retrain from ACTIVE; ignored in a LINK_FULL. -/
def execRetrainReq (q : PortId) (s : State) : Host.Outcome State Fault Refusal :=
  onPort s q (requestRetrain s q false)

/-- A replay from O begins without counting a replay of the flit (R147, R161). -/
def replayFromOldest (p : Port) : Port :=
  { p with replayPtr := if p.replay.isEmpty then none else some 0, replayCnt := 0 }

/-- A retrain ends at the same width (R147). -/
def retrainEnds (s : State) (q : Nat) : State :=
  let p := s.port q
  if p.state = .retrain ∧ p.step = .idle then
    let s := s.modPort q fun p => { p with mask := p.lastMask, width := p.lastWidth }
    let s := s.goto q .active
    let l := logical s q
    let s := match pairOf s q with
      | some k => if siblingMerged s q then s else setRole s k q .active
      | none => s
    let s := if (s.port l).replay.isEmpty then s else s.pbump 0x5001 l 0x07 1
    s.modPort l replayFromOldest
  else s

/-- RETRAIN_COMPLETE (R147). -/
def execRetrainComplete (q : PortId) (s : State) : Host.Outcome State Fault Refusal :=
  onPort s q (retrainEnds s q)

/-- Fields of a port whose pins are parked after a loss of its PLL: what was being sent has ended. -/
def parkFields (p : Port) : Port :=
  { p with pll := false, pllPark := true, step := .idle, codes := [], once := [], params := [],
           param := { rxclr := p.param.rxclr }, bundles := p.bundles.map fun b => { b with msgs := [] } }

/-- The port's PLL loses lock (R154): its pins are parked, its state is kept, the cause is recorded. -/
def pllLost (s : State) (q : Nat) : State :=
  let acts := match (s.port q).state with
    | .active | .retrain | .detect | .train | .align | .param => true
    | _ => false
  if !acts then s
  else
    let s := (s.put (0x5002 + 256 * q) 0x05 0 10).pbump 0x5002 q 0x07 1
    let s := stopLink (leavePair s q) q
    s.modPort q parkFields

/-- OWN_PLL_LOSS (R154). -/
def execOwnPllLoss (q : PortId) (s : State) : Host.Outcome State Fault Refusal := onPort s q (pllLost s q)

/-- PLL_LOSS_PARK_END (R154): DETECT with RSTF = 0; GEN and the sequence state stay. -/
def execPllLossParkEnd (q : PortId) (s : State) : Host.Outcome State Fault Refusal :=
  onPort s q
    (if (s.port q).pllPark ∧ (s.port q).state ≠ .off then
      enterDetect ((s.modPort q fun p => { p with pllPark := false, rstf := false }).clearV q) q
    else s)

/-- The fault retry expires, or management asks for it (R142, R150): full training with RA and TA at 0. -/
def leaveFault (s : State) (q cause : Nat) : State :=
  linkFull (s.modPort q fun p => { p with ra := 0, ta := 0 }) q cause false true

/-- FAULT_RETRY (R139, R150); 0 means no automatic retry. -/
def execFaultRetry (q : PortId) (s : State) : Host.Outcome State Fault Refusal :=
  onPort s q
    (if (s.port q).state = .fault ∧ s.pget 0x5000 q 0x17 100000000 ≠ 0 then leaveFault s q 9 else s)

/-- STABLE_ACTIVE (R148, R149). -/
def execStableActive (q : PortId) (s : State) : Host.Outcome State Fault Refusal :=
  onPort s q
    (if (s.port q).state = .active then
      s.modPort q fun p => { p with ta := 0, ra := if p.raMark.isNone then 0 else p.ra }
    else s)

/-- A long stay in HOLD or FAULT is reported once per entry (R153). -/
def longHold (s : State) (q : Nat) : State :=
  let p := s.port q
  if (p.state = .hold ∨ p.state = .fault) ∧ !p.holdNoticed ∧ s.pget 0x5002 q 0x0B 10000000 ≠ 0 then
    (s.modPort q fun p => { p with holdNoticed := true }).irq 3
  else s

/-- LONG_HOLD_NOTICE (R153). -/
def execLongHoldNotice (q : PortId) (s : State) : Host.Outcome State Fault Refusal := onPort s q (longHold s q)

/-- A write of 1 to `link_reset_req` (R142, R146); of a pair it is the active unit's (R319). -/
def resetReqRetrain (s : State) (q : Nat) : State := requestRetrain s (activeUnit s q) true

/-- A write of 2 to `link_reset_req` (R142, R146): LINK_FULL, or full training from FAULT. -/
def resetReqFull (s : State) (q : Nat) : State :=
  let u := if (s.port q).state = .fault then q else activeUnit s q
  if (s.port u).state = .fault then leaveFault s u 6 else requestFull s u 6 true

/-! ### The PARAM exchange (R157–R160) -/

/-- `new_gen` (R159): the next value after the larger one that is neither side's, 1 after 15. -/
def newGen (ga gb : Gen) : Gen :=
  let up (g : Nat) : Nat := if g = 15 then 1 else g + 1
  let g0 := max ga.toNat gb.toNat
  let ok (g : Nat) : Bool := g != ga.toNat && g != gb.toNat
  let g1 := up g0
  let g2 := up g1
  BitVec.ofNat 4 (if ok g1 then g1 else if ok g2 then g2 else up g2)

/-- This side gives up its receive direction for this PARAM (R162). -/
def rxClear (s : State) (q : Nat) : Bool := (s.port (logical s q)).param.rxclr

/-- d of R161 for a direction exceeds what its sender holds. -/
def seqBad (e o u : BitVec 12) : Bool := decide (u.toNat < (e - o).toNat)

/-- The direction from the partner to this side disagrees. -/
def rxMismatch (s : State) (q : Nat) (m : ParamMsg) : Bool :=
  let p := s.port (logical s q)
  p.gen != 0 && m.gen != 0 && !rxClear s q && seqBad p.e m.txold m.txcnt

/-- The direction from this side to the partner disagrees. -/
def txMismatch (s : State) (q : Nat) (m : ParamMsg) : Bool :=
  let p := s.port (logical s q)
  p.gen != 0 && m.gen != 0 && !m.rxclr && decide (p.replay.length < (m.rxnext - p.o).toNat)

/-- The cases in which an OFFER is illegal (R158, R339, R347). -/
def offerIllegal (s : State) (q : Nat) (m : ParamMsg) : Bool :=
  let p := s.port (logical s q)
  let sum := m.shared.toNat + sumNat (m.res.map (·.toNat))
  let fwPartner := m.role == 5
  let mode := s.get (0xC200 + 16 * q) 0x01 0
  let fw := decide (q < 8) && (mode == 1 || mode == 2 || (mode == 0 && s.elab_.firewall && s.strapRole == 3 && fwPartner))
  let ipvOk := (decide (0x400 ≤ m.ipv.toNat) && decide (m.ipv.toNat ≤ 0x4FF)) || (m.ipv == 0x8002 && fw)
  m.rxcells == 0 || sum != m.rxcells.toNat || decide (m.rdepth.toNat < m.txcnt.toNat) || m.ffv != 1
    || (if Config.isReach q then
          m.mask.toNat != 2 ^ (s.port q).width - 1 || m.path.toNat != (s.port q).pathDelay
        else decide (2 ^ s.elab_.units q ≤ m.mask.toNat))
    || (m.gen != 0 && m.txcnt != 0 && p.gen != 0 && !rxClear s q
          && decide (2048 < (m.txold + m.txcnt - p.e).toNat))
    || !ipvOk || (fwPartner && !fw)

/-- Clear the receive direction for the next attempts (R162). -/
def clearReceive (s : State) (q : Nat) : State :=
  let l := logical s q
  let n := match (s.port l).rxOpen with | some o => o.cells.length | none => 0
  let s := s.modPort l fun p =>
    { p with e := 0, pend := List.replicate 16 0, rxOpen := none, param := { p.param with rxclr := true } }
  let s := if n = 0 then s else s.pbump 0x5002 l 0x0E n
  (s.pbump 0x5002 l 0x0F 1).irq 2

/-- The PARAM message with the agreed values (R157). -/
def agreedParam (s : State) (q : Nat) (pmt : BitVec 4) : ParamMsg :=
  let a := (s.port q).param
  { ownParam s q with pmt := pmt, gen := a.gen, mask := BitVec.ofNat 16 a.mask }

/-- Send ABORT and fail the attempt (R157, R158, R162). -/
def abortParam (s : State) (q reason : Nat) : State := attemptFails (s.sendParam q (agreedParam s q 4)) q reason

/-- The exchange goes on: the port is in PARAM and its pins are not parked (R154). -/
def inParam (s : State) (q : Nat) : Bool := (s.port q).state == .param && !(s.port q).pllPark

/-- The ECHO waits until the receive buffer is empty when one side of the direction is cleared (R162, R163). -/
def mustDrain (s : State) (q : Nat) (m : ParamMsg) : Bool :=
  let p := s.port (logical s q)
  (m.gen == 0 || rxClear s q) && !p.rx.isEmpty && !siblingMerged s q

/-- Send the ECHO unless the buffer must drain first, when the OFFER is sent again (R163). -/
def sendEcho (s : State) (q : Nat) (m : ParamMsg) : State :=
  if mustDrain s q m then s.sendParam q { ownParam s q with pmt := 1 }
  else (s.modPort q fun p => { p with param := { p.param with echoSent := true } }).sendParam q (agreedParam s q 2)

/-- A PCOMPAT that differs on a domain link, which a firewall port never is (R347), is counted and reported (R344). -/
def checkCompat (s : State) (q : Nat) (m : ParamMsg) : State :=
  if s.pget 0x6000 (logical s q) 0x01 0 = 1 ∧ domainOn s ∧ !isFwPort s q ∧ m.role ≠ 5 ∧ bitAt m.feat.toNat 8 ∧ m.compat.toNat ≠ s.get 0xC000 0x02 0x42
  then (s.bump 0xC000 0x03 1).irq 4 else s

/-- An OFFER in PARAM (R157–R162, R320); of the copies of one message the first acts (R137). -/
def receiveOffer (s : State) (q : Nat) (m : ParamMsg) : State :=
  if !inParam s q ∨ m.pmt ≠ 1 ∨ (s.port q).param.partner = some m then s
  else if offerIllegal s q m then abortParam s q 4
  else
    let rejoin := siblingMerged s q
    let own := (s.port (logical s q)).gen
    let gen := if rejoin then own else newGen own m.gen
    let mask := (s.port q).offer &&& m.mask.toNat
    let first := (s.port q).param.partner.isNone
    let s := s.modPort q fun p => { p with param := { p.param with partner := some m, gen := gen, mask := mask } }
    if mask = 0 then abortParam s q 3
    else if !rejoin && (rxMismatch s q m || txMismatch s q m) then
      let s := if rxMismatch s q m then clearReceive s q else s
      abortParam s q 6
    else sendEcho (if first then checkCompat s q m else s) q m

/-- OFFER (R157). -/
def execOffer (q : PortId) (body : BitVec 1920) (s : State) : Host.Outcome State Fault Refusal :=
  onPort s q (receiveOffer s q (ParamMsg.ofBody body))

/-- An ECHO is compared with the own result (R157), and its first copy starts the COMMIT; a rejoining unit needs the pair's
GEN in both offers (R320). -/
def receiveEcho (s : State) (q : Nat) (m : ParamMsg) : State :=
  let a := (s.port q).param
  match a.partner with
  | none => s
  | some off =>
    if !inParam s q ∨ m.pmt ≠ 2 ∨ a.commitAt.isSome then s
    else if m.gen ≠ a.gen ∨ m.mask.toNat ≠ a.mask ∨ (siblingMerged s q ∧ off.gen ≠ a.gen) then abortParam s q 5
    else
      let s := s.modPort q fun p => { p with param := { p.param with commitAt := some s.now } }
      s.sendParam q (agreedParam s q 3)

/-- ECHO (R157). -/
def execEcho (q : PortId) (body : BitVec 1920) (s : State) : Host.Outcome State Fault Refusal :=
  onPort s q (receiveEcho s q (ParamMsg.ofBody body))

/-- A COMMIT equal to the own one (R157). -/
def receiveCommit (s : State) (q : Nat) (m : ParamMsg) : State :=
  let a := (s.port q).param
  if inParam s q ∧ m.pmt = 3 ∧ a.partner.isSome ∧ m.gen = a.gen ∧ m.mask.toNat = a.mask then
    s.modPort q fun p => { p with param := { p.param with commitRcvd := true } }
  else s

/-- COMMIT (R157). -/
def execCommit (q : PortId) (body : BitVec 1920) (s : State) : Host.Outcome State Fault Refusal :=
  onPort s q (receiveCommit s q (ParamMsg.ofBody body))

/-- An ABORT fails the attempt (R162); soon after ACTIVE it shows that the partner missed the COMMIT (R165). -/
def receiveParamAbort (s : State) (q : Nat) : State :=
  let p := s.port q
  if inParam s q then
    let s := match p.param.partner with
      | some m => if !siblingMerged s q && rxMismatch s q m then clearReceive s q else s
      | none => s
    attemptFails s q 7
  else lateMessage s q

/-- PARAM_ABORT (R162, R165). -/
def execParamAbort (q : PortId) (s : State) : Host.Outcome State Fault Refusal := onPort s q (receiveParamAbort s q)

/-- OFFER_REPEAT (R163): the OFFER again while the buffer drains, then the ECHO. -/
def execOfferRepeat (q : PortId) (s : State) : Host.Outcome State Fault Refusal :=
  onPort s q
    (match (s.port q).param.partner with
     | some m => if inParam s q ∧ !(s.port q).param.echoSent then sendEcho s q m else s
     | none => s)

/-- PARAM_TIMEOUT (R139). -/
def execParamTimeout (q : PortId) (s : State) : Host.Outcome State Fault Refusal :=
  onPort s q (if inParam s q then attemptFails s q 2 else s)

/-! ### Settling at COMMIT (R161–R164) -/

/-- The cells of a DATA flit without its pad: the leading continuation cells, then whole transactions. -/
def flitCells : List Cell → Nat → List Cell
  | [], _ => []
  | c :: cs, left =>
    if left ≠ 0 then c :: flitCells cs (left - 1)
    else if lvcOf c = 0 then [] else c :: flitCells cs (lcntOf c)

/-- Cells that continue a transaction at the start of each piece of a stream of whole transactions. -/
def leadsOf : List (List Cell) → Nat → List (Nat × List Cell)
  | [], _ => []
  | f :: fs, left =>
    let (left', _, _) := walkCells f left 0 (List.replicate 16 0)
    (min left f.length, f) :: leadsOf fs left'

/-- Charge the transactions of a stream of cells against the partner's layout (R163). -/
def chargeStream : List Cell → Nat → Port → Port
  | [], _, p => p
  | c :: cs, left, p =>
    if left ≠ 0 then chargeStream cs (left - 1) p
    else chargeStream cs (lcntOf c) (chargeCredit (c.extractLsb' 16 8) (lvcOf c) (lcntOf c + 1) p)

/-- The credit returns that held flits carried (R164). -/
def heldReturns (fs : List Flit) : List (Nat × Nat) :=
  (fs.map fun f =>
    (f.crvc.toNat, f.crcnt.toNat)
      :: (if f.ftype = 3 then
            ((ctrlCells f.cells).filter fun c => ctypeOf c == 1).map creditEntries |>.flatten
          else [])).flatten

/-- Add returns to the pending counts. -/
def addReturns (rs : List (Nat × Nat)) (pend : List Nat) : List Nat :=
  rs.foldl (fun p r => if r.1 = 0 then p else addAt r.1 r.2 p) pend

/-- What re-packing makes of the held flits of a port (R164): the new flits, the stream left over with its open
part placed, and the cells dropped because their head is lost. -/
structure Repacked where
  flits : List Flit
  stream : List Cell
  orphans : Nat
deriving DecidableEq, Repr

/-- Re-pack the held traffic for a cleared receiver (R164): SCHED flits, then the DATA transactions in order. The
cells of a transaction whose rest still waits in the stream are completed from there. -/
def repack (p : Port) : Repacked :=
  let data := p.replay.filter fun f => f.ftype == 1
  let lead := match data with | f :: _ => f.lead | [] => p.streamLead
  let held := (data.map fun f => flitCells f.cells f.lead).flatten
  let all := held ++ p.stream.take p.streamLead
  let cells := all.drop lead
  let sched := (p.replay.filter fun f => f.ftype == 2).map fun f => { f with hold := true, rply := false, crvc := 0, crcnt := 0 }
  let dats := (leadsOf (chunk cells.length 15 cells) 0).map fun x =>
    ({ ftype := 1, hold := true, cells := pad15 x.2, lead := x.1 } : Flit)
  { flits := (withIdx (sched ++ dats)).map fun x => { x.2 with fseq := BitVec.ofNat 12 x.1 },
    stream := p.stream.drop p.streamLead, orphans := lead }

/-- Settle the transmit direction (R161, R163): nothing for a cleared sender, a re-pack toward a cleared receiver,
otherwise the acknowledged flits are freed and the rest replayed. -/
def settleTx (m : ParamMsg) (p : Port) : Port × Nat :=
  let p := { p with rsvP := 0 :: m.res.map (·.toNat), shP := m.shared.toNat }
  if p.gen = 0 then
    ({ p with o := 0, replay := [], replayPtr := none, fresh := 0, uv := List.replicate 16 0, st := [],
              charges := List.replicate 16 [] }, 0)
  else if m.gen = 0 || m.rxclr then
    let r := repack p
    let p := { p with pend := addReturns (heldReturns p.replay) p.pend, o := 0, replay := r.flits, replayLost := [],
                      replayPtr := if r.flits.isEmpty then none else some 0, replayCnt := 0,
                      fresh := r.flits.length, stream := r.stream, streamLead := 0, raMark := none,
                      uv := List.replicate 16 0, st := [], charges := List.replicate 16 [] }
    (chargeStream ((r.flits.filter fun f => f.ftype == 1).map (fun f => flitCells f.cells f.lead) |>.flatten) 0 p,
      r.orphans)
  else
    let p := freeOldest (m.rxnext - p.o).toNat p
    (replayFromOldest { p with replay := p.replay.map fun f => { f with hold := true } }, 0)

/-- Settle the receive direction (R161–R163): E is kept only when both sides are. Pending returns go with a cleared sender; after
this side has given up its receive direction none but the held returns of R164 are pending, and these stay. -/
def settleRx (clr : Bool) (m : ParamMsg) (p : Port) : Port × Nat :=
  let n := match p.rxOpen with | some o => o.cells.length | none => 0
  if m.gen = 0 ∨ p.gen = 0 ∨ clr then
    ({ p with e := 0, pend := if m.gen = 0 ∨ p.gen = 0 then List.replicate 16 0 else p.pend, rxOpen := none, beaconEpoch := if p.gen = 0 then none else p.beaconEpoch },
      if p.gen = 0 then 0 else n)
  else (p, 0)

/-- O has advanced at COMMIT: the retrain count of a unit is progress of its link (R148). -/
def clearUnits (s : State) (l : Nat) : State :=
  let s := s.modPort l clearRa
  match sibling s l with
  | some b => s.modPort b clearRa
  | none => s

/-- Settle both directions of a link at COMMIT; the transmit side first, so that returns of held flits meet the
receive side's rule (R164). -/
def settleLink (s : State) (l : Nat) (m : ParamMsg) (gen : Gen) : State :=
  let p := s.port l
  let (p1, n1) := settleTx m p
  let (p2, n2) := settleRx p.param.rxclr m p1
  let p3 := { p2 with gen := gen, nakOwed := false, nakSent := false, nakOver := false, rplySeen := false,
                      ackAt := none, ackOwed := false, drr := 0, drr0 := 0, deficit := List.replicate 16 0,
                      rsvA := rsvList s l, shA := sharedOf s l, lateUv := List.replicate 16 0, lateSt := [],
                      param := { p2.param with rxclr := false } }
  let s := s.setPort l p3
  let s := if p.gen ≠ 0 ∧ m.gen ≠ 0 ∧ !m.rxclr ∧ m.rxnext ≠ p.o then clearUnits s l else s
  if n1 + n2 = 0 then s else s.pbump 0x5002 l 0x0E (n1 + n2)

/-- The agreed features and the partner's figures are recorded (R339). -/
def recordPartner (s : State) (q : Nat) (m : ParamMsg) : State :=
  let s := s.modPort q fun p => { p with partnerDie := m.die, partnerRole := m.role, partnerPort := m.port.toNat }
  let both := m.feat.toNat % 2 ^ 15 &&& nativeFeat s
  let agreed := if isFwPort s q then both &&& 0x81F else both
  let i := 0xC100 + 16 * q
  let s := s.modPort q fun p => { p with feat := agreed, carry := m.carry.toNat &&& 7 }
  (((((s.put i 0x01 0 m.ipv.toNat).put i 0x02 0 m.build.toNat).put i 0x03 0 m.feat.toNat).put i 0x04 0 agreed).put
    i 0x05 0 m.cfv.toNat).put i 0x06 0 m.compat.toNat

/-- The die route of a new direct partner (R220): PREF is written only into an invalid entry. -/
def learnRoute (s : State) (l : Nat) (d : Die) : State :=
  let e := dieRoute s d.toNat
  if routeValid e then s
  else
    let rows := setAt d.toNat (e - e % 16 + l) ((List.range 256).map (dieRoute s))
    { s with tabs := mset s.tabs (ekey 0x7000 0x02) rows }

/-- Bundles in a mask. -/
def maskCount (m : Nat) : Nat := ((List.range 16).filter (bitAt m)).length

/-- Width, mask and PHY results of the unit take effect (R160), and the striping pointer of its link starts at the lowest
bundle unless a sibling goes on with it; fewer bundles than built open a record. -/
def takeMask (s : State) (q : Nat) (mask : Nat) : State :=
  let rejoin := siblingMerged s q
  let s := s.modPort q fun p =>
    { p with mask := mask, lastMask := mask, lastWidth := p.width, lastLoop := p.loop, lastLanes := (p.rxLanes, p.txLanes) }
  let s := if rejoin then s else s.modPort (logical s q) fun p => { p with stripe := nextBundle mask 0 }
  if !Config.isReach q ∧ maskCount mask < s.elab_.units q then s.service 0x10 1 q 0 mask else s

/-- A unit that rejoins its pair (R320): CATCHUP, or OUT with a record when the width or the facing die differs. -/
def rejoinUnit (s : State) (k q : Nat) (m : ParamMsg) (mask : Nat) : State :=
  let act := activeUnit s q
  if !bitAt (s.port q).feat 10 then (setRole s k q .out).service 0x20 7 k q 3
  else if maskCount mask ≠ maskCount (s.port act).mask then (setRole s k q .out).service 0x20 7 k q 2
  else if m.die ≠ (s.port act).partnerDie then ((setRole s k q .out).irq 1).service 0x20 7 k q 3
  else setRole s k q .catchup

/-- PARAM ends in ACTIVE (R157, R160–R164, R320, R341). -/
def enterActive (s : State) (q : Nat) : State :=
  let a := (s.port q).param
  match a.partner with
  | none => s
  | some m =>
    if !inParam s q ∨ a.commitAt = none ∨ !a.commitRcvd then s
    else
      let l := logical s q
      let rejoin := siblingMerged s q
      let s := recordPartner s q m
      let s := takeMask s q a.mask
      let s := match pairOf s q with
        | none => settleLink s l m a.gen
        | some k =>
          if rejoin then rejoinUnit s k q m a.mask
          else if pairB s k = q ∧ !bitAt (s.port q).feat 10 then (setRole s k q .out).service 0x20 7 k q 3
          else
            let s := settleLink s l m a.gen
            (setRole s k q .active).modPair k fun pr =>
              { pr with rc := List.replicate 16 0, av := List.replicate 16 0, window := none }
      let s := s.modPort q fun p => { p with param := { rxclr := p.param.rxclr }, params := [], step := .idle }
      let s := s.modPort l fun p => { p with schLatency := latencyOf q (s.port q) }
      learnRoute (s.goto q .active) l m.die

/-- ENTER_ACTIVE (R161). -/
def execEnterActive (q : PortId) (s : State) : Host.Outcome State Fault Refusal := onPort s q (enterActive s q)

end Sys2Proof.Machine
end

