-- ==== Sys2Proof/Machine/IfrArith.lean ====
section
/-!
DEFINITION. The arithmetic of in-flight reduction, bit for bit: element, block and carry formats (R272–R274),
conversion to the carry format (R282), combination (R283), delivery (R285), stochastic rounding (R286) and the
policies of R287. Values are exact dyadic rationals until a rounding step.
-/

namespace Sys2Proof.Machine
open Sys2Proof

/-- The exact value ±m · 2^e. A zero keeps its sign, which only binary32 carry shows (R283). -/
structure Dyadic where
  neg : Bool
  m : Nat
  e : Int
deriving DecidableEq, Repr

/-- An element of a block. -/
inductive Elem where
  | fin (v : Dyadic)
  | nan
  | inf (neg : Bool)
deriving DecidableEq, Repr

/-- The element is finite. -/
def Elem.finite : Elem → Bool
  | .fin _ => true
  | _ => false

/-! ### Formats (R272) -/

/-- Exponent bits, mantissa bits, bias and EMIN of a floating-point format. -/
structure FpFormat where
  eb : Nat
  mb : Nat
  bias : Int
  emin : Int

/-- The row of R272 of a code. -/
def fpOf (code : Nat) : FpFormat :=
  match code with
  | 0x0 => ⟨2, 1, 1, 0⟩
  | 0x1 => ⟨2, 3, 1, 0⟩
  | 0x2 => ⟨3, 2, 3, -2⟩
  | 0x3 => ⟨4, 3, 7, -6⟩
  | 0x4 => ⟨5, 2, 15, -14⟩
  | 0x6 => ⟨8, 7, 127, -126⟩
  | 0x7 => ⟨5, 10, 15, -14⟩
  | _ => ⟨8, 23, 127, -126⟩

/-- Bits of an element. -/
def elemBits (code : Nat) : Nat :=
  match code with
  | 0x0 => 4 | 0x1 => 6 | 0x2 => 6 | 0x3 => 8 | 0x4 => 8 | 0x5 => 8 | 0x6 => 16 | 0x7 => 16 | _ => 32

/-- The format is an MX format. -/
def isMx (code : Nat) : Bool := decide (code ≤ 5)

/-- EMAX of an MX format (R272). -/
def emaxOf (code : Nat) : Int :=
  match code with
  | 0x0 => 2 | 0x1 => 2 | 0x2 => 4 | 0x3 => 8 | 0x4 => 15 | _ => 0

/-- MAXV of a format (R272). -/
def maxvOf (code : Nat) : Dyadic :=
  match code with
  | 0x0 => ⟨false, 3, 1⟩
  | 0x1 => ⟨false, 15, -1⟩
  | 0x2 => ⟨false, 7, 2⟩
  | 0x3 => ⟨false, 7, 6⟩
  | 0x4 => ⟨false, 7, 13⟩
  | 0x5 => ⟨false, 127, -6⟩
  | 0x6 => ⟨false, 255, 120⟩
  | 0x7 => ⟨false, 2047, 5⟩
  | _ => ⟨false, 2 ^ 24 - 1, 104⟩

/-- The NaN element of a format that has one (R285). -/
def nanElem (code : Nat) : Option Nat :=
  match code with
  | 0x3 => some 0x7F | 0x4 => some 0x7E | 0x6 => some 0x7FC0 | 0x7 => some 0x7E00 | 0x8 => some 0x7FC00000
  | _ => none

/-- NB may not exceed this for a format (R276). -/
def nbMax (fmt : Nat) : Nat :=
  match fmt with
  | 0x0 => 14 | 0x1 => 9 | 0x2 => 9 | 0x3 => 7 | 0x4 => 7 | 0x5 => 7 | 0xA => 7
  | 0x6 => 3 | 0x7 => 3 | 0xB => 3 | 0x8 => 1 | 0xC => 1 | _ => 0

/-! ### Exact values -/

/-- m · 2^k for an integer k; a right shift drops the bits below. -/
def shiftBy (m : Nat) (k : Int) : Nat := if 0 ≤ k then m * 2 ^ k.toNat else m / 2 ^ (-k).toNat

/-- floor(log2 |v|) of a non-zero value. -/
def Dyadic.log (v : Dyadic) : Int := (v.m.log2 : Int) + v.e

/-- m / 2^d to the nearest integer, ties to even. -/
def rneNat (m d : Nat) : Nat :=
  let q := m / 2 ^ d
  let r := m % 2 ^ d
  if 2 ^ d < 2 * r ∨ (2 * r = 2 ^ d ∧ q % 2 = 1) then q + 1 else q

/-- rne(|v| · 2^k). -/
def Dyadic.rneMag (v : Dyadic) (k : Int) : Nat :=
  let s := v.e + k
  if 0 ≤ s then v.m * 2 ^ s.toNat else rneNat v.m (-s).toNat

/-- An integer from its sign and magnitude. -/
def signed (neg : Bool) (m : Nat) : Int := if neg then -(m : Int) else m

/-- rne(v · 2^k). -/
def Dyadic.rne (v : Dyadic) (k : Int) : Int := signed v.neg (v.rneMag k)

/-- `rne_shift(x, d)`. -/
def rneShift (x : Int) (d : Nat) : Int := signed (decide (x < 0)) (rneNat x.natAbs d)

/-- v · 2^k. -/
def Dyadic.scale (v : Dyadic) (k : Int) : Dyadic := { v with e := v.e + k }

/-- v · v. -/
def Dyadic.square (v : Dyadic) : Dyadic := ⟨false, v.m * v.m, 2 * v.e⟩

/-- The value in units of 2^e, exact when e is no larger than its exponent. -/
def Dyadic.units (v : Dyadic) (e : Int) : Int := signed v.neg (shiftBy v.m (v.e - e))

/-- a ≤ b. -/
def Dyadic.le (a b : Dyadic) : Bool :=
  let e := min a.e b.e
  decide (a.units e ≤ b.units e)

/-- a + b; a zero sum is negative only when both are. -/
def Dyadic.add (a b : Dyadic) : Dyadic :=
  let e := min a.e b.e
  let t := a.units e + b.units e
  ⟨if t = 0 then a.neg && b.neg else decide (t < 0), t.natAbs, e⟩

/-- Clamp to ±q. -/
def clampInt (q : Nat) (x : Int) : Int := max (-(q : Int)) (min q x)

/-! ### Elements and blocks (R273) -/

/-- Decode one element. -/
def decodeElem (code raw : Nat) : Elem :=
  if code = 5 then
    if 128 ≤ raw then .fin ⟨true, 256 - raw, -6⟩ else .fin ⟨false, raw, -6⟩
  else
    let f := fpOf code
    let neg := bitAt raw (f.eb + f.mb)
    let e := bitsOf raw f.mb f.eb
    let m := bitsOf raw 0 f.mb
    if code = 3 ∧ e = 15 ∧ m = 7 then .nan
    else if (code = 4 ∨ code = 6 ∨ code = 7 ∨ code = 8) ∧ e = 2 ^ f.eb - 1 then (if m = 0 then .inf neg else .nan)
    else if e = 0 then .fin ⟨neg, m, f.emin - f.mb⟩
    else .fin ⟨neg, 2 ^ f.mb + m, e - f.bias - f.mb⟩

/-- The 32 raw elements of a block, and X (127 for an IEEE block). -/
def splitBlock (code : Nat) (bs : List Byte) : Nat × List Nat :=
  let v := ofBytes bs
  let body := if isMx code then v / 256 else v
  (if isMx code then v % 256 else 127, (List.range 32).map fun i => bitsOf body (elemBits code * i) (elemBits code))

/-- A block from X and its raw elements. -/
def joinBlock (code x : Nat) (els : List Nat) : List Byte :=
  let w := elemBits code
  let body := toBytes (4 * w) (sumNat ((List.range 32).map fun i => field (els.getD i 0) (w * i) w))
  if isMx code then BitVec.ofNat 8 x :: body else body

/-- nan_out of a format (R285). -/
def nanOut (code : Nat) : List Byte :=
  if isMx code then joinBlock code 255 (List.replicate 32 0)
  else joinBlock code 127 (List.replicate 32 ((nanElem code).getD 0))

/-! ### Binary32 (R282, R283) -/

/-- The magnitude bits of a value rounded to binary32, ties to even, subnormals kept; none when infinite. -/
def f32Mag (v : Dyadic) : Option Nat :=
  if v.m = 0 then some 0
  else
    let e := max v.log (-126)
    let q := v.rneMag (23 - e)
    let (e, q) := if q = 2 ^ 24 then (e + 1, 2 ^ 23) else (e, q)
    if 127 < e then none
    else if q < 2 ^ 23 then some q
    else some ((e + 127).toNat * 2 ^ 23 + (q - 2 ^ 23))

/-- The canonical NaN. -/
def f32Nan : BitVec 32 := 0x7FC00000

/-- `fp32_overflow` (R283): the largest magnitude, or the NaN under SATPOL = NAN. -/
def f32Overflow (neg satNan : Bool) : BitVec 32 :=
  if satNan then f32Nan else BitVec.ofBool neg ++ 0x7F7FFFFF#31

/-- Round to binary32; true when it overflowed. -/
def toF32 (v : Dyadic) (satNan : Bool) : BitVec 32 × Bool :=
  match f32Mag v with
  | some m => (BitVec.ofBool v.neg ++ BitVec.ofNat 31 m, false)
  | none => (f32Overflow v.neg satNan, true)

/-- Combine two binary32 elements (R283): the result, and whether it overflowed or met an infinite element. -/
def combineF32 (op : Nat) (satNan : Bool) (a b : BitVec 32) : BitVec 32 × Bool × Bool :=
  match decodeElem 8 a.toNat, decodeElem 8 b.toNat with
  | .fin x, .fin y =>
    -- +0 stands above −0.
    let below (x y : Dyadic) : Bool := x.le y && !(y.le x) || (x.le y && x.neg && !y.neg)
    if op = 1 then (if below x y then b else a, false, false)
    else if op = 2 then (if below y x then b else a, false, false)
    else
      let (r, o) := toF32 (x.add y) satNan
      (r, o, false)
  | .inf _, _ => (f32Nan, false, true)
  | _, .inf _ => (f32Nan, false, true)
  | _, _ => (f32Nan, false, false)

/-! ### Carry blocks (R274) -/

/-- F of a CB carry. -/
def cbF (cfmt : BitVec 2) : Nat := if cfmt = 0 then 6 else 14
/-- qmax of a CB carry. -/
def cbQmax (cfmt : BitVec 2) : Nat := if cfmt = 0 then 127 else 32767
/-- Bytes of an element of a CB carry. -/
def cbBytes (cfmt : BitVec 2) : Nat := if cfmt = 0 then 1 else 2
/-- The format code of a carry. -/
def carryCode (cfmt : BitVec 2) : Nat := 10 + cfmt.toNat

/-- A carry block as its bytes; a NaN block sends its elements as 0. -/
def encodeCarry (cfmt : BitVec 2) (c : Carry) : List Byte :=
  let n := cbBytes cfmt
  match c with
  | .fp w => (w.map fun x => toBytes 4 x.toNat).flatten
  | .cb s q => BitVec.ofNat 8 s :: (q.map fun x => toBytes n (x % 2 ^ (8 * n)).toNat).flatten
  | .nan =>
    if cfmt = 2 then (List.replicate 32 (toBytes 4 f32Nan.toNat)).flatten
    else 255 :: List.replicate (32 * n) 0

/-- A signed integer of `n` bytes. -/
def signedOf (n v : Nat) : Int := if 2 ^ (8 * n - 1) ≤ v then (v : Int) - 2 ^ (8 * n) else v

/-- The carry block in some bytes. -/
def decodeCarry (cfmt : BitVec 2) (bs : List Byte) : Carry :=
  let v := ofBytes bs
  if cfmt = 2 then .fp ((List.range 32).map fun i => BitVec.ofNat 32 (bitsOf v (32 * i) 32))
  else
    let n := cbBytes cfmt
    if v % 256 = 255 then .nan
    else .cb (v % 256) ((List.range 32).map fun i => signedOf n (bitsOf (v / 256) (8 * n * i) (8 * n)))

/-- Flags of two steps together. -/
def BlkFlags.or (a b : BlkFlags) : BlkFlags := ⟨a.resc || b.resc, a.sat || b.sat, a.nan || b.nan⟩

/-- The largest magnitude of a list of integers. -/
def maxAbs (q : List Int) : Nat := q.foldl (fun m x => max m x.natAbs) 0

/-! ### Into carry format (R282) -/

/-- `to_carry`: the carry block of a local contribution and the flags of its conversion. -/
def toCarry (d : Desc) (bs : List Byte) : Carry × BlkFlags :=
  let code := d.ifmt.toNat
  let (x, raws) := splitBlock code bs
  let els := raws.map (decodeElem code)
  let nanBlk := isMx code && x == 255
  let met := nanBlk || els.any fun e => !e.finite
  let flags : BlkFlags := { nan := met }
  if met && !d.nanZero then (.nan, flags)
  else
    let zero : Dyadic := ⟨false, 0, 0⟩
    let v := els.map fun e => match e with
      | .fin y => if nanBlk then zero else y.scale ((x : Int) - 127)
      | _ => zero
    let v := if d.op = 3 then v.map Dyadic.square else v
    if d.cfmt = 2 then
      let r := v.map fun y => toF32 y d.satNan
      (.fp (r.map (·.1)), { flags with sat := r.any (·.2) })
    else
      let f := cbF d.cfmt
      let qmax := cbQmax d.cfmt
      let big := v.filter (·.m != 0)
      match big with
      | [] => (.cb 0 (List.replicate 32 0), flags)
      | b :: bs =>
        let top := bs.foldl (fun m y => max m y.log) b.log
        let quant (s : Int) : List Int := v.map fun y => y.rne (127 + f - s)
        let s := max (top + 127) 0
        let over_ := decide (qmax < maxAbs (quant s))
        let s := if over_ then s + 1 else s
        let flags := { flags with resc := over_ }
        if 254 < s then
          let flags := { flags with sat := true }
          if d.satNan then (.nan, flags) else (.cb 254 ((quant 254).map (clampInt qmax)), flags)
        else (.cb s.toNat (quant s), flags)

/-! ### Combining two carry blocks (R283) -/

/-- Elementwise operation of CB blocks. -/
def combineInt (op : BitVec 2) (x y : Int) : Int :=
  if op = 1 then max x y else if op = 2 then min x y else x + y

/-- `combine`. -/
def combine (d : Desc) (a b : Carry) : Carry × BlkFlags :=
  match a, b with
  | .nan, _ => (.nan, {})
  | _, .nan => (.nan, {})
  | .fp x, .fp y =>
    let r := (x.zip y).map fun p => combineF32 d.op.toNat d.satNan p.1 p.2
    (.fp (r.map (·.1)), { sat := r.any (·.2.1), nan := r.any (·.2.2) })
  | .cb sa qa, .cb sb qb =>
    let qmax := cbQmax d.cfmt
    let sa := if qa.all (· == 0) then sb else sa
    let sb := if qb.all (· == 0) then sa else sb
    let s := max sa sb
    let t := (qa.zip qb).map fun p => combineInt d.op (rneShift p.1 (s - sa)) (rneShift p.2 (s - sb))
    if qmax < maxAbs t ∧ (d.op = 0 ∨ d.op = 3) then
      if s = 254 then
        if d.satNan then (.nan, { sat := true }) else (.cb 254 (t.map (clampInt qmax)), { sat := true })
      else (.cb (s + 1) (t.map fun x => rneShift x 1), { resc := true })
    else (.cb s t, {})
  | _, _ => (.nan, {})

/-! ### Delivery (R285, R286) -/

/-- `sr16` (R286). -/
def sr16 (d : Desc) (k i : Nat) : Nat :=
  let x : BitVec 64 :=
    (BitVec.ofNat 64 d.seed.toNat <<< 32) ^^^ (BitVec.ofNat 64 d.rid.toNat <<< 44) ^^^ (BitVec.ofNat 64 k <<< 5)
      ^^^ BitVec.ofNat 64 i
  let x := x + 0x9E3779B97F4A7C15
  let x := (x ^^^ (x >>> 30)) * 0xBF58476D1CE4E5B9
  let x := (x ^^^ (x >>> 27)) * 0x94D049BB133111EB
  ((x ^^^ (x >>> 31)).extractLsb' 48 16).toNat

/-- Encode a value that lies on the grid of a format and is at most MAXV; zero is +0. -/
def encodeElem (code : Nat) (v : Dyadic) : Nat :=
  if code = 5 then
    let n := shiftBy v.m (v.e + 6)
    if v.neg then (256 - n) % 256 else n
  else if v.m = 0 then 0
  else
    let f := fpOf code
    let sign := if v.neg then 2 ^ (f.eb + f.mb) else 0
    if v.log < f.emin then sign + shiftBy v.m (v.e - (f.emin - f.mb))
    else sign + (v.log + f.bias).toNat * 2 ^ f.mb + (shiftBy v.m (v.e - (v.log - f.mb)) - 2 ^ f.mb)

/-- `round_fmt` of a finite value: the element, and whether it saturated. -/
def roundFmt (d : Desc) (y : Dyadic) (k i : Nat) : Nat × Bool :=
  let code := d.ofmt.toNat
  let f := fpOf code
  let ue : Int := if code = 5 then -6 else if y.m = 0 then 0 else max y.log f.emin - f.mb
  let sh := y.e - ue
  let (n, rem, w) : Nat × Nat × Nat :=
    if 0 ≤ sh then (y.m * 2 ^ sh.toNat, 0, 0) else (y.m / 2 ^ (-sh).toNat, y.m % 2 ^ (-sh).toNat, (-sh).toNat)
  let up : Bool :=
    if d.sr then decide (sr16 d k i < rem * 65536 / 2 ^ w)
    else decide (2 ^ w < 2 * rem) || (2 * rem == 2 ^ w && n % 2 == 1)
  let r : Dyadic := ⟨y.neg, n + b2n up, ue⟩
  if !(({ r with neg := false } : Dyadic).le (maxvOf code)) then
    if !isMx code ∧ d.satNan then ((nanElem code).getD 0, true)
    else (encodeElem code { maxvOf code with neg := y.neg }, true)
  else (encodeElem code r, false)

/-- The exact elements of a carry block; none for a NaN element. -/
def carryValues (cfmt : BitVec 2) : Carry → List (Option Dyadic)
  | .nan => List.replicate 32 none
  | .cb s q => q.map fun x => some ⟨decide (x < 0), x.natAbs, (s : Int) - 127 - cbF cfmt⟩
  | .fp w => w.map fun x => match decodeElem 8 x.toNat with
    | .fin y => some y
    | _ => none

/-- `deliver`: the output block and the flags of its conversion. -/
def deliver (d : Desc) (acc : Carry) (k : Nat) : List Byte × BlkFlags :=
  let code := d.ofmt.toNat
  let v := carryValues d.cfmt acc
  if v.all (·.isNone) then (nanOut code, {})
  else if v.any (·.isNone) && (nanElem code).isNone then (nanOut code, {})
  else
    let big := (v.filterMap id).filter (·.m != 0)
    let x : Int := match big with
      | [] => 127
      | b :: bs => max (bs.foldl (fun m y => max m y.log) b.log - emaxOf code + 127) 0
    let overScale := isMx code && decide (254 < x)
    if overScale && d.satNan then (nanOut code, { sat := true })
    else
      let x : Int := if isMx code then min x 254 else 127
      let els := (List.range 32).map fun i => match v.getD i none with
        | some y => roundFmt d (y.scale (127 - x)) k i
        | none => ((nanElem code).getD 0, false)
      (joinBlock code x.toNat (els.map (·.1)), { sat := overScale || els.any (·.2) })

/-! ### One hop (R284) -/

/-- The contributions of a block in the order of R280 combined: the carry block, the flags of this hop, and the
flags of everything it contains. -/
def hopCarry (d : Desc) : List Staged → Option (Carry × BlkFlags × BlkFlags)
  | [] => none
  | c :: cs =>
    some (cs.foldl
      (fun x s =>
        let (r, f) := combine d x.1 s.carry
        (r, x.2.1.or f, (x.2.2.or s.flags).or f))
      (c.carry, {}, c.flags))

end Sys2Proof.Machine
end

