-- ==== Sys2Proof/Machine/Ifr.lean ====
section
/-!
DEFINITION. In-flight reduction: descriptors and their checks (R277–R279, R344), staging, the window and the orphan
pool (R281), the start of blocks (R280, R284), completion, abort and bad blocks (R289–R291), and engines leaving
service (R294).
-/

namespace Sys2Proof.Machine
open Sys2Proof

/-! ### Small parts -/

/-- The record of a RID; none when it is FREE. -/
def ridOf (s : State) (rid : Rid) : Option RidState := mget s.ifr.rids rid.toNat

/-- Store the record of a RID. -/
def setRid (s : State) (rid : Rid) (r : RidState) : State :=
  { s with ifr := { s.ifr with rids := mset s.ifr.rids rid.toNat r } }

/-- The RID becomes FREE. -/
def freeRid (s : State) (rid : Rid) : State := { s with ifr := { s.ifr with rids := mdel s.ifr.rids rid.toNat } }

/-- Replace the orphan pool. -/
def setOrphans (s : State) (os : List Orphan) : State := { s with ifr := { s.ifr with orphans := os } }

/-- Present an RSTAT on IFI-RED (R278). -/
def rstat (s : State) (ten : Ten) (rqid : BitVec 16) (status : BitVec 8) (rkind : BitVec 4) (rid : Rid) (blkx : Nat)
    (f : BlkFlags) (eng : Nat) : State :=
  s.toIfi .red
    { opc := 0x64, ten := ten, tag := rqid.extractLsb' 0 12, sport := rqid.extractLsb' 12 4, spkg := 0, sdie := 0,
      head := .rstat status rkind rid (BitVec.ofNat 24 blkx) f.resc f.sat f.nan (BitVec.ofNat 4 eng), data := [] }

/-- Where a node of the tree lies. -/
def nodeDest (s : State) (h : Holder) : Dest := inPkg s h.pkg (dieDest s h.die.toNat)

/-- Engines in service. -/
def inService (s : State) : List Nat := (List.range s.elab_.ifr).filter fun e => engineState s e == 1

/-- The in-service engine with the fewest open RIDs, the lowest index on a tie. -/
def leastLoaded (s : State) : Option Nat :=
  (inService s).foldl
    (fun best e => match best with
      | some b => if engineOpen s e < engineOpen s b then some e else best
      | none => some e)
    none

/-- Fields of a block transaction (R276). -/
structure BlkHead where
  rid : Rid
  blk : Nat
  nb : Nat
  fmt : Nat
  flags : BlkFlags
deriving DecidableEq, Repr

/-- The block head of a transaction. -/
def blkHead (t : Txn) : BlkHead :=
  match t.head with
  | .blk rid bk nb fmt resc satf nanf _ _ => ⟨rid, bk.toNat, nb.toNat, fmt.toNat, ⟨resc, satf, nanf⟩⟩
  | _ => ⟨0, 0, 0, 0, {}⟩

/-! ### ROPEN (R277, R279) -/

/-- The descriptor in the three cells of an ROPEN (R277). -/
def parseDesc (cells : List Cell) : Desc :=
  let v := ofBytes (cellsToBytes 48 cells)
  let contrib := bitsOf v 24 4
  let loc := bitAt v 28
  { rid := BitVec.ofNat 12 (bitsOf v 0 12), op := BitVec.ofNat 2 (bitsOf v 12 2), ifmt := BitVec.ofNat 4 (bitsOf v 14 4),
    cfmt := BitVec.ofNat 2 (bitsOf v 18 2), ofmt := BitVec.ofNat 4 (bitsOf v 20 4), contrib := contrib, local_ := loc,
    allred := bitAt v 29, sr := bitAt v 30, nanZero := bitAt v 31, satNan := bitAt v 32, eng := bitsOf v 33 4,
    nblk := bitsOf v 40 24, ppkg := BitVec.ofNat 12 (bitsOf v 64 12), pdie := BitVec.ofNat 8 (bitsOf v 76 8),
    root := bitAt v 84, seed := BitVec.ofNat 32 (bitsOf v 96 32),
    children := (List.range (min 8 (contrib - b2n loc))).map fun j =>
      ⟨BitVec.ofNat 12 (bitsOf v (20 * j + 128) 12), BitVec.ofNat 8 (bitsOf v (20 * j + 140) 8)⟩ }

/-- The nodes that a descriptor names: its used child slots, and the parent unless it is the root. -/
def descNodes (d : Desc) : List Holder := d.children ++ (if d.root then [] else [⟨d.ppkg, d.pdie⟩])

/-- `ifr_window`. -/
def ifrWindow (s : State) : Nat := s.get 0x9000 0x03 16

/-- The node is a direct partner, over the port its route prefers, whose carry formats lack a CFMT (R279). -/
def lacksCarry (s : State) (cfmt : BitVec 2) (h : Holder) : Bool :=
  match nodeDest s h with
  | .via (q :: _) =>
    let p := s.port (logical s q)
    p.gen != 0 && p.partnerDie == h.die && (h.pkg.toNat == ownPkg s || Config.isReach q) && !bitAt p.carry cfmt.toNat
  | _ => false

/-- The descriptor needs more than the compat level (R343, R344). -/
def aboveLevel (s : State) (d : Desc) : Bool :=
  let lvl := s.get 0xC000 0x02 0x42
  let mx6 (c : BitVec 4) : Bool := c == 1 || c == 2
  (decide (lvl < 0x42) && (mx6 d.ifmt || mx6 d.ofmt)) || (decide (lvl < 0x41) && (d.cfmt == 0 || d.op == 3))

/-- The checks of R279 in their order. -/
def openStatus (s : State) (ten : Ten) (d : Desc) : BitVec 8 :=
  if quiesced s ten then 0x04
  else if d.contrib = 0 ∨ d.nblk = 0 then 0x01
  else if s.elab_.ifr = 0 ∨ 8 < d.ifmt.toNat ∨ 8 < d.ofmt.toNat ∨ d.cfmt = 3 ∨ (8 ≤ d.eng ∧ d.eng ≤ 14)
      ∨ 8 < d.contrib - b2n d.local_ ∨ (descNodes d).any (fun h => nodeDest s h == .self) then 0x14
  else if ((ridOf s d.rid).any fun r => !r.aborted) ∨ (inService s).isEmpty
      ∨ stagingFree s < d.contrib * ifrWindow s then 0x17
  else if (descNodes d).any (fun h => match nodeDest s h with | .bad _ => true | _ => false) then 0x10
  else if (descNodes d).any (lacksCarry s d.cfmt) ∨ aboveLevel s d then 0x15
  else 0

/-! ### Staging, window and orphan pool (R281) -/

/-- A block on its way to its engine. -/
structure BlockIn where
  rid : Rid
  blk : Nat
  holder : Option Holder
  fmt : Nat
  bytes : List Byte
  flags : BlkFlags
deriving DecidableEq, Repr

/-- Contribution slot of a source: 0 for the local one, j + 1 for child slot j. -/
def sourceOf (d : Desc) (h : Option Holder) : Option Nat :=
  match h with
  | none => if d.local_ then some 0 else none
  | some h => (findIdx (· == h) d.children).map (· + 1)

/-- Free slots of the orphan pool (R271). -/
def orphanRoom (s : State) : Bool := decide (s.ifr.orphans.length < 256)

/-- Put a block into the orphan pool. -/
def toOrphans (s : State) (b : BlockIn) (res : Bool) : State :=
  setOrphans s (s.ifr.orphans ++
    [{ rid := b.rid, blk := b.blk, res := res, holder := b.holder, fmt := BitVec.ofNat 4 b.fmt, bytes := b.bytes,
       flags := b.flags }])

/-- Stage a block in the reservation of its RID; a local contribution is converted (R282). -/
def stage (s : State) (r : RidState) (b : BlockIn) (src : Nat) : State :=
  let x : Staged :=
    if src = 0 then
      let (c, f) := toCarry r.desc b.bytes
      { blk := b.blk, src := 0, carry := c, flags := f }
    else { blk := b.blk, src := src, carry := decodeCarry r.desc.cfmt b.bytes, flags := b.flags }
  setRid s b.rid { r with staged := r.staged ++ [x] }

/-- One block is staged, pooled or discarded; none when it must wait where it stands (R281). -/
def offerBlock (s : State) (b : BlockIn) : Option State :=
  match ridOf s b.rid with
  | none => if b.holder.isNone then some s else if orphanRoom s then some (toOrphans s b false) else none
  | some r =>
    if r.aborted then some (s.bump 0x9001 0x09 1)
    else if b.blk < r.klo + r.window then
      match sourceOf r.desc b.holder with
      | some src => some (stage s r b src)
      | none => some s
    else if orphanRoom s then some (toOrphans s b false) else none

/-- A block of this source has already been contributed (R291). -/
def alreadyGot (s : State) (rid : Rid) (r : RidState) (h : Option Holder) (k : Nat) : Bool :=
  decide (k < r.klo)
    || (match sourceOf r.desc h with
        | some src => r.staged.any fun x => x.blk == k && x.src == src
        | none => false)
    || s.ifr.orphans.any fun o => o.rid == rid && o.blk == k && !o.res && o.holder == h

/-- Block `i` of a transaction of which the first `w.taken` are gone, and with them the cells that held nothing
else. -/
def blockAt (w : Waiting) (holder : Option Holder) (i : Nat) : BlockIn :=
  let h := blkHead w.txn
  let z := blockBytes h.fmt
  let base := w.taken * z / 16 * 16
  let bytes := cellsToBytes (16 * w.txn.data.length) w.txn.data
  { rid := h.rid, blk := h.blk + i, holder := holder, fmt := h.fmt, bytes := (bytes.drop (z * i - base)).take z,
    flags := h.flags }

/-- Take blocks in ascending order until one must wait: the state and the number taken. -/
def takeBlocks (w : Waiting) (holder : Option Holder) : (fuel i : Nat) → State → State × Nat
  | 0, i, s => (s, i)
  | fuel + 1, i, s =>
    if (blkHead w.txn).nb ≤ i then (s, i)
    else match offerBlock s (blockAt w holder i) with
      | some s => takeBlocks w holder fuel (i + 1) s
      | none => (s, i)

/-- Give back the credits of cells that leave a transaction which still waits. -/
def creditPart (s : State) (pl : Place) (w : Waiting) (n : Nat) : State :=
  match pl with
  | .ifi ch _ => s.creditDie ch n
  | .rx q _ => if n = 0 then s else s.creditLink q w.vc n
  | .own _ => s

/-- Take what can be taken of the transaction at a place; the rest waits there (R281). -/
def serveBlocks (s : State) (pl : Place) (w : Waiting) (holder : Option Holder) : State :=
  let h := blkHead w.txn
  let (s, i) := takeBlocks w holder 16 w.taken s
  if h.nb ≤ i then takeAt s pl
  else
    let z := blockBytes h.fmt
    let n := i * z / 16 - w.taken * z / 16
    let s := creditPart s pl w n
    putAt s pl { w with step := 8, taken := i, txn := { w.txn with data := w.txn.data.drop n } }

/-! ### Results and completion (R284, R289) -/

/-- DONE: the RID becomes FREE (R289). -/
def ridDone (s : State) (rid : Rid) (r : RidState) : State :=
  rstat (freeRid s rid) r.ten 0 0 3 rid r.desc.nblk r.flags r.eng

/-- A block transaction of this node. -/
def blkTxn (s : State) (opc : BitVec 8) (r : RidState) (blk nb fmt : Nat) (f : BlkFlags) (h : Holder) (bytes : List Byte) :
    Txn :=
  { opc := opc, ten := r.ten, tag := 0, sport := 0, spkg := BitVec.ofNat 12 (ownPkg s), sdie := s.die,
    head := .blk r.desc.rid (BitVec.ofNat 24 blk) (BitVec.ofNat 4 nb) (BitVec.ofNat 4 fmt) f.resc f.sat f.nan h.pkg h.die,
    data := bytesToCells bytes }

/-- Present an RRES to the die, in source form. -/
def presentRes (s : State) (r : RidState) (blk nb fmt : Nat) (f : BlkFlags) (bytes : List Byte) : State :=
  s.toIfi .red (sourceForm (blkTxn s 0x61 r blk nb fmt f ⟨0, 0⟩ bytes) 0)

/-- Present an RRES, and with ALLRED send it to each used child slot (R284). -/
def giveRes (s : State) (r : RidState) (blk nb fmt : Nat) (f : BlkFlags) (bytes : List Byte) : State :=
  let s := presentRes s r blk nb fmt f bytes
  if r.desc.allred then r.desc.children.foldl (fun s h => sendOut s (blkTxn s 0x61 r blk nb fmt f h bytes)) s else s

/-! ### The start of blocks (R280, R284) -/

/-- Every contribution of a block is staged. -/
def blockReady (r : RidState) (k : Nat) : Bool :=
  decide (k < r.desc.nblk) && (r.staged.filter fun x => x.blk == k).length == r.desc.contrib

/-- Consecutive complete blocks from k_lo on, at most `n`. -/
def readyRun (r : RidState) : (n k : Nat) → Nat
  | 0, _ => 0
  | n + 1, k => if blockReady r k then readyRun r n (k + 1) + 1 else 0

/-- The contributions of a block in the order of R280. -/
def inOrder (r : RidState) (k : Nat) : List Staged :=
  (List.range 10).filterMap fun src => r.staged.find? fun x => x.blk == k && x.src == src

/-- A block after its hop. -/
structure HopOut where
  carry : Carry
  /-- Events at this node: conversion of the local contribution and combination. -/
  own : BlkFlags
  /-- Events here or in any block it contains. -/
  all : BlkFlags
deriving DecidableEq, Repr

/-- The hop of block `k` (R284). -/
def hopOf (r : RidState) (k : Nat) : HopOut :=
  let cs := inOrder r k
  match hopCarry r.desc cs with
  | some (c, f, g) => ⟨c, f.or (((cs.find? fun x => x.src == 0).map (·.flags)).getD {}), g⟩
  | none => ⟨.nan, {}, {}⟩

/-- Flags of several blocks together. -/
def orFlags (fs : List BlkFlags) : BlkFlags := fs.foldl BlkFlags.or {}

/-- Count the events of blocks that complete at this node (R287). -/
def countBlocks (s : State) (fs : List BlkFlags) : State :=
  let s := s.bump64 0x9001 0x01 fs.length
  let s := s.bump64 0x9001 0x02 (fs.filter (·.resc)).length
  let s := s.bump64 0x9001 0x03 (fs.filter (·.sat)).length
  s.bump64 0x9001 0x04 (fs.filter (·.nan)).length

/-- A block of the orphan pool that came in an RRES, at its RID that is OPEN now: presented and sent on, or a bad block
(R281, R284, R291). -/
def adoptRes (s : State) (rid : Rid) (r : RidState) (o : Orphan) : State :=
  if r.desc.root ∨ !r.desc.allred ∨ o.holder ≠ some ⟨r.desc.ppkg, r.desc.pdie⟩ ∨ o.fmt ≠ r.desc.ofmt
      ∨ r.desc.nblk ≤ o.blk ∨ r.got.contains o.blk then
    rstat (s.bump 0x9001 0x05 1) r.ten 0 0x14 5 rid o.blk {} r.eng
  else
    let r' := { r with flags := r.flags.or o.flags, got := r.got ++ [o.blk] }
    let s := giveRes (setRid s rid r') r' o.blk 1 o.fmt.toNat o.flags o.bytes
    if o.blk + 1 = r.desc.nblk then ridDone s rid r' else s

/-- A contribution of the orphan pool moves into the reservation of its RID; one that does not fit the descriptor is a bad
block (R279, R281, R291). -/
def adoptContribution (s : State) (rid : Rid) (r : RidState) (o : Orphan) : State :=
  let b : BlockIn := { rid := rid, blk := o.blk, holder := o.holder, fmt := o.fmt.toNat, bytes := o.bytes, flags := o.flags }
  let fmtOk := if o.holder.isNone then o.fmt == r.desc.ifmt else o.fmt.toNat == carryCode r.desc.cfmt
  match sourceOf r.desc o.holder with
  | some src =>
    if !fmtOk ∨ r.desc.nblk ≤ o.blk ∨ alreadyGot s rid r o.holder o.blk then
      rstat (s.bump 0x9001 0x05 1) r.ten 0 0x14 5 rid o.blk {} r.eng
    else stage s r b src
  | none => rstat (s.bump 0x9001 0x05 1) r.ten 0 0x14 5 rid o.blk {} r.eng

/-- Blocks of the orphan pool go to their RID as its window allows (R279, R281); a result needs no place in the window. -/
def adoptOrphans (s : State) (rid : Rid) : State :=
  s.ifr.orphans.foldl
    (fun s o =>
      match ridOf s rid with
      | none => s
      | some r =>
        if o.rid ≠ rid ∨ r.aborted ∨ (!o.res ∧ r.klo + r.window ≤ o.blk) then s
        else
          let s := setOrphans s (s.ifr.orphans.filter (· != o))
          if o.res then adoptRes s rid r o else adoptContribution s rid r o)
    s

/-- Results of a group at the root, in RRES transactions of at most the maximum NB for OFMT (R280). -/
def rootResults (s : State) (r : RidState) (k0 : Nat) (outs : List (List Byte × BlkFlags)) : State :=
  let m := nbMax r.desc.ofmt.toNat
  let groups := chunk outs.length m outs
  (List.range groups.length).foldl
    (fun s i =>
      let g := groups.getD i []
      giveRes s r (k0 + i * m) g.length r.desc.ofmt.toNat (orFlags (g.map (·.2))) (g.map (·.1)).flatten)
    s

/-- A group of a RID starts and completes (R280, R284, R289). -/
def startGroup (s : State) (rid : Rid) (r : RidState) (n : Nat) : State :=
  let d := r.desc
  let ks := (List.range n).map (r.klo + ·)
  let hops := ks.map (hopOf r)
  let r' := { r with klo := r.klo + n, staged := r.staged.filter fun x => decide (r.klo + n ≤ x.blk) }
  if d.root then
    let outs := (ks.zip hops).map fun x =>
      let (bs, f) := deliver d x.2.carry x.1
      (bs, x.2.all.or f, x.2.own.or f)
    let r' := { r' with flags := orFlags (r.flags :: outs.map (·.2.1)) }
    let s := countBlocks (setRid s rid r') (outs.map (·.2.2))
    let s := rootResults s r' r.klo (outs.map fun o => (o.1, o.2.1))
    if d.nblk ≤ r'.klo then ridDone s rid r' else adoptOrphans s rid
  else
    let f := orFlags (hops.map (·.all))
    let r' := { r' with flags := r.flags.or f }
    let s := countBlocks (setRid s rid r') (hops.map (·.own))
    let s := sendOut s (blkTxn s 0x60 r' r.klo n (carryCode d.cfmt) f ⟨d.ppkg, d.pdie⟩
      (hops.map fun h => encodeCarry d.cfmt h.carry).flatten)
    if d.nblk ≤ r'.klo ∧ !d.allred then ridDone s rid r' else adoptOrphans s rid

/-- Blocks of RID `r` that start now: the consecutive complete ones, at most one group in a cc, within the maximum NB of the
carry format and the 90 blocks per cc of its engine (R271, R276, R280). -/
def groupSize (s : State) (r : RidState) : Nat :=
  if r.groupAt = some s.now then 0
  else min (readyRun r (nbMax (carryCode r.desc.cfmt)) r.klo) (90 - mgetD s.ifr.starts r.eng 0)

/-- The group of `n` blocks is noted: its cc, and its engine's blocks of the cc. -/
def noteGroup (s : State) (rid : Rid) (r : RidState) (n : Nat) : State :=
  let s := setRid s rid { r with groupAt := some s.now }
  { s with ifr := { s.ifr with starts := mset s.ifr.starts r.eng (mgetD s.ifr.starts r.eng 0 + n) } }

/-- BLOCK_START: the group of consecutive complete blocks of a RID (R280). A RID that moves, or whose engine is out
of service, waits (R294). -/
def execBlockStart (rid : Rid) (s : State) : Host.Outcome State Fault Refusal :=
  match ridOf s rid with
  | some r =>
    if r.aborted ∨ r.moving.isSome ∨ !(inService s).contains r.eng then .next s
    else
      let n := groupSize s r
      .next (if n = 0 then s else startGroup (noteGroup s rid r n) rid { r with groupAt := some s.now } n)
  | none => .next s

/-! ### Commands of the die (R279, R290, R291) -/

/-- RENG of a refused command: the engine that holds the RID, 0 where none does (R278; log entry 57). -/
def holdingEngine (s : State) (rid : Rid) : Nat :=
  ((ridOf s rid).map fun r => if r.aborted then 0 else r.eng).getD 0

/-- ROPEN (R279). -/
def openRid (s : State) (k : Nat) (w : Waiting) : State :=
  let d := parseDesc w.txn.data
  let st := openStatus s w.txn.ten d
  let s := takeAt s (.ifi .red k)
  if st = 0 then
    let eng := if (inService s).contains d.eng then d.eng else (leastLoaded s).getD 0
    let r : RidState := { aborted := false, desc := d, ten := w.txn.ten, eng := eng, window := ifrWindow s, klo := 0,
                          staged := [], flags := {}, got := [], moving := none }
    adoptOrphans (rstat (setRid s d.rid r) w.txn.ten w.txn.rqid 0 1 d.rid 0 {} eng) d.rid
  else rstat (s.bump 0x9001 0x06 1) w.txn.ten w.txn.rqid st 1 d.rid 0 {} (holdingEngine s d.rid)

/-- The `k`-th transaction of the RED ingress buffer, when it has an opcode. -/
def onRed (s : State) (k : Nat) (opc : BitVec 8) (f : Waiting → State) : Host.Outcome State Fault Refusal :=
  match atPlace s (.ifi .red k) with
  | some w => .next (if w.txn.opc = opc then f w else s)
  | none => .next s

/-- ROPEN (R279). -/
def execRopen (k : Nat) (s : State) : Host.Outcome State Fault Refusal := onRed s k 0x62 (openRid s k)

/-- The port over which the parent is reached lacks IFR: the port, for its count (R340). -/
def parentLacksIfr (s : State) (d : Desc) : Option Nat :=
  if d.root then none
  else match nodeDest s ⟨d.ppkg, d.pdie⟩ with
    | .via (q :: _) => if lacksFeature (s.port (logical s q)) 6 then some q else none
    | _ => none

/-- The refusals of a local contribution (R291, R340). -/
def contStatus (s : State) (t : Txn) : BitVec 8 :=
  let h := blkHead t
  if quiesced s t.ten then 0x04
  else if h.nb = 0 then 0x01
  else match ridOf s h.rid with
    | none => 0x14
    | some r =>
      if r.aborted ∨ !r.desc.local_ ∨ h.fmt ≠ r.desc.ifmt.toNat ∨ nbMax h.fmt < h.nb ∨ r.desc.nblk < h.blk + h.nb
          ∨ (List.range h.nb).any (fun i => alreadyGot s h.rid r none (h.blk + i)) then 0x14
      else if (parentLacksIfr s r.desc).isSome then 0x15
      else 0

/-- A refused RCONT: RSTAT CONT_REFUSED (R291). -/
def refuseCont (s : State) (k : Nat) (t : Txn) (st : BitVec 8) : State :=
  let h := blkHead t
  let s := match (ridOf s h.rid).bind fun r => parentLacksIfr s r.desc with
    | some q => if st = 0x15 then s.bump (0xC100 + 16 * q) 0x07 1 else s
    | none => s
  let eng := holdingEngine s h.rid
  rstat ((takeAt s (.ifi .red k)).bump 0x9001 0x06 1) t.ten t.rqid st 2 h.rid h.blk {} eng

/-- RCONT: a new one is checked; one that waits goes on (R281, R291). -/
def takeCont (s : State) (k : Nat) (w : Waiting) : State :=
  if w.step = 8 then serveBlocks s (.ifi .red k) w none
  else
    let st := contStatus s w.txn
    if st = 0 then serveBlocks s (.ifi .red k) w none else refuseCont s k w.txn st

/-- RCONT (R282). -/
def execRcont (k : Nat) (s : State) : Host.Outcome State Fault Refusal := onRed s k 0x65 (takeCont s k)

/-- A RID is abandoned at this adapter (R290). -/
def abortRid (s : State) (rid : Rid) (ten : Ten) (rqid : BitVec 16) (status : BitVec 8) : State :=
  let old := ridOf s rid
  let blank : RidState :=
    { aborted := true,
      desc := { rid := rid, op := 0, ifmt := 0, cfmt := 0, ofmt := 0, contrib := 0, local_ := false, allred := false,
                sr := false, nanZero := false, satNan := false, eng := 0, nblk := 0, ppkg := 0, pdie := 0,
                root := false, seed := 0, children := [] },
      ten := 0, eng := 0, window := 0, klo := 0, staged := [], flags := {}, got := [], moving := none }
  let s := setOrphans (setRid s rid blank) (s.ifr.orphans.filter fun o => o.rid != rid)
  rstat s ten rqid status 4 rid 0 {} ((old.map (·.eng)).getD 0)

/-- RABORT (R290). -/
def execRabort (k : Nat) (s : State) : Host.Outcome State Fault Refusal :=
  onRed s k 0x63 fun w =>
    match w.txn.head with
    | .rabort rid => abortRid (takeAt s (.ifi .red k)) rid w.txn.ten w.txn.rqid 0
    | _ => takeAt s (.ifi .red k)

/-- A write of `ifr_abort_rid` (R290). -/
def abortWrite (s : State) (v : Nat) : State :=
  let rid : Rid := BitVec.ofNat 12 v
  abortRid s rid (((ridOf s rid).map (·.ten)).getD 0) 0 0

/-! ### Blocks over the link (R281, R291) -/

/-- A bad block transaction is discarded (R291). -/
def badBlock (s : State) (pl : Place) (r : RidState) (h : BlkHead) (blkx : Nat) : State :=
  rstat ((takeAt s pl).bump 0x9001 0x05 1) r.ten 0 0x14 5 h.rid blkx {} r.eng

/-- Blocks for an ABORTED RID are discarded (R281). -/
def discardAborted (s : State) (pl : Place) (n : Nat) : State := (takeAt s pl).bump 0x9001 0x09 n

/-- The first block concerned when an RBLK for an OPEN RID is a bad block (R291). -/
def rblkBad (s : State) (t : Txn) (r : RidState) : Option Nat :=
  let h := blkHead t
  let from_ : Option Holder := some ⟨t.spkg, t.sdie⟩
  if (sourceOf r.desc from_).isNone ∨ h.fmt ≠ carryCode r.desc.cfmt ∨ h.nb = 0 ∨ nbMax h.fmt < h.nb then some h.blk
  else ((List.range h.nb).find? fun i =>
    decide (r.desc.nblk ≤ h.blk + i) || alreadyGot s h.rid r from_ (h.blk + i)).map (h.blk + ·)

/-- RBLK at its destination. -/
def takeRblk (s : State) (pl : Place) (w : Waiting) : State :=
  let h := blkHead w.txn
  let from_ : Option Holder := some ⟨w.txn.spkg, w.txn.sdie⟩
  match ridOf s h.rid with
  | none => serveBlocks s pl w from_
  | some r =>
    if r.aborted then discardAborted s pl (h.nb - w.taken)
    else if w.step = 8 then serveBlocks s pl w from_
    else match rblkBad s w.txn r with
      | some k => badBlock s pl r h k
      | none => serveBlocks s pl w from_

/-- RBLK (R281). -/
def execRblk (pl : Place) (s : State) : Host.Outcome State Fault Refusal :=
  serveAt s pl 0x60 fun s w => targetOr s pl w fun s => takeRblk s pl w

/-- The first block concerned when an RRES for an OPEN RID is a bad block (R291). -/
def rresBad (t : Txn) (r : RidState) : Option Nat :=
  let h := blkHead t
  if r.desc.root ∨ !r.desc.allred ∨ t.spkg ≠ r.desc.ppkg ∨ t.sdie ≠ r.desc.pdie ∨ h.fmt ≠ r.desc.ofmt.toNat
      ∨ h.nb = 0 ∨ nbMax h.fmt < h.nb then some h.blk
  else ((List.range h.nb).find? fun i =>
    decide (r.desc.nblk ≤ h.blk + i) || r.got.contains (h.blk + i)).map (h.blk + ·)

/-- The blocks of an RRES for a FREE RID go to the orphan pool; it waits while they do not all fit (R281). -/
def pooledRres (s : State) (pl : Place) (w : Waiting) : State :=
  let h := blkHead w.txn
  if 256 < s.ifr.orphans.length + h.nb then s
  else
    takeAt ((List.range h.nb).foldl
      (fun s i => toOrphans s (blockAt w (some ⟨w.txn.spkg, w.txn.sdie⟩) i) true) s) pl

/-- RRES at a node below the root: presented, and sent on to its own children (R284). -/
def takeRres (s : State) (pl : Place) (w : Waiting) : State :=
  let h := blkHead w.txn
  match ridOf s h.rid with
  | none => pooledRres s pl w
  | some r =>
    if r.aborted then discardAborted s pl h.nb
    else match rresBad w.txn r with
      | some k => badBlock s pl r h k
      | none =>
        let bytes := cellsToBytes (h.nb * blockBytes h.fmt) w.txn.data
        let r' := { r with flags := r.flags.or h.flags, got := r.got ++ (List.range h.nb).map (h.blk + ·) }
        let s := giveRes (setRid (takeAt s pl) h.rid r') r' h.blk h.nb h.fmt h.flags bytes
        if h.blk + h.nb = r.desc.nblk then ridDone s h.rid r' else s

/-- RRES (R284). -/
def execRres (pl : Place) (s : State) : Host.Outcome State Fault Refusal :=
  serveAt s pl 0x61 fun s w => targetOr s pl w fun s => takeRres s pl w

/-! ### Waiting blocks go on (R281) -/

/-- Waiting RBLKs of a port, oldest first. -/
def resumeRx : (fuel : Nat) → State → PortId → Nat → State
  | 0, s, _, _ => s
  | fuel + 1, s, q, i =>
    match (s.port q).rx[i]? with
    | none => s
    | some w =>
      if w.step = 8 ∧ w.txn.opc = 0x60 then
        let s' := takeRblk s (.rx q i) w
        resumeRx fuel s' q (if (s'.port q).rx.length < (s.port q).rx.length then i else i + 1)
      else resumeRx fuel s q (i + 1)

/-- Waiting RCONTs, oldest first. -/
def resumeRed : (fuel : Nat) → State → Nat → State
  | 0, s, _ => s
  | fuel + 1, s, k =>
    match atPlace s (.ifi .red k) with
    | none => s
    | some w =>
      if w.step = 8 ∧ w.txn.opc = 0x65 then
        let s' := takeCont s k w
        resumeRed fuel s' (if s'.ingress.length < s.ingress.length then k else k + 1)
      else resumeRed fuel s (k + 1)

/-- BLOCK_STAGE_RESUME (R281): the port side first, in ascending port order, then RED ingress (R297). -/
def execBlockStageResume (s : State) : Host.Outcome State Fault Refusal :=
  let s := (List.finRange 10).foldl (fun s (q : PortId) => resumeRx ((s.port q).rx.length) s q 0) s
  .next (resumeRed s.ingress.length s 0)

/-! ### Engines (R294) -/

/-- The mask names an engine that is not built or has been removed. -/
def enginesMaskBad (s : State) (mask : Nat) : Bool :=
  (List.range 8).any fun e => bitAt mask e && (decide (s.elab_.ifr ≤ e) || bitAt (s.get 0xB200 0x06 0) e)

/-- A write of `ifr_engines_enabled`; a mask that names a missing engine is refused. -/
def setEngines (s : State) (mask : Nat) : State :=
  if enginesMaskBad s mask then s else s.put 0x9000 0x02 (2 ^ s.elab_.ifr - 1) mask

/-- RESIDUE_ERROR (R294): the engine leaves service, counted, with a service record. -/
def execResidueError (e : EngineId) (residue : BitVec 2) (s : State) : Host.Outcome State Fault Refusal :=
  if s.elab_.ifr ≤ e.val then .fault .noSuchUnit
  else if s.ifr.failed.contains e.val then .next s
  else
    let s := { s with ifr := { s.ifr with failed := s.ifr.failed ++ [e.val] } }
    .next ((s.bump 0x9001 0x08 1).service 0x40 5 e.val 0 residue.toNat)

/-- The RID is OPEN on an engine that has left service, and a peer is in service. -/
def mustMove (s : State) (r : RidState) : Bool :=
  !r.aborted && !(inService s).contains r.eng && !(inService s).isEmpty

/-- RID_MOVE (R294): at a block boundary the move begins. -/
def execRidMove (rid : Rid) (s : State) : Host.Outcome State Fault Refusal :=
  match ridOf s rid with
  | some r => .next (if mustMove s r ∧ r.moving.isNone then setRid s rid { r with moving := some s.now } else s)
  | none => .next s

/-- RID_MOVE_END (R294): the peer holds the RID. -/
def execRidMoveEnd (rid : Rid) (s : State) : Host.Outcome State Fault Refusal :=
  match ridOf s rid, leastLoaded s with
  | some r, some e =>
    if r.moving.isSome then
      let s := setRid s rid { r with eng := e, moving := none }
      .next (rstat (s.bump 0x9001 0x07 1) r.ten 0 0 6 rid 0 {} e)
    else .next s
  | _, _ => .next s

end Sys2Proof.Machine
end

