-- ==== Sys2Proof/Machine/Sched.lean ====
section
/-!
DEFINITION. The scheduled plane at work: the freeze and the boundary of an epoch (R170–R180), payload from the die
and its acceptance (R178, R179), flits held to their deadlines and forwarded (R183–R190), beacons, joining and
leaving (R191–R196, R446), leap slots and their flooding (R197–R202), and tempo (R204).
-/

namespace Sys2Proof.Machine
open Sys2Proof

/-! ### Small parts -/

/-- The scheduled plane may use a port: it is in ACTIVE. -/
def schUp (s : State) (q : Nat) : Bool := linkUp s (logical s q)

/-- The domain links that can carry a cell now: those in ACTIVE (R191). -/
def liveLinks (s : State) : List Nat := (domainLinks s).filter (linkUp s)

/-- Change the scheduled-plane state. -/
def State.modSch (s : State) (f : Sched → Sched) : State := { s with sch := f s.sch }

/-- Emit a VOID cell for an occurrence (R190). -/
def sendVoid (s : State) (q reason : Nat) (epoch : Epoch) (slot : SlotId) (ten : Ten) : State :=
  if domainLink s q then (sendCtrl s (logical s q) (voidCell reason epoch slot ten)).pbump 0x6001 q 0x07 1 else s

/-- Discard an SCH payload that waits in its ingress buffer; its credits return. -/
def dropSch (s : State) (seq : Nat) : State :=
  match s.ingress.find? fun x => x.1 == IngCh.sch && x.2.seq == seq with
  | some x =>
    ({ s with ingress := s.ingress.filter fun y => !(y.1 == IngCh.sch && y.2.seq == seq) }).creditDie .sch
      (ingCells .sch x.2)
  | none => s

/-- SRC_REFUSED for an occurrence, in the next cc (R179). -/
def srcRefused (s : State) (q : Nat) (slot : SlotId) (ten : Ten) (reason : Nat) (epoch : Epoch) : State :=
  (presentHead s 5 q slot ten reason epoch (s.now + 1)).pbump 0x6001 q 0x06 1

/-- Take an assignment back: the payload is discarded and refused with a reason. A proxied payload has no sender on
the IFI. -/
def unassign (s : State) (q : Nat) (a : Assigned) (reason : Nat) : State :=
  let s := s.modPort q fun p => { p with assigned := p.assigned.filter (· != a) }
  if a.cells.isEmpty then srcRefused (dropSch s a.seq) q a.slot a.ten reason a.epoch else s

/-- The payload assigned to an occurrence. -/
def assignedTo (s : State) (q : Nat) (slot : SlotId) (epoch : Epoch) : Option Assigned :=
  (s.port q).assigned.find? fun a => a.slot == slot && a.epoch == epoch

/-! ### Flooding (R197–R202) -/

/-- Send a leap or tempo cell on a link; a partner without TEMPO gets LEAP_REQ cells (R341). -/
def sendLeap (s : State) (c : Cell) (q : Nat) : State :=
  if ctypeOf c = 5 ∧ lacksFeature (s.port q) 9 then
    (List.range ((c.extractLsb' 8 4).toNat + 1)).foldl
      (fun s i => sendCtrl s q (c.extractLsb' 64 64 ++ (cellEpoch c + BitVec.ofNat 48 i) ++ 3#16)) s
  else sendCtrl s q c

/-- Present DFAULT on every port with a calendar, raise the interrupt cause and record the code (R196, R202). -/
def presentFault (s : State) (reason : Nat) (epoch : Epoch) : State :=
  let s := (calendarPorts s).foldl (fun s q => presentHead s 6 q 0 0 reason epoch s.now) s
  (s.irq 4).put 0x6F00 0x0D 0 reason

/-- Remember a notice or fault cell among the last 16 distinct ones (R202). -/
def noteCell (s : State) (c : Cell) : State :=
  s.modSch fun h => if h.seen.contains c then h else { h with seen := (c :: h.seen).take 16 }

/-- Send a cell on every domain link but one. -/
def floodCell (s : State) (c : Cell) (src : Option Nat) : State :=
  ((liveLinks s).filter fun q => some q != src).foldl (fun s q => sendCtrl s q c) s

/-- A notice or fault cell that is not among the last 16: forwarded once, and presented (R202). -/
def newNotice (s : State) (c : Cell) (src : Option Nat) (reason : Nat) (epoch : Epoch) : State :=
  if s.sch.seen.contains c then s
  else
    let s := floodCell (noteCell s c) c src
    let s := if ctypeOf c = 6 then s.bump 0x6F02 0x05 1 else s
    presentFault s reason epoch

/-- Flood a DFAULT of this die (R202). -/
def domainFault (s : State) (reason : Nat) (epoch : Epoch) : State :=
  newNotice s (dfaultCell s reason epoch) none reason epoch

/-- Index in LT of the first open epoch (R199). -/
def firstOpen (s : State) : Nat := if s.sch.frozen then 1 else 0

/-- Spread a deficit over the open epochs, from an index of LT on: the table, and the first index raised. -/
def spread : (fuel i d : Nat) → List Nat → Option Nat → List Nat × Option Nat
  | 0, _, _, lt, f => (lt, f)
  | fuel + 1, i, d, lt, f =>
    if d = 0 then (lt, f)
    else
      let add := min d (255 - lt.getD i 0)
      spread fuel (i + 1) (d - add) (addAt i add lt) (if f.isNone ∧ add ≠ 0 then some i else f)

/-- `catch_up` of R199. -/
def catchUp (s : State) (n : Epoch) (d : Nat) : State :=
  let (lt, first) := spread 32 (firstOpen s) d s.sch.lt none
  let c := noticeCell n d (s.sch.epoch + 1 + BitVec.ofNat 48 (first.getD 0))
  let s := s.modSch fun h => { h with lt := lt }
  (presentFault (floodCell (noteCell s c) c none) 1 n).bump 0x6F02 0x03 1

/-- One target epoch of `merge` (R199): the state, and whether a value was raised. -/
def mergeEpoch (k : Nat) (x : State × Bool) (n : Epoch) : State × Bool :=
  let (s, raised) := x
  let d := epochDist s n
  if 32 < d then (s.bump 0x6F02 0x07 1, raised)
  else if 1 < d ∨ (d = 1 ∧ !s.sch.frozen) then
    let i := d.toNat - 1
    if s.sch.lt.getD i 0 < k then (s.modSch fun h => { h with lt := setAt i k h.lt }, true) else (s, raised)
  else if -16 < d then
    -- AP of the frozen next epoch stands in LT[c + 1].
    let old := if d = 1 then s.sch.lt.getD 0 0 else s.sch.ap.getD d.natAbs 0
    if old < k then
      let s := s.modSch fun h =>
        if d = 1 then { h with lt := setAt 0 k h.lt } else { h with ap := setAt d.natAbs k h.ap }
      (catchUp s n (k - old), true)
    else (s, raised)
  else ((domainFault s 2 n).bump 0x6F02 0x04 1, raised)

/-- `merge` of R199. A cell of this adapter goes out on every domain link whether it raised a value or not (R198). -/
def merge (s : State) (c : Cell) (src : Option Nat) : State :=
  let span := if ctypeOf c = 5 then (c.extractLsb' 8 4).toNat else 0
  let k := (c.extractLsb' 64 8).toNat
  let targets := (List.range (span + 1)).map fun i => cellEpoch c + BitVec.ofNat 48 i
  let (s, raised) := targets.foldl (mergeEpoch k) (s, false)
  if raised || src.isNone then ((liveLinks s).filter fun q => some q != src).foldl (fun s q => sendLeap s c q) s else s

/-- Originate a leap request or tempo for epoch c + L (R198). -/
def originate (s : State) (ctype span k : Nat) : State :=
  if s.sch.joined ∧ domainOn s then
    merge s (leapCell s ctype span (s.sch.epoch + BitVec.ofNat 48 (leadOf s)) k) none
  else s

/-- TEMPO with the demand in force, at most `sch_tempo_max` (R204); at compat level 4.0 it goes out as one LEAP_REQ
for each epoch (R343). -/
def sendTempo (s : State) : State :=
  let k := min s.therm.demand (s.get 0x6F01 0x12 128)
  if k = 0 then s
  else if s.get 0xC000 0x02 0x42 = 0x40 then
    let e := s.sch.epoch + BitVec.ofNat 48 (leadOf s)
    if s.sch.joined ∧ domainOn s then
      merge (merge s (leapCell s 3 0 e k) none) (leapCell s 3 0 (e + 1) k) none
    else s
  else originate s 5 1 k

/-! ### The freeze (R172, R177, R180, R200) -/

/-- Every RXF row of a new calendar names a TXF row of the calendar that its NPORT will have (R177). The rows of a port that keeps
its calendar are not checked again (log entry 134). -/
def pairingOk (s : State) (rows : List Nat) : Bool :=
  rows.all fun r =>
    calKind r != 3
      || (let np := nportOf s r
          let other := if (s.port np).calNew then (nextRows s np).drop 1 else (s.port np).cal
          s.elab_.portBuilt np && (match other[(calNslot r).toNat]? with | some t => calKind t == 2 | none => false))

/-- The ports with a new calendar. -/
def newCalPorts (s : State) : List Nat := (List.range 10).filter fun q => (s.port q).calNew

/-- Every port with a new calendar passes the check of R177. -/
def switchPasses (s : State) : Bool :=
  (newCalPorts s).all fun q =>
    (calCheck s q ((nextRows s q).headD 0) ((nextRows s q).drop 1)).isNone && pairingOk s ((nextRows s q).drop 1)

/-- Review of the payloads assigned to epoch n or later on a switching port (R180). -/
def reviewPort (s : State) (q : Nat) : State :=
  let rows := (nextRows s q).drop 1
  let n := s.sch.epoch + 1
  (s.port q).assigned.foldl
    (fun s a =>
      if epochDist s a.epoch < 1 then s
      else match rows[a.slot.toNat]? with
        | some r =>
          if calKind r = 0 ∧ calTen r = a.ten then
            s.modPort q fun p => { p with assigned := mapIf (· == a) (fun a => { a with epoch := n }) p.assigned }
          else unassign s q a 1
        | none => unassign s q a 1)
    s

/-- The calendars that passed at F_n are the ones that switch at T_n; one written in between waits for a later switch (R177). -/
def captureSwitch (s : State) : State :=
  (newCalPorts s).foldl
    (fun s q => let rows := nextRows s q
      s.modPort q fun p => { p with calNew := false, calSwitch := some rows })
    (s.modSch fun h => { h with switchOk := true })

/-- A switch that passed at F_n and has no T_n any more: its calendars are new still. -/
def dropSwitch (s : State) : State :=
  { s with
    sch := { s.sch with switchOk := false },
    ports := s.ports.map fun (p : Port) => { p with calNew := p.calNew || p.calSwitch.isSome, calSwitch := none } }

/-- F_n of the next epoch. -/
def freeze (s : State) : State :=
  if !s.sch.joined || s.sch.frozen then s
  else
    let s := s.modSch fun h => { h with nextN := h.lt.getD 0 0, frozen := true, switchOk := false }
    if s.get 0x6F00 0x0C 0 = 1 ∧ s.get 0x6F00 0x0B 0 = (s.sch.epoch + 1).toNat then
      if switchPasses s then captureSwitch ((newCalPorts s).foldl reviewPort s)
      else s.put 0x6F00 0x0C 0 3
    else s

/-- EPOCH_FREEZE (R172, R177, R180, R200). -/
def execEpochFreeze (s : State) : Host.Outcome State Fault Refusal := .next (freeze s)

/-- EPOCH_HEAD_CELL (R187): for each port whose calendar of the next epoch is not empty. -/
def execEpochHeadCell (s : State) : Host.Outcome State Fault Refusal :=
  let n := s.sch.epoch + 1
  if s.sch.joined ∧ s.sch.frozen then
    .next (((List.range 10).filter fun q => !(calFor s q n).isEmpty).foldl
      (fun s q => presentHead s 2 q 0 0 0 n s.now) s)
  else .next s

/-! ### The boundary (R170, R177, R193, R200, R204) -/

/-- The epoch counter, the start and the leap tables move on (R170, R199, R200). -/
def advanceEpoch (s : State) : State :=
  let s := s.modSch fun h =>
    { h with tn := h.tn + eplen s + h.n, n := h.nextN, epoch := h.epoch + 1, frozen := false, nextN := 0,
             ap := h.lt.getD 0 0 :: h.ap.take 15, nh := h.nextN :: h.nh.take 15, lt := h.lt.drop 1 ++ [0] }
  if s.sch.n = 0 then s else (s.bump64 0x6F02 0x01 1).bump64 0x6F02 0x02 s.sch.n

/-- Calendars of a port at a boundary: the switch (R177), a calendar lost to an uncorrectable error (R333), and
whether the calendar was empty for the whole epoch that ends (R13). -/
def turnCalendar (lost : Bool) (p : Port) : Port :=
  let was := p.cal.isEmpty
  let p := match p.calSwitch with
    | some rows => { p with cal := rows.drop 1, calId := bitsOf (rows.headD 0) 0 16, calSwitch := none }
    | none => p
  let p := if lost then { p with cal := [] } else p
  { p with calIdle := was && p.cal.isEmpty }

/-- A port that sleeps as its calendar gains slots is woken (R13). -/
def wakeForCalendar (s : State) (q : Nat) : State :=
  let p := s.port q
  if !p.cal.isEmpty ∧ (p.state = .nap ∨ p.state = .dormant) then wakePort s q else s

/-- Calendars turn at every port. The switch is done, unless a later one has been armed since F_n (R177). -/
def turnCalendars (s : State) : State :=
  let sw := s.sch.switchOk
  let s := (List.range 10).foldl
    (fun s q => s.modPort q (turnCalendar (s.repair.emptyCal.contains q))) s
  let s := s.repair.emptyCal.foldl (fun s q => (s.port q).assigned.foldl (fun s a => unassign s q a 1) s) s
  let s := { s with repair := { s.repair with emptyCal := [] }, sch := { s.sch with switchOk := false } }
  let s := (List.range 10).foldl wakeForCalendar s
  if sw ∧ s.get 0x6F00 0x0B 0 = s.sch.epoch.toNat then s.put 0x6F00 0x0C 0 2 else s

/-- A TEMPO is owed at the end of this cc: one for a rise and a boundary that meet, with the demand of both (R204, R206). -/
def oweTempo (s : State) : State := { s with therm := { s.therm with owed := true } }

/-- The TEMPO that is owed goes out. -/
def payTempo (s : State) : State :=
  if s.therm.owed then sendTempo { s with therm := { s.therm with owed := false } } else s

/-- T_n of the next epoch. -/
def boundary (s : State) : State :=
  if !s.sch.joined || !s.sch.frozen then s
  else
    let s := turnCalendars (advanceEpoch s)
    oweTempo ((liveLinks s).foldl (fun s q => sendCtrl s q (beaconCell s q)) s)

/-- EPOCH_BOUNDARY (R193). -/
def execEpochBoundary (s : State) : Host.Outcome State Fault Refusal := .next (boundary s)

/-! ### Payload from the die (R178, R179) -/

/-- The next occurrence of a slot at or after a cc: its epoch and row (R178). A transaction whose first cell came before the
boundary may belong to the epoch that has ended. -/
def nextOccurrence (s : State) (q : Nat) (slot : SlotId) (at_ : Nat) : Epoch × Option Nat :=
  let c := s.sch.epoch
  match calRow s q c slot with
  | some r =>
    if (at_ : Int) ≤ acceptCc s (c - 1) (calStart r) then (c - 1, some r)
    else if (at_ : Int) ≤ acceptCc s c (calStart r) then (c, some r)
    else (c + 1, calRow s q (c + 1) slot)
  | none => (c + 1, calRow s q (c + 1) slot)

/-- Assign a payload or refuse it, by the rows of R179 in their order. It is assigned by the cc of its CSOP cell and late by that
of its CEOP cell (R178). -/
def schPayload (s : State) (w : Waiting) : State :=
  let q := w.cport.toNat
  let (n, row) := nextOccurrence s q w.cslot w.at_
  let refuse (reason : Nat) : State := srcRefused (dropSch s w.seq) q w.cslot w.txn.ten reason n
  if !domainOn s || !s.sch.joined || lacksFeature (s.port (logical s q)) 8 then refuse 5
  else if !schUp s q then refuse 4
  else match row with
    | none => refuse 1
    | some r =>
      if calKind r ≠ 0 then refuse 1
      else if calTen r ≠ w.txn.ten then refuse 2
      else if quiesced s w.txn.ten then refuse 3
      else if (assignedTo s q w.cslot n).isSome then refuse 6
      else if acceptCc s n (calStart r) ≤ (w.endAt : Int) ∧ epochDist s n ≤ 0 then
        -- SRC_LATE in cc A, and the VOID of the occurrence.
        let s := (presentHead (dropSch s w.seq) 4 q w.cslot w.txn.ten 0 n s.now).pbump 0x6001 q 0x05 1
        sendVoid s q 1 n w.cslot w.txn.ten
      else
        let s := { s with ingress := mapIf (fun x => x.1 == IngCh.sch && x.2.seq == w.seq)
                            (fun x => (x.1, { x.2 with step := 12 })) s.ingress }
        s.modPort q fun p =>
          { p with assigned := p.assigned ++ [{ slot := w.cslot, epoch := n, ten := w.txn.ten, seq := w.seq }] }

/-- SCH_PAYLOAD (R178): the `k`-th SCH payload in the ingress buffer, when it has not been assigned yet. -/
def execSchPayload (k : Nat) (s : State) : Host.Outcome State Fault Refusal :=
  match atPlace s (.ifi .sch k) with
  | some w => .next (if w.step = 0 then schPayload s w else s)
  | none => .next s

/-! ### Acceptance (R178, R188, R190) -/

/-- Queue a scheduled flit at its port; SCHED flits keep the order of their acceptance. -/
def acceptFlit (s : State) (q : Nat) (slot : SlotId) (cells : List Cell) : State :=
  (s.modPort (logical s q) fun p => { p with schedOut := p.schedOut ++ [({ ftype := 2, slot := slot, cells := cells }, s.sch.epoch)] }).pbump64
    0x6001 q 0x01 1

/-- Accept cc of a TX occurrence of the current epoch. -/
def acceptTx (s : State) (q : Nat) (slot : SlotId) (r : Nat) : State :=
  let n := s.sch.epoch
  let a := assignedTo s q slot n
  if !schUp s q then
    match a with
    | some a => unassign s q a 4
    | none => s
  else if quiesced s (calTen r) then
    let s := match a with
      | some a => unassign s q a 3
      | none => s
    if calProxy r then s else sendVoid s q 5 n slot (calTen r)
  else match a with
    | none => s
    | some a =>
      let cells := if a.cells.isEmpty then
          ((s.ingress.find? fun x => x.1 == IngCh.sch && x.2.seq == a.seq).map fun x => x.2.txn.data).getD []
        else a.cells
      let s := dropSch (s.modPort q fun p => { p with assigned := p.assigned.filter (· != a) }) a.seq
      acceptFlit s q slot cells

/-- The held flit handed over to an occurrence of a TXF slot, with the port that holds it. -/
def handedTo (s : State) (q : Nat) (slot : SlotId) (n : Epoch) : Option (Nat × Held) :=
  (List.range 10).findSome? fun p =>
    ((s.port p).hold.find? fun h => h.handed && h.intended == some (q, slot, n)).map fun h => (p, h)

/-- Accept cc of a TXF occurrence of the current epoch (R188). -/
def acceptTxf (s : State) (q : Nat) (slot : SlotId) : State :=
  match handedTo s q slot s.sch.epoch with
  | none => s
  | some (p, h) =>
    acceptFlit (s.modPort p fun x => { x with hold := x.hold.filter (· != h) }) q slot h.cells

/-- SLOT_ACCEPT (R178): the occurrence of a slot in the current epoch reaches its accept cc. -/
def execSlotAccept (q : PortId) (slot : SlotId) (s : State) : Host.Outcome State Fault Refusal :=
  onPort s q
    (if !s.sch.joined then s
     else match calRow s q s.sch.epoch slot with
       | none => s
       | some r =>
         if calKind r = 0 then acceptTx s q slot r
         else if calKind r = 2 then acceptTxf s q slot
         else s)

/-! ### Hold-to-deadline (R183–R188) -/

/-- The occurrence of a TXF slot that a deadline defines: the first at or after it (R188). -/
def intendedOf (s : State) (np : Nat) (ns : SlotId) (d : Int) : Option (Nat × SlotId × Epoch) :=
  ((List.range 18).map fun i => s.sch.epoch - 15 + BitVec.ofNat 48 i).findSome? fun n =>
    match calRow s np n ns with
    | some r => if calKind r = 2 ∧ d ≤ acceptCc s n (calStart r) then some (np, ns, n) else none
    | none => none

/-- Accept cc of an intended occurrence. -/
def intendedCc (s : State) (x : Nat × SlotId × Epoch) : Int :=
  match calRow s x.1 x.2.2 x.2.1 with
  | some r => acceptCc s x.2.2 (calStart r)
  | none => 0

/-- A VOID goes out in place of an intended occurrence. -/
def voidFor (s : State) (x : Option (Nat × SlotId × Epoch)) (reason : Nat) (ten : Ten) : State :=
  match x with
  | some (np, ns, n) => sendVoid s np reason n ns ten
  | none => s

/-- The valid proxy entry of a slot, with its number (R359). -/
def proxyRow (s : State) (q : Nat) (slot : SlotId) (rx : Bool) : Option (Nat × Nat) :=
  if !s.elab_.firewall then none
  else
    let rows := s.rows 0xC001 0x02
    ((List.range rows.length).find? fun i =>
      let r := rows.getD i 0
      bitAt r 17 && bitAt r 16 == rx && bitsOf r 0 4 == q && bitsOf r 4 12 == slot.toNat).map fun i => (i, rows.getD i 0)

/-- A proxied RX flit becomes a MSG of the hub on FPORT, at most 16 of an entry at a time (R360). -/
def proxyDeliver (s : State) (q : Nat) (slot : SlotId) (cells : List Cell) : State :=
  match proxyRow s q slot true with
  | none => s.bump 0xC002 0x03 1
  | some (i, r) =>
    if 16 ≤ mgetD s.fw.proxyRx i 0 then s.bump 0xC002 0x03 1
    else
      let t : Txn :=
        { opc := 0x20, ten := BitVec.ofNat 8 (bitsOf r 24 8), tag := 0, sport := 0,
          spkg := BitVec.ofNat 12 (ownPkg s), sdie := s.die,
          head := .msg false false 240 (BitVec.ofNat 12 (ownPkg s)) (BitVec.ofNat 20 (bitsOf r 32 20)), data := cells }
      queueOut { s with fw := { s.fw with proxyRx := mset s.fw.proxyRx i (mgetD s.fw.proxyRx i 0 + 1) } }
        [bitsOf r 18 4] { txn := t, taken := i + 1 }

/-- Deliver a flit of an RX slot, on IFI-SCH or as a proxied message (R184, R186, R360). -/
def deliverRx (s : State) (q : Nat) (slot : SlotId) (row : Nat) (n : Epoch) (miss rpld : Bool) (reason late due : Nat)
    (cells : List Cell) (d : Nat := 0) : State :=
  if calProxy row then proxyDeliver s q slot cells
  else
    presentSch s q slot (calTen row) due
      (schHead 1 miss false rpld reason n (leapsOf s n) slot q (calTen row) late :: cells) d

/-- A SCHED flit of an RX or RXF slot whose occurrence is known, with deadline `d` and present stage `pr`. -/
def placeFlit (s : State) (q : Nat) (f : Flit) (r : Nat) (n : Epoch) (d pr : Int) : State :=
  let rx := calKind r == 1
  let full := decide (holdSize s q ≤ (s.port q).hold.length)
  let h : Held := { slot := f.slot, epoch := n, deadline := d.toNat, cells := f.cells, rpld := f.rply, row := r }
  let hold (s : State) (h : Held) : State := s.modPort q fun p => { p with hold := p.hold ++ [h] }
  if d < pr then
    if rx then deliverRx s q f.slot r n true f.rply 1 (pr - d).toNat s.now f.cells d.toNat
    else
      match intendedOf s (nportOf s r) (calNslot r) d with
      | some x =>
        if pr < intendedCc s x then
          if full then voidFor (s.pbump 0x6001 q 0x0A 1) (some x) 4 (calTen r)
          else hold s { h with intended := some x, handed := true }
        else voidFor (s.pbump 0x6001 q 0x09 1) (some x) 2 (calTen r)
      | none => s.pbump 0x6001 q 0x09 1
  else if full then
    let s := s.pbump 0x6001 q 0x0A 1
    if rx then deliverRx s q f.slot r n true f.rply 4 0 s.now f.cells d.toNat
    else voidFor s (intendedOf s (nportOf s r) (calNslot r) d) 4 (calTen r)
  else hold s h

/-- REASON of delivery on arrival: not joined or DESYNC 2, CALID mismatch 3, otherwise none (R183, R184). -/
def onArrival (s : State) (q : Nat) : Option Nat :=
  if !s.sch.joined || (s.port q).schState == 2 then some 2
  else if (s.port q).schState == 3 then some 3 else none

/-- SCHED_FLIT: the oldest accepted SCHED flit of a port (R183–R185, R196, R446). On a port in DESYNC or with another CALID, an RXF
flit is placed by its deadline as on an aligned port (log entry 135). -/
def takeSched (s : State) (q : Nat) : State :=
  match (s.port q).schedIn with
  | [] => s
  | x :: xs =>
    let s := s.modPort q fun p => { p with schedIn := xs }
    let unknown := s.pbump 0x6001 q 0x0B 1
    match domainOn s, x.epoch, (s.port q).cal[x.flit.slot.toNat]? with
    | true, some n, some r =>
      if calSends r then unknown
      else
        let late := onArrival s q
        if calKind r = 1 ∧ late.isSome then deliverRx s q x.flit.slot r n true x.flit.rply (late.getD 0) 0 s.now x.flit.cells
        else if !s.sch.joined then unknown
        else placeFlit s q x.flit r n (deadlineOf s q n r) (x.at_ + 1)
    | _, _, _ => unknown

/-- SCHED_FLIT (R183). -/
def execSchedFlit (q : PortId) (s : State) : Host.Outcome State Fault Refusal :=
  onPort s q (takeSched s (logical s q))

/-- A held flit reaches its deadline: presented, made a VOID when it was lost, or handed over (R181, R188, R333). -/
def releaseHeld (s : State) (q : Nat) (h : Held) : State :=
  let gone := s.modPort q fun p => { p with hold := p.hold.filter (· != h) }
  let ten := calTen h.row
  if calKind h.row = 1 then
    if h.lost then
      if calProxy h.row then gone.bump 0xC002 0x03 1
      else presentHead gone 3 q h.slot ten 6 h.epoch h.deadline
    else deliverRx gone q h.slot h.row h.epoch false h.rpld 0 0 h.deadline h.cells
  else
    let x := intendedOf s (nportOf s h.row) (calNslot h.row) h.deadline
    match x with
    | none => gone.pbump 0x6001 q 0x09 1
    | some _ =>
      if h.lost then voidFor gone x 6 ten
      else
        let on := s.modPort q fun p =>
          { p with hold := mapIf (· == h) (fun h => { h with intended := x, handed := true }) p.hold }
        on.pbump64 0x6001 q 0x02 1

/-- DEADLINE (R188): the oldest held flit of a slot. -/
def execDeadline (q : PortId) (slot : SlotId) (s : State) : Host.Outcome State Fault Refusal :=
  let l := logical s q
  onPort s q
    (match (s.port l).hold.find? fun h => h.slot == slot && !h.handed with
     | some h => releaseHeld s l h
     | none => s)

/-! ### Control cells of the scheduled plane -/

/-- A received control cell of a given CTYPE is taken; it acts on a domain link only (R191, R446). -/
def takeCtrl (s : State) (q ctype : Nat) (f : State → CtrlIn → State) : State :=
  match ctrlHead s q ctype with
  | none => s
  | some c => if domainLink s q then f (dropCtrl s q) c else dropCtrl s q

/-- A VOID of an occurrence of this receiver (R190). -/
def placeVoid (s : State) (q : Nat) (c : CtrlIn) (r : Nat) : State :=
  let n := cellEpoch c.cell
  let slot : SlotId := c.cell.extractLsb' 64 12
  let reason := (c.cell.extractLsb' 8 4).toNat
  let d := deadlineOf s q n r
  let pr : Int := c.at_ + 1
  let arrive := onArrival s q
  if calKind r = 1 then
    if calProxy r then s.bump 0xC002 0x03 1
    else
      let late := if arrive.isSome then 0 else (pr - d).toNat
      let miss := arrive.isSome || decide (d < pr)
      presentSch s q slot (calTen r) (if miss then s.now else d.toNat)
        [schHead 3 miss false false reason n (leapsOf s n) slot q (calTen r) late]
        (if arrive.isSome then 0 else d.toNat)
  else if !s.sch.joined then s
  else voidFor s (intendedOf s (nportOf s r) (calNslot r) d) 3 (calTen r)

/-- VOID: counted, then handled as a SCHED flit of its slot (R190, R446). -/
def takeVoid (s : State) (q : Nat) : State :=
  match ctrlHead s q 7 with
  | none => s
  | some c =>
    let s := dropCtrl s q
    let unknown := s.pbump 0x6001 q 0x0B 1
    if !domainOn s then unknown
    else
      match (s.port q).beaconEpoch, (s.port q).cal[(c.cell.extractLsb' 64 12).toNat]? with
      | some _, some r =>
        if calSends r then unknown.pbump 0x6001 q 0x08 1 else placeVoid (s.pbump 0x6001 q 0x08 1) q c r
      | _, _ => unknown.pbump 0x6001 q 0x08 1

/-- VOID (R190). -/
def execVoidCell (q : PortId) (s : State) : Host.Outcome State Fault Refusal :=
  onPort s q (takeVoid s (logical s q))

/-- The partner's epoch start that a live beacon implies (R194). On a reach port RS decoding completes two stages
before the sequence check (R103). -/
def impliedStart (s : State) (q : Nat) (c : CtrlIn) : Int :=
  let txoff := (c.cell.extractLsb' 64 16).toNat
  if Config.isReach q then (c.at_ : Int) - 2 - txoff - ((((s.port q).loop + 1) / 2 + 5 : Nat) : Int)
  else (c.at_ : Int) - txoff - 6

/-- Join from a beacon (R195). -/
def joinFrom (s : State) (c : CtrlIn) (start : Int) : State :=
  let n := (c.cell.extractLsb' 80 8).toNat
  let t := start.toNat
  let zero (k : Nat) : List Nat := List.replicate k 0
  { s with
    sch := { s.sch with joined := true, epoch := cellEpoch c.cell, tn := t, n := n, nextN := 0,
                        frozen := decide (t + eplen s + n < s.now + 64), switchOk := false,
                        lt := zero 32, ap := n :: zero 15, nh := n :: zero 15 },
    ports := s.ports.map fun (p : Port) => { p with schState := 1, desync := 0 } }

/-- The epoch lies between LEPOCH and CEPOCH of a leap notice that this adapter has seen (R196). -/
def inNotice (s : State) (n : Epoch) : Bool :=
  s.sch.seen.any fun c =>
    ctypeOf c == 4 && decide ((n - cellEpoch c).toNat ≤ (c.extractLsb' 80 48 - cellEpoch c).toNat)

/-- A link enters DESYNC (R196). -/
def enterDesync (s : State) (q : Nat) (n : Epoch) : State :=
  presentFault (s.modPort q fun p => { p with schState := 2, desync := 0 }) 5 n

/-- A live beacon at a joined adapter is checked (R194, R196, R202). -/
def checkBeacon (s : State) (q : Nat) (c : CtrlIn) : State :=
  let b := c.cell
  let n := cellEpoch b
  let p := s.port q
  let off := impliedStart s q c - startOf s n
  let tol : Int := if Config.isReach q then 4 else 0
  let leadOk := (b.extractLsb' 104 4).toNat == leadOf s
  let lenOk := (b.extractLsb' 112 13).toNat == eplen s
  let timeOk := decide (-tol ≤ off) && decide (off ≤ tol)
    && decide (-16 < epochDist s n) && decide (epochDist s n ≤ 1)
  let calid := (b.extractLsb' 88 16).toNat
  let calOk := calid == 0 || p.cal.isEmpty || calid == p.calId
  if timeOk && (b.extractLsb' 80 8).toNat == leapsOf s n && leadOk && lenOk then
    if calOk then s.modPort q fun p => { p with desync := 0, schState := if p.schState = 3 then 1 else p.schState }
    else
      (s.modPort q fun p => { p with desync := 0, schState := if p.schState = 2 then 2 else 3 }).pbump 0x6001 q 0x0C 1
  else
    let s := s.pbump 0x6001 q 0x0C 1
    let s := if leadOk then s else domainFault s 3 n
    let s := if lenOk then s else domainFault s 4 n
    if inNotice s n then s
    else if 3 ≤ p.desync ∧ p.schState ≠ 2 then enterDesync s q n
    else s.modPort q fun p => { p with desync := p.desync + 1 }

/-- BEACON: only a live one is used (R194, R195). -/
def takeBeacon (s : State) (q : Nat) : State :=
  takeCtrl s q 2 fun s c =>
    if !c.live then s
    else if s.sch.joined then checkBeacon s q c
    else joinFrom s c (impliedStart s q c)

/-- BEACON (R194). -/
def execBeacon (q : PortId) (s : State) : Host.Outcome State Fault Refusal :=
  onPort s q (takeBeacon s (logical s q))

/-- The port's leap, tempo and notice cells are used: joined, and the port not in DESYNC (R196). -/
def usesLeaps (s : State) (q : Nat) : Bool := s.sch.joined && (s.port q).schState != 2

/-- A LEAP_REQ or TEMPO cell (R199). -/
def takeLeap (s : State) (q ctype : Nat) : State :=
  takeCtrl s q ctype fun s c => if usesLeaps s q then merge s c.cell (some q) else s

/-- LEAP_REQ (R199). -/
def execLeapReq (q : PortId) (s : State) : Host.Outcome State Fault Refusal :=
  onPort s q (takeLeap s (logical s q) 3)

/-- TEMPO (R199). -/
def execTempo (q : PortId) (s : State) : Host.Outcome State Fault Refusal :=
  onPort s q (takeLeap s (logical s q) 5)

/-- LEAP_NOTICE (R202): taken from any domain link that is not in DESYNC, by an adapter that has not joined too. -/
def execLeapNotice (q : PortId) (s : State) : Host.Outcome State Fault Refusal :=
  let l := logical s q
  onPort s q
    (takeCtrl s l 4 fun s c =>
      if (s.port l).schState != 2 then newNotice s c.cell (some l) 1 (cellEpoch c.cell) else s)

/-- DFAULT (R202). -/
def execDfault (q : PortId) (s : State) : Host.Outcome State Fault Refusal :=
  let l := logical s q
  onPort s q
    (takeCtrl s l 6 fun s c => newNotice s c.cell (some l) (c.cell.extractLsb' 8 4).toNat (cellEpoch c.cell))

/-! ### Joining and leaving (R195, R196, R446) -/

/-- A write of 1 to `sch_domain_enable`: the root starts at epoch 0 in the next cc, the others wait for a beacon. -/
def domainEnable (s : State) : State :=
  if domainOn s then s
  else
    let s := s.put 0x6F00 0x01 0 1
    let s := { s with ports := s.ports.map fun (p : Port) => { p with schState := 1, desync := 0 } }
    if s.get 0x6F00 0x02 0 = 1 then
      let s := s.modSch fun h => ({ joined := true, tn := s.now + 1, seen := h.seen } : Sched)
      (liveLinks s).foldl (fun s q => sendCtrl s q (beaconCell s q)) s
    else s.modSch fun h => { h with joined := false, frozen := false, switchOk := false, nextN := 0 }

/-- Every assigned payload is refused with REASON 5 (R196, R446). -/
def refuseAssigned (s : State) : State :=
  (List.range 10).foldl (fun s q => (s.port q).assigned.foldl (fun s a => unassign s q a 5) s) s

/-- The hold buffer of a port is released (R446). -/
def releaseAll (s : State) (q : Nat) : State :=
  let hs := (s.port q).hold
  let s := s.modPort q fun p => { p with hold := [] }
  hs.foldl
    (fun s h =>
      if calKind h.row = 1 then deliverRx s q h.slot h.row h.epoch true h.rpld 2 0 (s.now + 1) h.cells
      else s.pbump 0x6001 q 0x09 1)
    s

/-- A write of 0 to `sch_domain_enable` (R446). -/
def domainDisable (s : State) : State :=
  if !domainOn s then s
  else
    let s := (List.range 10).foldl releaseAll (refuseAssigned (dropSwitch s))
    let s := s.put 0x6F00 0x01 0 0
    { s with
      sch := { epoch := s.sch.epoch, seen := s.sch.seen },
      ports := s.ports.map fun (p : Port) =>
        { p with schState := 1, desync := 0, ctrlOut := p.ctrlOut.filter fun c => !isSchCell c } }

/-- A write of 1 to `sch_rejoin` (R196). -/
def rejoin (s : State) : State :=
  if !domainOn s then s
  else
    let s := refuseAssigned (dropSwitch s)
    { s with sch := { s.sch with joined := false, frozen := false, switchOk := false, nextN := 0 },
             ports := s.ports.map fun (p : Port) => { p with desync := 0 } }

/-- A write of K to `sch_leap_request` (R198). -/
def leapRequest (s : State) (k : Nat) : State := originate s 3 0 k

/-- The epoch is not later than the current epoch + 1 (R177). -/
def switchTooEarly (s : State) (n : Epoch) : Bool := decide (epochDist s n ≤ 1)

/-- A write of `sch_switch_epoch` arms the switch (R177). -/
def armSwitch (s : State) (n : Epoch) : State :=
  if switchTooEarly s n then s else (s.put 0x6F00 0x0B 0 n.toNat).put 0x6F00 0x0C 0 1

end Sys2Proof.Machine
end

