-- ==== Sys2Proof/Machine/Sem.lean ====
section
/-!
DEFINITION. The semaphore unit of a home adapter (R232–R236), and how a synchronisation request reaches it (R219).
-/

namespace Sys2Proof.Machine
open Sys2Proof

/-- Later transactions of the own die wait behind this one (R237, R239): an earlier one of its tenancy that it must
follow has not completed. -/
def heldBack (s : State) (w : Waiting) : Bool :=
  match s.ord.find? (·.seq == w.seq) with
  | none => false
  | some me => s.ord.any fun r =>
      decide (r.seq < w.seq) && r.ten == me.ten && (me.fen || (me.key.isSome && r.key == me.key))

/-- Route a request of the own die that is not served here: it waits at step 9 of R219. -/
def routeOut (s : State) (pl : Place) (w : Waiting) (g : Gpa) (ports : List Nat) : State :=
  putAt s pl { w with step := 9, gpa := g, route := ports }

/-- ARG of a synchronisation request. -/
def syncArg (t : Txn) : Nat := match t.head with | .sync _ _ _ arg => arg.toNat | _ => 0
/-- SID of a synchronisation request. -/
def syncSid (t : Txn) : Nat := match t.head with | .sync _ _ sid _ => sid.toNat | _ => 0

/-- A request at the semaphore unit: a request of the own die keeps its acceptance number, others are answered over
the link. -/
structure SemReq where
  txn : Txn
  local_ : Option Nat
deriving DecidableEq, Repr

/-- Complete a synchronisation request. -/
def semReply (s : State) (r : SemReq) (status : BitVec 8) (rval : Nat) : State :=
  match r.local_ with
  | some seq => answerSource s { txn := r.txn, seq := seq } status (BitVec.ofNat 32 rval) []
  | none => answerRemote s r.txn status (BitVec.ofNat 32 rval) []

/-- Store the semaphore of a SID. -/
def setSem (s : State) (sid : Nat) (m : Sem) : State := { s with sems := mset s.sems sid m }

/-- A waiter as a request. -/
def Waiter.req (w : Waiter) : SemReq := ⟨w.txn, w.local_⟩

/-- Complete waiters one after the other with a status and value. -/
def replyAll (s : State) (ws : List Waiter) (status : BitVec 8) (rval : Nat) : State :=
  ws.foldl (fun s w => semReply s w.req status rval) s

/-- Queue a request that must wait, or WAIT_FULL when no waiter entry is free (R234). -/
def joinFifo (s : State) (sid : Nat) (m : Sem) (r : SemReq) (count : Nat) : State :=
  if waitersUsed s < 2 * s.elab_.semHome then
    setSem s sid { m with fifo := m.fifo ++ [{ txn := r.txn, local_ := r.local_, count := count }] }
  else semReply s r 0x06 0

/-- Grant waiters from the head of the FIFO while VALUE covers their counts (R234): the semaphore after it, and each
granted waiter with VALUE after its grant. -/
def grantFifo : List Waiter → Nat → List (Waiter × Nat) × List Waiter × Nat
  | [], v => ([], [], v)
  | w :: ws, v =>
    if w.count ≤ v then
      let (gs, rest, v') := grantFifo ws (v - w.count)
      ((w, v - w.count) :: gs, rest, v')
    else ([], w :: ws, v)

/-- The tenancy checks of R236 that come before the table of R233, for the operations that may wait. -/
def semTenancy (s : State) (t : Txn) (m : Option Sem) : Option (BitVec 8) :=
  if quiesced s t.ten then some 0x04
  else match m with
    | some x => if x.owner ≠ t.ten ∧ quiesced s x.owner then some 0x03 else none
    | none => none

/-- SEM_INIT and BAR_INIT (R233): `m` is the new semaphore or barrier. -/
def doInit (s : State) (r : SemReq) (m : Sem) : State :=
  let sid := syncSid r.txn
  match mget s.sems sid with
  | none => semReply (setSem s sid m) r 0 m.value
  | some x =>
    if x.owner ≠ r.txn.ten then semReply s r 0x08 0
    else if !x.fifo.isEmpty then semReply s r 0x14 0
    else semReply (setSem s sid m) r 0 m.value

/-- SEM_SIGNAL (R233, R234). -/
def doSignal (s : State) (r : SemReq) : State :=
  let sid := syncSid r.txn
  match mget s.sems sid with
  | none => semReply s r 0x13 0
  | some m =>
    if m.barrier then semReply s r 0x14 0
    else if 0xFFFFFFFF < m.value + syncArg r.txn then semReply s r 0x07 m.value
    else
      let (granted, rest, v) := grantFifo m.fifo (m.value + syncArg r.txn)
      let s := setSem s sid { m with value := v, fifo := rest }
      let s := granted.foldl (fun s g => semReply s g.1.req 0 g.2) s
      semReply s r 0 v

/-- SEM_WAIT, and SEM_TRY, which never waits (R233, R234). -/
def doWait (s : State) (r : SemReq) (mayWait : Bool) : State :=
  let sid := syncSid r.txn
  match semTenancy s r.txn (mget s.sems sid), mget s.sems sid with
  | some st, _ => semReply s r st 0
  | none, none => semReply s r 0x13 0
  | none, some m =>
    if m.barrier then semReply s r 0x14 0
    else if m.fifo.isEmpty ∧ syncArg r.txn ≤ m.value then
      semReply (setSem s sid { m with value := m.value - syncArg r.txn }) r 0 (m.value - syncArg r.txn)
    else if mayWait then joinFifo s sid m r (syncArg r.txn)
    else semReply s r 0x02 m.value

/-- SEM_READ (R233). -/
def doRead (s : State) (r : SemReq) : State :=
  match mget s.sems (syncSid r.txn) with
  | none => semReply s r 0x13 0
  | some m => semReply s r 0 m.value

/-- BAR_ARRIVE (R233, R234). -/
def doArrive (s : State) (r : SemReq) : State :=
  let sid := syncSid r.txn
  match semTenancy s r.txn (mget s.sems sid), mget s.sems sid with
  | some st, _ => semReply s r st 0
  | none, none => semReply s r 0x13 0
  | none, some m =>
    if !m.barrier then semReply s r 0x14 0
    else if m.arrived + 1 = m.expected then
      let s := setSem s sid { m with arrived := 0, bgen := m.bgen + 1, fifo := [] }
      semReply (replyAll s m.fifo 0 m.bgen.toNat) r 0 m.bgen.toNat
    else if waitersUsed s < 2 * s.elab_.semHome then joinFifo s sid { m with arrived := m.arrived + 1 } r 0
    else semReply s r 0x06 0

/-- SEM_FREE (R233). -/
def doFree (s : State) (r : SemReq) : State :=
  let sid := syncSid r.txn
  match mget s.sems sid with
  | none => semReply s r 0x13 0
  | some m =>
    if m.owner ≠ r.txn.ten then semReply s r 0x08 0
    else semReply (replyAll { s with sems := mdel s.sems sid } m.fifo 0x13 0) r 0 0

/-- A synchronisation request of the own package that strayed here: its SID lies in a range whose home is another die, and no
route leads there but back to the port it came from (R233, log entry 28). -/
def strayed (s : State) (pl : Place) (t : Txn) : Bool :=
  match t.head with
  | .sync _ dpkg sid _ =>
    routeSelf (pkgRoute s dpkg.toNat) && (semDie s sid.toNat).isSome
      && (match destOf s t with
          | .self => false
          | .bad _ => true
          | .via ports => ports.all fun p => logical s p == logical s (placePort pl))
  | _ => false

/-- How a synchronisation request reaches the unit (R219): from the own die through its steps, from a link when it is
homed here. `zero` says that a zero ARG makes it a NOOP. -/
def serveSync (s : State) (pl : Place) (w : Waiting) (zero : Bool) (f : State → SemReq → State) : State :=
  let nothing := zero && syncArg w.txn == 0
  if placeIsIfi pl then
    if quiesced s w.txn.ten then answerAt s pl w 0x04 0 []
    else if nothing then answerAt s pl w 0x01 0 []
    else if heldBack s w then putAt s pl { w with step := 6 }
    else match destOf s w.txn with
      | .self => f (takeAt s pl) ⟨w.txn, some w.seq⟩
      | .via ports => routeOut s pl w 0 ports
      | .bad st => answerAt s pl w st 0 []
  else if strayed s pl w.txn then answerAt s pl w 0x13 0 []
  else
    targetOr s pl w fun s => if nothing then answerAt s pl w 0x01 0 [] else f (takeAt s pl) ⟨w.txn, none⟩

/-- SEM_INIT (R233). -/
def execSemInit (pl : Place) (s : State) : Host.Outcome State Fault Refusal :=
  serveAt s pl 0x30 fun s w => serveSync s pl w false fun s r =>
    doInit s r { barrier := false, value := syncArg r.txn, owner := r.txn.ten }

/-- SEM_SIGNAL (R233). -/
def execSemSignal (pl : Place) (s : State) : Host.Outcome State Fault Refusal :=
  serveAt s pl 0x31 fun s w => serveSync s pl w true doSignal

/-- SEM_WAIT (R233). -/
def execSemWait (pl : Place) (s : State) : Host.Outcome State Fault Refusal :=
  serveAt s pl 0x32 fun s w => serveSync s pl w true fun s r => doWait s r true

/-- SEM_TRY (R233). -/
def execSemTry (pl : Place) (s : State) : Host.Outcome State Fault Refusal :=
  serveAt s pl 0x33 fun s w => serveSync s pl w true fun s r => doWait s r false

/-- SEM_READ (R233). -/
def execSemRead (pl : Place) (s : State) : Host.Outcome State Fault Refusal :=
  serveAt s pl 0x34 fun s w => serveSync s pl w false doRead

/-- BAR_INIT (R233). -/
def execBarInit (pl : Place) (s : State) : Host.Outcome State Fault Refusal :=
  serveAt s pl 0x35 fun s w => serveSync s pl w true fun s r =>
    doInit s r { barrier := true, owner := r.txn.ten, expected := syncArg r.txn }

/-- BAR_ARRIVE (R233). -/
def execBarArrive (pl : Place) (s : State) : Host.Outcome State Fault Refusal :=
  serveAt s pl 0x36 fun s w => serveSync s pl w false doArrive

/-- SEM_FREE (R233). -/
def execSemFree (pl : Place) (s : State) : Host.Outcome State Fault Refusal :=
  serveAt s pl 0x37 fun s w => serveSync s pl w false doFree

/-! ### QUIESCE at the semaphores (R236) -/

/-- The status with which a waiter leaves when a tenancy becomes quiesced: its own TEN first, then the OWNER's. -/
def quiesceStatus (t : Ten) (m : Sem) (w : Waiter) : Option (BitVec 8) :=
  if w.txn.ten = t then some 0x04 else if m.owner = t then some 0x03 else none

/-- The waiters that leave one semaphore in the cc of QUIESCE; a barrier counts them out of ARRIVED. -/
def quiesceSem (t : Ten) (s : State) (x : Nat × Sem) : State :=
  let m := x.2
  let goes (w : Waiter) : Bool := (quiesceStatus t m w).isSome
  let n := (m.fifo.filter goes).length
  let s := setSem s x.1 { m with fifo := m.fifo.filter fun w => !goes w,
                                 arrived := if m.barrier then m.arrived - n else m.arrived }
  (m.fifo.filter goes).foldl (fun s w => semReply s w.req ((quiesceStatus t m w).getD 0) 0) s

/-- Every semaphore homed here in the cc in which QUIESCE(t) is accepted (R236). -/
def quiesceSems (s : State) (t : Ten) : State := s.sems.foldl (quiesceSem t) s

end Sys2Proof.Machine
end

