-- ==== Sys2Proof/Machine/TxnServe.lean ====
section
/-!
DEFINITION. Memory requests, fences, messages and completions: the steps of R219 at the source, service at the target
(R218, R223, R230), forwarding, and the end of a request at its requester (R226).
-/

namespace Sys2Proof.Machine
open Sys2Proof

/-! ### Memory requests (R215–R219, R222, R223) -/

/-- Steps 3 and 4 of R219 for a memory request: NOOP for a zero length or mask, BAD_ARG for an argument that breaks
R215 or R217. -/
def memStatus (t : Txn) : Option (BitVec 8) :=
  let off := gpaOff t.gpa % 128
  if t.len = 0 ∨ (t.opc = 0x03 ∧ t.data.getD 0 0 = 0) then some 0x01
  else if isAtomic t.opc then
    if off % 8 = 0 ∧ t.len = 8 ∧ !t.ca ∧ (t.opc = 0x15 ∨ (t.data.getD 0 0).extractLsb' 64 64 = 0) then none else some 0x14
  else if t.opc = 0x03 then (if off = 0 ∧ t.len = 128 then none else some 0x14)
  else if off + t.len ≤ 128 then none else some 0x14

/-- A CA = 1 request goes to the RLC, unless it is an RD that misses under NOALLOC (R241, R244, R245). -/
def useRlc (s : State) (t : Txn) (g : Gpa) : Bool :=
  let la := lineOf g
  !(waysEnabled s).isEmpty
    && !(t.opc == 0x01 && policyOf s la == 2 && (rlcLine s la).isNone && !outstanding s la
          && !s.rlc.victims.any fun v => v.la == la)

/-- The memory request with another address. -/
def withGpa (t : Txn) (g : Gpa) : Txn :=
  { t with head := match t.head with | .mem fen ca len _ => .mem fen ca len g | h => h }

/-- A memory request of the own die (R219, steps 2 to 9). -/
def memSource (s : State) (pl : Place) (w : Waiting) : State :=
  let t := w.txn
  let g := rewrite s t.gpa
  if quiesced s t.ten then answerAt s pl w 0x04 0 []
  else match memStatus t with
    | some st => answerAt s pl w st 0 []
    | none =>
      if heldBack s w then putAt s pl { w with step := 6, gpa := g }
      else match destOf s (withGpa t g) with
        | .bad st => answerAt s pl w st 0 []
        | .self => answerAt s pl w 0x14 0 []
        | .via ports =>
          if !t.ca || (waysEnabled s).isEmpty then routeOut s pl w g ports
          else if behindLine s pl w (lineOf g) then putAt s pl { w with step := 8, gpa := g }
          else if useRlc s t g then rlcServe s pl w g
          else routeOut (keyLine s w.seq (lineOf g)) pl w g ports

/-- The hub serves this admitted request through its own RLC (R357): the rule that matches says so, or the request
already waits for the RLC. -/
def proxyCa (s : State) (pl : Place) (w : Waiting) : Bool :=
  match pl with
  | .rx q _ =>
    (w.txn.opc == 0x01 || w.txn.opc == 0x02 || w.txn.opc == 0x03) && isFwPort s q
      && (w.step == 8 || (match fwRule s q w.txn with | some (_, r) => bitAt r 3 | none => false))
  | _ => false

/-- A memory request that came over a link (R219, R223, R357). -/
def memTarget (s : State) (pl : Place) (w : Waiting) : State :=
  let t := w.txn
  let here (s : State) : State :=
    if absentHit s t.gpa t.len then answerAt s pl w 0x11 0 []
    else if egressRoom s .inb t.size then presentInb (takeAt s pl) t else s
  match destOf s t with
  | .self => here s
  | .bad st => answerAt s pl w st 0 []
  | .via ports =>
    if proxyCa s pl w && !(waysEnabled s).isEmpty then
      match memStatus t with
      | some st => answerAt s pl w st 0 []
      | none =>
        if behindLine s pl w (lineOf t.gpa) then putAt s pl { w with step := 8 }
        else if useRlc s t t.gpa then rlcServe s pl w t.gpa
        else forwardAt s pl w ports
    else forwardAt s pl w ports

/-- A memory request at its place. -/
def serveMem (s : State) (pl : Place) (w : Waiting) : State :=
  if placeIsIfi pl then memSource s pl w else memTarget s pl w

/-- RD (R215). -/
def execRd (pl : Place) (s : State) : Host.Outcome State Fault Refusal :=
  serveAt s pl 0x01 fun s w => serveMem s pl w

/-- WR (R215). -/
def execWr (pl : Place) (s : State) : Host.Outcome State Fault Refusal :=
  serveAt s pl 0x02 fun s w => serveMem s pl w

/-- WRP (R215). -/
def execWrp (pl : Place) (s : State) : Host.Outcome State Fault Refusal :=
  serveAt s pl 0x03 fun s w => serveMem s pl w

/-- AADD (R217). -/
def execAadd (pl : Place) (s : State) : Host.Outcome State Fault Refusal :=
  serveAt s pl 0x10 fun s w => serveMem s pl w

/-- AAND (R217). -/
def execAand (pl : Place) (s : State) : Host.Outcome State Fault Refusal :=
  serveAt s pl 0x11 fun s w => serveMem s pl w

/-- AOR (R217). -/
def execAor (pl : Place) (s : State) : Host.Outcome State Fault Refusal :=
  serveAt s pl 0x12 fun s w => serveMem s pl w

/-- AXOR (R217). -/
def execAxor (pl : Place) (s : State) : Host.Outcome State Fault Refusal :=
  serveAt s pl 0x13 fun s w => serveMem s pl w

/-- ASWAP (R217). -/
def execAswap (pl : Place) (s : State) : Host.Outcome State Fault Refusal :=
  serveAt s pl 0x14 fun s w => serveMem s pl w

/-- ACAS (R217). -/
def execAcas (pl : Place) (s : State) : Host.Outcome State Fault Refusal :=
  serveAt s pl 0x15 fun s w => serveMem s pl w

/-- AMAX (R217). -/
def execAmax (pl : Place) (s : State) : Host.Outcome State Fault Refusal :=
  serveAt s pl 0x16 fun s w => serveMem s pl w

/-- AMIN (R217). -/
def execAmin (pl : Place) (s : State) : Host.Outcome State Fault Refusal :=
  serveAt s pl 0x17 fun s w => serveMem s pl w

/-- AMAXU (R217). -/
def execAmaxu (pl : Place) (s : State) : Host.Outcome State Fault Refusal :=
  serveAt s pl 0x18 fun s w => serveMem s pl w

/-- AMINU (R217). -/
def execAminu (pl : Place) (s : State) : Host.Outcome State Fault Refusal :=
  serveAt s pl 0x19 fun s w => serveMem s pl w

/-- Some earlier transaction of the same tenancy has not completed (R237). -/
def earlierOpen (s : State) (w : Waiting) : Bool :=
  s.ord.any fun r => decide (r.seq < w.seq) && r.ten == w.txn.ten

/-- FENCE (R237); one that comes over a link has an opcode that no link carries and is left to UNKNOWN_OPCODE. -/
def execFence (pl : Place) (s : State) : Host.Outcome State Fault Refusal :=
  serveAt s pl 0x0F fun s w =>
    if !placeIsIfi pl then s
    else if quiesced s w.txn.ten then answerAt s pl w 0x04 0 []
    else if earlierOpen s w then putAt s pl { w with step := 6 }
    else answerAt s pl w 0 0 []

/-! ### Messages (R228–R231, R360) -/

/-- MLEN of a message. -/
def msgLen (t : Txn) : Nat := match t.head with | .msg _ _ mlen _ _ => mlen.toNat | _ => 0

/-- The die's MSG egress covers a message behind the cells that already wait for it (R230). -/
def msgCredit (s : State) (n : Nat) : Bool := decide (egressUsed s .msg + n ≤ s.ecr.getD (egIdx .msg) 0)

/-- A message whose home is the own die's adapter: presented with an identifier of the local pool (R224, R230). -/
def msgHere (s : State) (pl : Place) (w : Waiting) : State :=
  match nextTag s 15 with
  | some tag =>
    if msgCredit s w.txn.size then
      let i : TagInfo := { opc := 0x20, ten := w.txn.ten, rqid := w.txn.rqid, seq := w.seq, use_ := .die }
      let t := { w.txn with tag := BitVec.ofNat 12 tag, sport := 15, spkg := BitVec.ofNat 12 (ownPkg s), sdie := s.die }
      ((takeAt s pl).setTag 15 tag i).toIfi .msg t
    else putAt s pl { w with step := 8 }
  | none => putAt s pl { w with step := 8 }

/-- The proxied TX slot that a message admitted from a firewall port feeds (R359, R360). -/
def proxyTx (s : State) (q : Nat) (t : Txn) : Option Nat :=
  if !s.elab_.firewall then none
  else match t.head with
    | .msg _ _ _ _ qid => (s.rows 0xC001 0x02).find? fun r =>
        bitAt r 17 && !bitAt r 16 && bitsOf r 18 4 == q && bitsOf r 24 8 == t.ten.toNat && bitsOf r 32 20 == qid.toNat
    | _ => none

/-- A message becomes the payload of the next occurrence of its proxied slot (R360). -/
def feedProxy (s : State) (pl : Place) (w : Waiting) (r : Nat) : State :=
  let q := bitsOf r 0 4
  let slot : SlotId := BitVec.ofNat 12 (bitsOf r 4 12)
  if msgLen w.txn ≠ 240 then answerAt s pl w 0x14 0 []
  else
    let (n, row) := nextOccurrence s q slot (s.now + 1)
    match row with
    | some c =>
      if calKind c ≠ 0 ∨ !calProxy c ∨ !s.sch.joined then answerAt s pl w 0x12 0 []
      else if (assignedTo s q slot n).isSome then answerAt s pl w 0x05 0 []
      else
        let a : Assigned := { slot := slot, epoch := n, ten := w.txn.ten, cells := w.txn.data }
        (answerAt s pl w 0 0 []).modPort q fun p => { p with assigned := p.assigned ++ [a] }
    | none => answerAt s pl w 0x12 0 []

/-- The proxied slot that takes a message at its place. -/
def proxyOf (s : State) (pl : Place) (w : Waiting) : Option Nat :=
  match pl with
  | .rx q _ => if isFwPort s q then proxyTx s q w.txn else none
  | _ => none

/-- A message at its place. -/
def serveMsg (s : State) (pl : Place) (w : Waiting) : State :=
  if placeIsIfi pl then
    if quiesced s w.txn.ten then answerAt s pl w 0x04 0 []
    else if msgLen w.txn = 0 then answerAt s pl w 0x01 0 []
    else if 240 < msgLen w.txn then answerAt s pl w 0x14 0 []
    else if heldBack s w then putAt s pl { w with step := 6 }
    else match destOf s w.txn with
      | .self => msgHere s pl w
      | .via ports => routeOut s pl w 0 ports
      | .bad st => answerAt s pl w st 0 []
  else match proxyOf s pl w with
    | some r => feedProxy s pl w r
    | none =>
      targetOr s pl w fun s => if msgCredit s w.txn.size then (takeAt s pl).toIfi .msg w.txn else s

/-- MSG (R230). -/
def execMsg (pl : Place) (s : State) : Host.Outcome State Fault Refusal :=
  serveAt s pl 0x20 fun s w => serveMsg s pl w

/-- A completion with another status and no data (R212). -/
def withStatus (t : Txn) (st : BitVec 8) : Txn :=
  { t with opc := 0x80, head := .cpl st 0 t.ropc 0, data := [] }

/-- MSGC (R231): the home die's answer goes on as CPL, with its status or TARGET_ERROR. -/
def execMsgc (pl : Place) (s : State) : Host.Outcome State Fault Refusal :=
  serveAt s pl 0x21 fun s w =>
    if !placeIsIfi pl then s
    else
      let st := w.txn.status
      let good := st == 0 || st == 0x05 || st == 0x12
      let s := if good then s else s.bump 0x7001 0x05 1
      let st := if good then st else 0x18
      carryAt (s.countStatus st) pl w (withStatus w.txn st)

/-! ### Completions (R218, R226) -/

/-- The request on INB that a CPL on INR answers: bits [59:16] are copied (R218). -/
def inrMatch (t x : Txn) : Bool :=
  x.ten == t.ten && x.tag == t.tag && x.sport == t.sport && x.spkg == t.spkg && x.sdie == t.sdie && isMem x.opc

/-- LEN that an answer OK must have (R216–R218). -/
def answerLen (x : Txn) : Nat := if x.opc = 0x01 then x.len else if isAtomic x.opc then 8 else 0

/-- The answer of the target die in its final form, and whether it broke the rule (R218). -/
def inrCpl (x t : Txn) : Txn × Bool :=
  if t.status = 0 ∧ t.len = answerLen x ∧ t.ropc = x.opc then (mkCpl x 0 0 (cellsToBytes t.len t.data), false)
  else (mkCpl x 0x18 0 [], t.status != 0x18)

/-- INR_CPL (R218): the answer of the target die, converted where it breaks the rule, goes back to the requester. It waits for
its port in the INR buffer (R152). An answer to nothing is discarded and counted. -/
def inrAnswer (s : State) (k : Nat) (w : Waiting) : State :=
  let pl : Place := .ifi .inr k
  match findIdx (inrMatch w.txn) s.inbOut with
  | none => (takeAt s pl).bump 0x7001 0x05 1
  | some i =>
    match s.inbOut[i]? with
    | none => takeAt s pl
    | some x =>
      let s := { s with inbOut := dropAt i s.inbOut }
      let c := inrCpl x w.txn
      let s := if c.2 then s.bump 0x7001 0x05 1 else s
      carryAt (s.countStatus c.1.status) pl w c.1

/-- INR_CPL (R218). -/
def execInrCpl (k : Nat) (s : State) : Host.Outcome State Fault Refusal :=
  match atPlace s (.ifi .inr k) with
  | some w => .next (if w.txn.opc = 0x80 ∧ w.step = 0 then inrAnswer s k w else s)
  | none => .next s

/-- The use of a TAG that a CPL names, when all of R226 holds. A TAG whose completion has come already expects none. -/
def cplUse (s : State) (t : Txn) : Option TagInfo :=
  let q := t.sport.toNat
  if !s.elab_.portBuilt q ∧ q ≠ 15 then none
  else (mget (tagsOf s q) t.tag.toNat).filter fun i => i.opc == t.ropc && i.ten == t.ten && !i.done

/-- A message of a proxied RX slot has completed (R360). -/
def proxyDone (s : State) (row : Nat) (st : BitVec 8) : State :=
  let s := { s with fw := { s.fw with proxyRx := mset s.fw.proxyRx row (mgetD s.fw.proxyRx row 0 - 1) } }
  if st = 0 then s else s.bump 0xC002 0x03 1

/-- A TAG has its completion, and is free once that is presented (R225). -/
def State.markDone (s : State) (q t : Nat) (i : TagInfo) : State :=
  if q = 15 then { s with localTags := mset s.localTags t { i with done := true } }
  else s.modPort q fun p => { p with tags := mset p.tags t { i with done := true } }

/-- The die's completion finds room in its egress buffer; any other completion needs none (R36). -/
def cplRoom (s : State) (t : Txn) : Bool :=
  match cplUse s t with
  | some i => i.use_ != .die || egressRoom s (cplChannel i.opc) t.size
  | none => true

/-- A completion at its requester (R226). -/
def cplArrives (s : State) (t : Txn) : State :=
  let q := t.sport.toNat
  let tag := t.tag.toNat
  match cplUse s t with
  | none => s.bump 0x7001 0x01 1
  | some i =>
    match i.use_ with
    | .die => (presentCpl (s.markDone q tag i) i.opc i.rqid t (some (q, tag))).finish i.seq
    | .rlc la => refuseMiss s la t.status
    | .victim la => freeVictim (s.freeTagAt q tag) la
    | .proxy row => proxyDone (s.freeTagAt q tag) row t.status

/-- CPL (R226). -/
def execCpl (pl : Place) (s : State) : Host.Outcome State Fault Refusal :=
  serveAt s pl 0x80 fun s w =>
    if placeIsIfi pl then s
    else targetOr s pl w fun s => if cplRoom s w.txn then cplArrives (takeAt s pl) w.txn else s

/-! ### Hand-over, illegal opcodes, the own package (R444, R214, R220) -/

/-- LOCAL_HANDOVER (R444): the `k`-th transaction for this die enters the own receive path. -/
def execLocalHandover (k : Nat) (s : State) : Host.Outcome State Fault Refusal :=
  .next (match atPlace s (.own k) with
    | some w => if w.step = 13 then putAt s (.own k) { w with step := 0 } else s
    | none => s)

/-- A transaction with an illegal opcode (R214): BAD_ARG to the own die, UNSUPPORTED_AT_PARTNER over a link. One on
another IFI channel has no requester to complete to. It gets no admission check, whatever its TEN (log entry 130). -/
def refuseOpcode (s : State) (pl : Place) (w : Waiting) : State :=
  let s := s.bump 0x7001 0x04 1
  match pl with
  | .ifi .req _ => answerAt s pl w 0x14 0 []
  | .ifi .msg _ => answerAt s pl w 0x14 0 []
  | .ifi _ _ => takeAt s pl
  | _ => answerAt s pl w 0x15 0 []

/-- UNKNOWN_OPCODE (R214). Over a firewall port the firewall decides first (R353). -/
def execUnknownOpcode (pl : Place) (s : State) : Host.Outcome State Fault Refusal :=
  match atPlace s pl with
  | none => .next s
  | some w =>
    if legalAt pl w.txn.opc ∨ w.step = 9 ∨ w.step = 10 ∨ w.step = 13 then .next s
    else match pl with
      | .rx q k => if isFwPort s q then .next (atFirewall s pl q k w fun s w => refuseOpcode s pl w)
                   else .next (refuseOpcode s pl w)
      | _ => .next (refuseOpcode s pl w)

/-- A write of `txn_own_pkg` (R220): SELF moves from the entry at the old value to the entry at the new one. -/
def setOwnPkg (s : State) (pkg : Nat) : State :=
  let old := ownPkg s
  let s := match mget s.tabs (ekey 0x7000 0x03) with
    | some rs =>
      let clear := setAt old (rs.getD old 0 % 2 ^ 16) rs
      { s with tabs := mset s.tabs (ekey 0x7000 0x03) (setAt pkg (clear.getD pkg 0 % 2 ^ 16 + 2 ^ 16) clear) }
    | none => s
  s.put 0x7000 0x01 0 pkg

end Sys2Proof.Machine
end

