-- ==== Sys2Proof/Machine/Repair.lean ====
section
/-!
DEFINITION. Field repair of SRAM rows (R331, R332) and the containment of an uncorrectable error in a word that is
read before its row is repaired (R333).
-/

namespace Sys2Proof.Machine
open Sys2Proof

/-! ### Field repair (R331, R332) -/

/-- The structure codes of R332. -/
def structCode : Structure → Nat
  | .replay => 1 | .receive => 2 | .hold => 3 | .rlc => 4 | .filter => 5 | .calendar => 6 | .staging => 7

/-- Spare rows of a structure, per way for the RLC (R332). -/
def spareRows : Structure → Nat
  | .hold => 4 | .rlc => 4 | .calendar => 4 | _ => 8

/-- The unit of a structure exists: a built port, a way of a built RLC, or the one store of the instance. -/
def unitExists (s : State) (st : Structure) (unit : Nat) : Bool :=
  match st with
  | .replay | .receive | .hold | .calendar => s.elab_.portBuilt unit
  | .rlc => s.elab_.rlcKib != 0 && decide (unit < 16)
  | .filter => unit == 0
  | .staging => unit == 0 && s.elab_.ifr != 0

/-- Ways of the RLC that field repair has left. -/
def rlcWaysLeft (s : State) : Nat := ((List.range 16).filter fun w => !bitAt (waysRemoved s) w).length

/-- Rows that remain of a structure, in the rows of R332 (DETAIL of reason 0x30). -/
def rowsLeft (s : State) (st : Structure) (unit : Nat) : Nat :=
  match st with
  | .replay => replayLimit s unit
  | .receive => rxTotal s unit / 16
  | .hold => holdSize s unit
  | .rlc => s.elab_.rlcSets * rlcWaysLeft s
  | .filter => filterSets s * filterWays s
  | .calendar => calCapacity s unit / 16
  | .staging => stagingTotal s / 16

/-- Raise a count of the repair tables. -/
def raise (m : NMap Nat) (k : Nat) : NMap Nat := mset m k (mgetD m k 0 + 1)

/-- A recall for an entry that has to leave the filter, without a request behind it (R269, R332, R333). -/
def recallOnly (s : State) (region : Bool) (la : LineAddr) (discard : Bool) : State :=
  let t : Txn := { opc := 0x53, ten := 0, tag := 0, sport := 0, spkg := BitVec.ofNat 12 (ownPkg s), sdie := s.die,
                   head := plainCoh la, data := [] }
  { s with home := { s.home with
      track := s.home.track ++ [{ id := s.home.nextId, la := la, kind := .recall, txn := t, recalling := true, rla := la,
                                  region := region, discard := discard }],
      nextId := s.home.nextId + 1 } }

/-- Entries of a set beyond the ways left, the least recently used ones: they are recalled (R332, log entry 39). -/
def overfull (s : State) (set_ : Nat) : List FilterEntry :=
  let es := (s.home.filter.filter fun e => filterSet s e.la == set_).mergeSort fun a b => decide (a.used ≤ b.used)
  es.take (es.length - filterWays s)

/-- Recall what no longer fits after a way of the filter was removed. -/
def trimFilter (s : State) : State :=
  let sets := (s.home.filter.map fun e => filterSet s e.la).dedup
  pump (((sets.map (overfull s)).flatten).foldl (fun s e => recallOnly s e.region e.la false) s)

/-- The effect of one downsizing beyond the count of its banks (R332). -/
def downsizeEffect (s : State) (st : Structure) (unit : Nat) : State :=
  match st with
  | .replay | .hold => s
  | .receive => requestFull s (activeUnit s unit) 6 true
  | .rlc =>
    let s := s.put 0xB200 0x05 0 (waysRemoved s ||| 2 ^ unit)
    oweEvictions s false fun w => w == unit
  | .filter => trimFilter s
  | .calendar =>
    if calCapacity s unit < (s.port unit).cal.length then
      { s with repair := { s.repair with emptyCal := s.repair.emptyCal ++ [unit] } }
    else s
  | .staging => { s with ifr := { s.ifr with removed := s.ifr.removed + 128 } }

/-- No spare row remains: the structure shrinks and a record opens (R331, R332, R337). -/
def downsize (s : State) (st : Structure) (unit : Nat) : State :=
  let k := repairKey (structCode st) unit
  let s := { s with repair := { s.repair with banks := raise s.repair.banks k } }
  let s := downsizeEffect s st unit
  s.service 0x30 6 (structCode st) (if st = .rlc then unit else 0) (rowsLeft s st unit)

/-- A row failed (R331): it goes to the next spare row, or the structure shrinks. -/
def rowFails (s : State) (st : Structure) (unit words : Nat) : State :=
  let k := repairKey (structCode st) unit
  let s := s.bump64 0xB200 0x02 words
  if mgetD s.repair.used k 0 < spareRows st then
    { s with repair := { s.repair with used := raise s.repair.used k } }.bump 0xB200 0x03 1
  else downsize s st unit

/-- SRAM_ROW_FAILED (R331): `words` counts the corrected words. -/
def execSramRowFailed (st : Structure) (unit words : Nat) (s : State) : Host.Outcome State Fault Refusal :=
  if unitExists s st unit then .next (rowFails s st unit words) else .fault .noSuchUnit

/-! ### Uncorrectable errors (R333) -/

/-- Replay buffer: the sibling's copy stands in, or the copy goes out with its CRC inverted. -/
def replayError (s : State) (q i : Nat) : State :=
  let l := logical s q
  let both := match pairOf s q with
    | some k => (roleOf s k (pairA s k)).merged && (roleOf s k (pairB s k)).merged
    | none => false
  if both then s
  else match (s.port l).replay[i]? with
    | none => s
    | some f =>
      (s.modPort l fun p => { p with replayLost := p.replayLost ++ [f.fseq] }).service 0x15 (portUkind q) q 0 f.fseq.toNat

/-- A posted coherence transaction loses its data (R258, R333, log entry 40). -/
def coherenceLost (s : State) (pl : Place) (w : Waiting) : State :=
  let t := w.txn
  let here := destOf s t == .self
  let strip (opc : BitVec 8) (st : BitVec 4) (keep : List Cell) : Txn :=
    { t with opc := opc, head := .coh st false false t.stale false (BitVec.ofNat 4 t.ackcnt) t.la, data := keep }
  let swap (s : State) (x : Txn) : State :=
    match pl with
    | .rx q _ => (putAt s pl { w with txn := x }).creditLink q w.vc (t.size - x.size)
    | _ => putAt s pl { w with txn := x }
  if !t.cdata then takeAt s pl
  else if t.opc = 0x48 ∨ t.opc = 0x5C then
    let s := swap s (strip t.opc t.cst [])
    if here ∧ cohTagOk s t then modMiss s t.la fun m => { m with lost := some true } else s
  else if t.opc = 0x44 then
    let s := if here then lineLost s else s
    swap s (strip 0x45 0 [])
  else if t.opc = 0x58 then swap s (strip 0x58 0 (t.data.take 1))
  else if t.opc = 0x46 ∧ here then
    match busyTrack s .request t with
    | some x => settleTrack (modTrack (lineLost (takeAt s pl)) x.id fun x => { x with dataAck := true }) x.id
    | none => takeAt s pl
  else if t.opc = 0x46 then swap s (strip 0x46 t.cst [])
  else takeAt s pl

/-- Receive cell buffer: a request is completed with TARGET_ERROR, a completion becomes one without data, coherence
data is lost; of another posted transaction nothing goes on. -/
def receiveError (s : State) (q : PortId) (i : Nat) : State :=
  let pl : Place := .rx q i
  match atPlace s pl with
  | none => s
  | some w =>
    let t := w.txn
    if t.opc = 0x80 ∨ t.opc = 0x21 then
      let x := { withStatus t 0x18 with opc := t.opc }
      (putAt s pl { w with txn := x }).creditLink q w.vc (t.size - x.size)
    else if isRed t.opc then takeAt s pl
    else if isPosted t.opc then coherenceLost s pl w
    else answerAt s pl w 0x18 0 []

/-- Hold buffer: the flit is lost, and a VOID with reason 6 takes its place at its deadline, or at once where it has
been handed over (R189, R190). -/
def holdError (s : State) (q i : Nat) : State :=
  let l := logical s q
  match (s.port l).hold[i]? with
  | none => s
  | some h =>
    if h.handed then
      voidFor (s.modPort l fun p => { p with hold := dropAt i p.hold }) h.intended 6 (calTen h.row)
    else s.modPort l fun p => { p with hold := setAt i { h with lost := true } p.hold }

/-- The CA = 1 request of the own die that was reading a line. -/
def readerOf (s : State) (la : LineAddr) : Option Nat :=
  findIdx (fun w : Waiting => isMem w.txn.opc && w.txn.ca && lineOf (rewrite s w.txn.gpa) == la)
    ((s.ingress.filter (·.1 == IngCh.req)).map (·.2))

/-- RLC line: it becomes Invalid. From S or E the request is fetched again; from M or O it ends with TARGET_ERROR. -/
def rlcError (s : State) (la : LineAddr) (waiting : Bool) : State :=
  match rlcLine s la with
  | none => s
  | some l =>
    let s := delLine s la
    let s := if outstanding s la then modMiss s la fun m => { m with lost := some l.st.dirty } else s
    if waiting && l.st.dirty then
      match readerOf s la with
      | some k => match atPlace s (.ifi .req k) with
        | some w => answerAt s (.ifi .req k) w 0x18 0 []
        | none => s
      | none => s
    else s

/-- The dies that a lost filter entry may have recorded: every die with a valid route entry but the own one, and the
foreign holders of the set. -/
def lostTargets (s : State) (set_ : Nat) : List Holder :=
  let dies := (List.range 256).filter fun d => routeValid (dieRoute s d) && !routeSelf (dieRoute s d)
  let own := dies.map fun d => (⟨BitVec.ofNat 12 (ownPkg s), BitVec.ofNat 8 d⟩ : Holder)
  own ++ (unionHolders (s.home.filter.filter fun e => filterSet s e.la == set_)).filter fun h => h.pkg.toNat != ownPkg s

/-- Export filter: one bad copy is covered by the other; with both gone the region is recalled from every die that may
hold it. -/
def filterError (s : State) (la : LineAddr) (bothCopies : Bool) : State :=
  if !bothCopies then s
  else
    let base := regionOf la
    let set_ := filterSet s la
    let hs := lostTargets s set_
    let keep := s.home.filter.filter fun e => regionOf e.la != base
    let e : FilterEntry := { region := true, la := base, owner := none, owned := false, holders := hs, used := s.home.useCtr }
    let s := (s.service 0x31 6 5 0 set_).irq 5
    if hs.isEmpty then setFilter s keep
    else pump (recallOnly (setFilter s (keep ++ [e])) true base false)

/-- Calendar: the occurrence sends nothing, and the calendar is emptied at the next boundary. -/
def calendarError (s : State) (q : Nat) (slot : SlotId) : State :=
  let l := logical s q
  match (s.port l).cal[slot.toNat]? with
  | none => s
  | some r =>
    let s := if calKind r = 0 then
        match assignedTo s l slot s.sch.epoch with
        | some a => unassign s l a 1
        | none => s
      else match handedTo s l slot s.sch.epoch with
        | some (p, h) => s.modPort p fun x => { x with hold := x.hold.filter (· != h) }
        | none => s
    let s := { s with repair := { s.repair with emptyCal := s.repair.emptyCal ++ [l] } }
    s.service 0x32 (portUkind q) q 0 (s.port l).calId

/-- IFR staging slot: the RID is aborted here, with STATUS TARGET_ERROR. -/
def stagingError (s : State) (rid : Rid) : State := abortRid s rid (((ridOf s rid).map (·.ten)).getD 0) 0 0x18

/-- The port or store in which the error was read exists. -/
def siteExists (s : State) : ErrorSite → Bool
  | .replay q _ | .receive q _ | .hold q _ | .calendar q _ => s.elab_.portBuilt q
  | .rlc _ _ => s.elab_.rlcKib != 0
  | .filter _ _ => true
  | .staging _ => s.elab_.ifr != 0

/-- The containment of R333. -/
def contain (s : State) : ErrorSite → State
  | .replay q i => replayError s q i
  | .receive q i => receiveError s q i
  | .hold q i => holdError s q i
  | .rlc la waiting => rlcError s la waiting
  | .filter la both => filterError s la both
  | .calendar q slot => calendarError s q slot
  | .staging rid => stagingError s rid

/-- UNCORRECTABLE_ERROR (R333). -/
def execUncorrectableError (loc : ErrorSite) (s : State) : Host.Outcome State Fault Refusal :=
  if siteExists s loc then .next (contain s loc) else .fault .noSuchUnit

end Sys2Proof.Machine
end

