-- ==== Sys2Proof/Machine/AlmTables.lean ====
section
/-!
DEFINITION. The TABLE entries as they are written: the size of each (R370), the bits a row keeps (R7), the checks of
the owning chapters, and what an installed table changes besides its rows.
-/

namespace Sys2Proof.Machine
open Sys2Proof

/-! ### Sizes and rows -/

/-- Rows of a table of fixed length (R370: a table with "up to N" entries has N). -/
def tableRows (s : State) (base sub : Nat) : Nat :=
  match base, sub with
  | 0x7000, 0x02 => 256
  | 0x7000, 0x03 => 4096
  | 0x7000, 0x04 => 16
  | 0x7000, 0x05 => 64
  | 0x7000, 0x06 => s.elab_.qrange
  | 0x7000, 0x07 => 256
  | 0x8000, _ => 16
  | 0xA000, 0x01 => 6
  | 0xA000, _ => 256
  | 0xB000, _ => 4
  | 0xC001, _ => 256
  | 0xE400, _ => 8
  | _, _ => 0

/-- NENT of a calendar value, from its first bytes (R174). -/
def calNent (first : List Byte) : Nat := bitsOf (ofBytes (first.take 8)) 16 13

/-- Size in bytes of the value that a transfer brings; a calendar's is taken from its first segment (R370). -/
def tableSize (s : State) (base sub : Nat) (first : List Byte) : Nat :=
  if base = 0x6002 then 8 + 8 * min (calNent first) s.elab_.calEntries
  else tableRowBytes base sub * tableRows s base sub

/-- Bits of a firewall range that its KIND uses: none for a rule of every target (R354). -/
def rangeBits (kind : Nat) : Nat := if kind = 0 then 46 else if kind = 1 then 20 else if kind = 2 then 16 else 0

/-- The bits of a row that are not rsvd (R7). -/
def keepRow (base sub r : Nat) : Nat :=
  match base, sub with
  | 0x6002, _ => if calKind r = 3 then r % 2 ^ 39 else r % 2 ^ 22 + field (bitsOf r 38 1) 38 1
  | 0x7000, 0x02 => r % 2 ^ 17
  | 0x7000, 0x03 => r % 2 ^ 17
  | 0x7000, 0x04 => r % 2 ^ 80
  | 0x7000, 0x05 => r % 2 ^ 29
  | 0x7000, 0x06 => r % 2 ^ 49
  | 0x7000, 0x07 => r % 2 ^ 41
  | 0x8000, _ => r % 2 ^ 37 + field (bitsOf r 64 20) 64 20
  | 0xA000, 0x01 => r % 2 ^ 9
  | 0xA000, _ => r % 2 ^ 11 + field (bitsOf r 16 11) 16 11
  | 0xB000, _ => r % 2 ^ 9
  | 0xC001, 0x01 =>
    let n := rangeBits (bitsOf r 4 2)
    r % 2 ^ 6 + field (bitsOf r 8 18) 8 18 + field (bitsOf r 32 9) 32 9 + field (bitsOf r 64 n) 64 n
      + field (bitsOf r 128 n) 128 n + field (bitsOf r 192 32) 192 32
  | 0xC001, _ => r % 2 ^ 22 + field (bitsOf r 24 28) 24 28
  | 0xE400, _ => r % 2 ^ 10 + field (bitsOf r 16 16) 16 16 + field (bitsOf r 128 128) 128 128
  | _, _ => r

/-- The rows in the bytes of a table value; the first row of a calendar is its header. -/
def rowsOf (base sub : Nat) (bytes : List Byte) : List Nat :=
  let rs := (chunk bytes.length (tableRowBytes base sub) bytes).map ofBytes
  match base, rs with
  | 0x6002, h :: t => h % 2 ^ 29 :: t.map (keepRow base sub)
  | _, rs => rs.map (keepRow base sub)

/-! ### Checks of the owning chapters -/

/-- No two intervals (key, start, size) of one key overlap. -/
def noOverlap : List (Nat × Nat × Nat) → Bool
  | [] => true
  | (k, a, n) :: xs =>
    xs.all (fun (k', a', n') => k != k' || decide (a + n ≤ a') || decide (a' + n' ≤ a)) && noOverlap xs

/-- The port codes of a route row name built ports or none (R220). -/
def routeRowOk (s : State) (r : Nat) : Bool :=
  (List.range 4).all fun i =>
    let c := bitsOf r (4 * i) 4
    c == 15 || (decide (c < 10) && s.elab_.portBuilt c)

/-- R222. -/
def windowsOk (s : State) (rows : List Nat) : Bool :=
  let used := rows.filter fun r => bitsOf r 25 18 != 0
  noOverlap (used.map fun r => (bitsOf r 0 8, bitsOf r 8 17, bitsOf r 25 18))
    && used.all fun r =>
      decide (bitsOf r 8 17 + bitsOf r 25 18 ≤ 131072) && decide (bitsOf r 63 17 + bitsOf r 25 18 ≤ 131072)
        && bitsOf r 43 12 != ownPkg s

/-- R223. -/
def absentOk (rows : List Nat) : Bool :=
  let used := rows.filter fun r => bitsOf r 18 11 != 0
  noOverlap (used.map fun r => (bitsOf r 0 8, bitsOf r 8 10, bitsOf r 18 11))
    && used.all fun r => decide (bitsOf r 8 10 + bitsOf r 18 11 ≤ 1024)

/-- R229. -/
def qrangeOk (rows : List Nat) : Bool :=
  let used := rows.filter fun r => bitsOf r 20 21 != 0
  noOverlap (used.map fun r => (0, bitsOf r 0 20, bitsOf r 20 21))
    && used.all fun r => decide (bitsOf r 0 20 + bitsOf r 20 21 ≤ 0x100000)

/-- R232. -/
def sidRangesOk (s : State) (rows : List Nat) : Bool :=
  let used := rows.filter fun r => bitsOf r 16 17 != 0
  noOverlap (used.map fun r => (0, bitsOf r 0 16, bitsOf r 16 17))
    && used.all (fun r => decide (bitsOf r 0 16 + bitsOf r 16 17 ≤ 0x10000))
    && decide (sumNat ((used.filter fun r => routeSelf (dieRoute s (bitsOf r 33 8))).map fun r => bitsOf r 16 17)
        ≤ s.elab_.semHome)

/-- R245: no overlap, and HSIZE in its stated range. -/
def hintsOk (rows : List Nat) : Bool :=
  noOverlap ((rows.filter fun r => bitsOf r 64 18 != 0).map fun r => (0, bitsOf r 0 37, bitsOf r 64 18))
    && rows.all fun r => decide (bitsOf r 64 18 ≤ 131072)

/-- R300. -/
def vcAssignOk (rows : List Nat) : Bool :=
  let used := (rows.filter fun r => bitAt r 8).map fun r => bitsOf r 0 8
  used.all (· != 0) && decide used.Nodup

/-- R301. -/
def partitionsOk (rows : List Nat) : Bool :=
  rows.all (fun r => decide (bitsOf r 0 11 ≤ bitsOf r 16 11) && decide (bitsOf r 16 11 ≤ 1024))
    && decide (sumNat (rows.map fun r => bitsOf r 0 11) ≤ 1024)

/-- R312. -/
def twinPairsOk (s : State) (rows : List Nat) : Bool :=
  let used := rows.filter fun r => bitAt r 8
  let ends (r : Nat) : List Nat := [bitsOf r 0 4, bitsOf r 4 4]
  s.elab_.twin
    && used.all (fun r =>
        (ends r).all (fun q => decide (q < 8) && s.elab_.portBuilt q)
          && s.elab_.units (bitsOf r 0 4) == s.elab_.units (bitsOf r 4 4))
    && decide ((used.map ends).flatten).Nodup

/-- R354. -/
def rulesOk (s : State) (rows : List Nat) : Bool :=
  (rows.filter fun r => bitAt r 0).all fun r =>
    decide (bitsOf r 64 46 ≤ bitsOf r 128 46)
      && (List.range 10).all (fun q => !bitAt r (16 + q) || isFwPort s q)
      && (bitsOf r 192 16 == 0 || decide (16 ≤ bitsOf r 208 16))

/-- R359. -/
def proxyOk (s : State) (rows : List Nat) : Bool :=
  let used := rows.filter fun r => bitAt r 17
  decide (used.map fun r => bitsOf r 0 16).Nodup
    && decide ((used.filter fun r => !bitAt r 16).map fun r => bitsOf r 32 20).Nodup
    && used.all fun r => isFwPort s (bitsOf r 18 4)

/-- R425. -/
def triggersOk (rows : List Nat) : Bool :=
  rows.all fun r => decide (bitsOf r 16 16 ≤ 4095) && bitsOf r 192 64 &&& bitsOf r 128 64 == bitsOf r 192 64

/-- A table passes the RANGE checks of its owning chapter. Calendars are checked by `calCheck`. -/
def tableOk (s : State) (base sub : Nat) (rows : List Nat) : Bool :=
  match base, sub with
  | 0x7000, 0x02 => rows.all (routeRowOk s)
  | 0x7000, 0x03 => rows.all (routeRowOk s)
  | 0x7000, 0x04 => windowsOk s rows
  | 0x7000, 0x05 => absentOk rows
  | 0x7000, 0x06 => qrangeOk rows
  | 0x7000, 0x07 => sidRangesOk s rows
  | 0x8000, _ => hintsOk rows
  | 0xA000, 0x01 => vcAssignOk rows
  | 0xA000, _ => partitionsOk rows
  | 0xB000, _ => twinPairsOk s rows
  | 0xC001, 0x01 => rulesOk s rows
  | 0xC001, _ => proxyOk s rows
  | 0xE400, _ => triggersOk rows
  | _, _ => true

/-- The owning chapter refuses the change of an entry for now: R300, R312. -/
def tableBusy (s : State) (base sub : Nat) (rows : List Nat) : Bool :=
  match base, sub with
  | 0xA000, 0x01 =>
    let old := s.rows 0xA000 0x01
    (List.range 6).any fun i =>
      let a := old.getD i 0
      let b := rows.getD i 0
      let open_ (r : Nat) : Bool := bitAt r 8 && tenState s (bitsOf r 0 8) != 2
      a != b && (open_ a || open_ b || s.ports.any fun (p : Port) => p.uv.getD (10 + i) 0 != 0)
  | 0xB000, _ =>
    let old := s.rows 0xB000 0x01
    (List.range 4).any fun i =>
      let a := old.getD i 0
      let b := rows.getD i 0
      let ends (r : Nat) : List Nat := if bitAt r 8 then [bitsOf r 0 4, bitsOf r 4 4] else []
      a != b && (ends a ++ ends b).any fun q => (s.port q).state != .off
  | _, _ => false

/-! ### Effects -/

/-- The filter entry overlaps an absent range (R223, R269). -/
def entryAbsent (rows : List Nat) (e : FilterEntry) : Bool :=
  let off := gpaOff (lineGpa e.la)
  rows.any fun r =>
    bitsOf r 18 11 != 0 && (laDie e.la).toNat == bitsOf r 0 8 && decide (bitsOf r 8 10 * 2 ^ 28 ≤ off)
      && decide (off < (bitsOf r 8 10 + bitsOf r 18 11) * 2 ^ 28)

/-- Recalls of the filter entries in the ranges that a write of `txn_absent_map` adds (R269). -/
def recallAbsent (s : State) (old new : List Nat) : State :=
  let added := new.filter fun r => !old.contains r
  pump ((s.home.filter.filter (entryAbsent added)).foldl (fun s e => recallOnly s e.region e.la true) s)

/-- Buckets under a new rule table: a rule that stays valid keeps its level, capped; the others start full (R356). -/
def carryBuckets (s : State) (old new : List Nat) : NMap Nat :=
  (List.range 256).foldl
    (fun m i =>
      let a := old.getD i 0
      let b := new.getD i 0
      if bitAt a 0 && bitAt b 0 then
        mset m i (min (mgetD s.fw.bucket i (bitsOf a 208 16 * 1024)) (bitsOf b 208 16 * 1024))
      else m)
    []

/-- A pair whose entry changes starts with both units OUT. -/
def resetPairs (s : State) (old new : List Nat) : State :=
  (List.range 4).foldl
    (fun s k => if old.getD k 0 = new.getD k 0 then s else s.modPair k fun _ => {}) s

/-- What an installed table changes besides its rows. -/
def tableEffect (s : State) (base sub : Nat) (old new : List Nat) : State :=
  match base, sub with
  | 0x7000, 0x05 => recallAbsent s old new
  | 0x8000, _ =>
    { s with rlc := { s.rlc with
        lines := s.rlc.lines.map fun x => (x.1, { x.2 with hint := (hintOf s (BitVec.ofNat 51 x.1)).map (·.1) }) } }
  | 0xB000, _ => resetPairs s old new
  | 0xC001, 0x01 => { s with fw := { s.fw with bucket := carryBuckets s old new } }
  | _, _ => s

/-- Store the rows of a table. -/
def putRows (s : State) (idx sub : Nat) (rows : List Nat) : State := { s with tabs := mset s.tabs (ekey idx sub) rows }

/-- A calendar value arrives at a port (R175): refused with the case and row in `sch_load_error`, or in force as the
next calendar. -/
def takeCalendar (s : State) (idx q : Nat) (rows : List Nat) : State × Nat :=
  match calCheck s q (rows.headD 0) (rows.drop 1) with
  | some (c, row) => (s.put (0x6000 + 256 * q) 0x06 0 (c * 2 ^ 16 + row), 5)
  | none =>
    (((putRows s idx 0x01 rows).put (0x6000 + 256 * q) 0x06 0 0).modPort q fun p => { p with calNew := true }, 0)

/-- A whole table value arrives (R370 item 5): the state, and 0 installed, 3 BUSY or 5 RANGE. -/
def takeTable (s : State) (idx sub : Nat) (bytes : List Byte) : State × Nat :=
  let l := locate idx
  let rows := rowsOf l.base sub bytes
  if l.base = 0x6002 then takeCalendar s idx l.a rows
  else if tableBusy s l.base sub rows then (s, 3)
  else if !tableOk s l.base sub rows then (s, 5)
  else
    let old := s.rows idx sub
    (tableEffect (putRows s idx sub rows) l.base sub old rows, 0)

end Sys2Proof.Machine
end

