-- ==== Sys2Proof/Machine/Supervisor.lean ====
section
/-!
DEFINITION. The supervisor: its reset and outage (R385, R387, R402), its start with a verified patch bank, and the
check of a patch image (R386, R387).
-/

namespace Sys2Proof.Machine
open Sys2Proof

/-- The supervisor can serve a BLOB or TABLE command (R368, R385). -/
def supReady (s : State) : Bool := s.core == .running && supRuns s

/-- A SUP reset (R387): attempts in progress wait for the restart. -/
def supReset (s : State) : State := ({ s with sup := { s.sup with state := 3 } }).bump 0x1002 0x06 1

/-- The watchdog finds no heartbeat (R387). While CORE is stopped it is suspended (R394). -/
def watchdog (s : State) : State :=
  if supReady s then ((supReset s).bump 0x1002 0x07 1).irq 8 else s

/-! ### Patch images (R386, R387) -/

/-- PLEN of a patch image. -/
def patchLen (image : List Byte) : Nat := bitsOf (ofBytes (image.take 16)) 96 32

/-- The bytes of a transfer of a patch image: 32 + PLEN, at most the bank. -/
def patchSize (first : List Byte) : Nat := min (32 + patchLen first) 262144

/-- `sup_patch_status` after the checks of R387: 1 verified, 2 to 4 refused. -/
def patchVerdict (s : State) (image : List Byte) : Nat :=
  let h := ofBytes (image.take 32)
  let len := patchLen image
  let code := (image.drop 32).take len
  if bitsOf h 0 32 ≠ 0x0A1E4C0D ∨ len < 4 ∨ 262112 < len ∨ len % 4 ≠ 0 then 2
  else if bitsOf h 32 16 ≠ 0x0402 ∨ s.elab_.build < bitsOf h 48 16 then 3
  else if crc32c len (ofBytes code) ≠ bitsOf h 128 32 then 4
  else 1

/-- A whole image has arrived: true when it is verified. -/
def takePatch (s : State) (image : List Byte) : State × Bool :=
  let v := patchVerdict s image
  if v = 1 then
    ({ s with sup := { s.sup with bank := some (bitsOf (ofBytes (image.take 12)) 64 32, image), patchStatus := 1 } }, true)
  else (({ s with sup := { s.sup with bank := none, patchStatus := v } }).irq 8, false)

/-! ### Start (R387, R405) -/

/-- Training and PARAM attempts abandoned at the outage begin again; TA and RA do not rise (R385). -/
def resumeAttempt (s : State) (q : Nat) : State :=
  let p := s.port q
  let reach := Config.isReach q
  let again (fast : Bool) (s : State) : State :=
    let s := s.modPort q (attemptFields q s.now fast false)
    if reach then s else sendStart s q
  match p.state with
  | .off => leaveOff s q
  | .detect => leaveDetect s q
  | .train => again (fastPossible s q) s
  | .align => again (fastPossible s q) (s.goto q .train)
  | .param => again (fastPossible s q) (s.goto q .train)
  | .retrain => if p.step = .idle then s else again (fastPossible s q) s
  | _ => s

/-- The supervisor adopts a verified bank, or runs ROM alone. -/
def adoptBank (s : State) : State :=
  match s.sup.bank with
  | some (rev, _) => { s with sup := { s.sup with state := 2, rev := rev, patchStatus := 5, boot := false } }
  | none => { s with sup := { s.sup with state := 1, rev := 0, boot := false } }

/-- The supervisor starts: steps S5 and S6 after a reset (R405), the restart of R387 otherwise. -/
def supStarts (s : State) : State := (List.range 10).foldl resumeAttempt (adoptBank s)

end Sys2Proof.Machine
end

