-- ==== Sys2Proof/Machine/Thermal.lean ====
section
/-!
DEFINITION. Thermal inputs (R52, R53), the tempo demand they make (R203, R204) and thermal overload (R205).
-/

namespace Sys2Proof.Machine
open Sys2Proof

/-- Threshold `i` (1–4) of TEMP_BELOW or TEMP_LOCAL (R203). -/
def thermThr (s : State) (below : Bool) (i : Nat) : Nat :=
  if below then s.get 0x6F01 i ([0, 159, 164, 169, 174].getD i 0) else s.get 0x6F01 (8 + i) 0

/-- Tempo value at a level, 0 at level 0 (R203). -/
def thermTempo (s : State) (below : Bool) (i : Nat) : Nat :=
  if i = 0 then 0
  else if below then s.get 0x6F01 (4 + i) ([0, 16, 48, 96, 160].getD i 0) else s.get 0x6F01 (12 + i) 0

/-- The highest enabled threshold, of those that a test admits. -/
def topLevel (s : State) (below : Bool) (p : Nat → Bool) : Nat :=
  (List.range 5).foldl (fun best i => if i ≠ 0 ∧ thermThr s below i ≠ 0 ∧ p (thermThr s below i) then i else best) 0

/-- The level falls while the sample lies below the threshold less the hysteresis. -/
def fallTo (s : State) (below : Bool) (v up : Nat) : Nat → Nat
  | 0 => 0
  | i + 1 =>
    if i + 1 ≤ up then i + 1
    else if thermThr s below (i + 1) = 0 ∨ v + s.get 0x6F01 0x11 3 < thermThr s below (i + 1) then fallTo s below v up i
    else i + 1

/-- The level of an input after an accepted sample (R203); 0xFF exceeds every threshold (R52). -/
def thermLevel (s : State) (below : Bool) (v old : Nat) : Nat :=
  if v = 0 then 0
  else if v = 0xFF then topLevel s below fun _ => true
  else
    let up := topLevel s below fun t => decide (t ≤ v)
    if old ≤ up then up else fallTo s below v up old

/-- The stored samples (`temp_local`, `temp_below`). -/
def tempOf (s : State) (below : Bool) : Nat := s.get 0x2102 (if below then 2 else 1) 0

/-- `sch_tempo_max`. -/
def tempoMax (s : State) : Nat := s.get 0x6F01 0x12 128

/-- Watch of the overload interval: it is armed again after 1 ms at or below the maximum (R205). -/
def watchOverload (s : State) : State :=
  let h := s.therm
  if tempoMax s < h.demand then
    let rested := match h.underAt with
      | some t => decide (t + 1000000 ≤ s.now)
      | none => false
    { s with therm := { h with tripped := h.tripped && !rested, underAt := none } }
  else { s with therm := { h with underAt := some (h.underAt.getD s.now) } }

/-- The demand follows the levels (R203, R204): a change presents a TEMPO head cell, a rise originates TEMPO. -/
def refreshDemand (s : State) : State :=
  let l := thermLevel s false (tempOf s false) s.therm.levelLocal
  let b := thermLevel s true (tempOf s true) s.therm.levelBelow
  let old := s.therm.demand
  let d := max (thermTempo s false l) (thermTempo s true b)
  let s := watchOverload { s with therm := { s.therm with levelLocal := l, levelBelow := b, demand := d } }
  if d = old then s
  else
    let s := (calendarPorts s).foldl
      (fun s q => presentSch s q 0 0 s.now [schHead 7 false false false 0 0 d 0 q 0 0]) s
    if old < d then oweTempo s else s

/-- Two reads of an input (R53): equal reads are accepted; a sensor fault that begins opens a service record (R52). -/
def acceptTemp (s : State) (below : Bool) (a b : BitVec 8) : State :=
  if a ≠ b then s
  else
    let old := tempOf s below
    let s := s.put 0x2102 (if below then 2 else 1) 0 a.toNat
    if a = 0xFF ∧ old ≠ 0xFF then s.service 0x02 0 0 0 (b2n below) else s

/-- THERMAL_SAMPLE (R53, R203). -/
def execThermalSample (local1 local2 below1 below2 : BitVec 8) (s : State) : Host.Outcome State Fault Refusal :=
  .next (refreshDemand (acceptTemp (acceptTemp s false local1 local2) true below1 below2))

/-- The bits of THERM_TRIP: the inputs whose demand exceeds the maximum (R205). -/
def tripBits (s : State) : Nat :=
  b2n (decide (tempoMax s < thermTempo s false s.therm.levelLocal))
    + 2 * b2n (decide (tempoMax s < thermTempo s true s.therm.levelBelow))

/-- The demand has exceeded `sch_tempo_max` for 1 ms (R205). -/
def overload (s : State) : State :=
  if tempoMax s < s.therm.demand ∧ !s.therm.tripped then
    let bits := tripBits s
    let s := { s with therm := { s.therm with tripped := true } }
    ((s.service 0x03 0 0 0 bits).evt 0x84 0 (BitVec.ofNat 32 bits)).bump 0x6F02 0x06 1
  else s

/-- THERMAL_OVERLOAD (R205). -/
def execThermalOverload (s : State) : Host.Outcome State Fault Refusal := .next (overload s)

/-- STRAP_SAMPLE (R49): a difference from the captured straps is recorded and not adopted. -/
def execStrapSample (dieId : Die) (role : BitVec 3) (pos : BitVec 6) (s : State) : Host.Outcome State Fault Refusal :=
  if dieId = s.strapDie ∧ role = s.strapRole ∧ pos = s.strapPos then .next s else .next (s.put 0x2101 0x04 0 1)

end Sys2Proof.Machine
end

