-- ==== Sys2Proof/Machine/TraceUnit.lean ====
section
/-!
DEFINITION. Trace (R423–R427): arming, the triggers, the capture queue and the buffer.
-/

namespace Sys2Proof.Machine
open Sys2Proof

/-- `trace_mode`: 0 OFF, 1 WRAP, 2 FILL, 3 STREAM. -/
def traceMode (s : State) : Nat := s.get 0xE400 0x01 0

/-- Change the trace. -/
def State.modTrace (s : State) (f : Trace → Trace) : State := { s with trace := f s.trace }

/-- A record (R423). -/
def traceRecord (ts kind port sub : Nat) (bad : Bool) (rseq : Nat) (data : BitVec 64) : BitVec 128 :=
  BitVec.ofNat 128
    (field ts 0 40 + field kind 40 4 + field port 44 4 + field sub 48 4 + field (b2n bad) 52 1 + field rseq 56 8
      + field data.toNat 64 64)

/-- A record enters the capture queue, and a STOP countdown counts it (R426, R427). -/
def enqueue (s : State) (kind port sub : Nat) (bad : Bool) (data : BitVec 64) : State :=
  s.modTrace fun t =>
    let t := { t with queue := t.queue ++ [traceRecord s.now kind port sub bad t.rseq data], rseq := (t.rseq + 1) % 256 }
    match t.post with
    | some n => if n ≤ 1 then { t with post := none, state := 3 } else { t with post := some (n - 1) }
    | none => t

/-- An event that is to be recorded: dropped and counted when the queue is full or the buffer has ended (R427). -/
def recordEvent (s : State) (e : TraceEvent) : State :=
  if traceMode s = 0 then s
  else if s.trace.state = 4 then s.bump 0xE400 0x07 1
  else if 64 ≤ s.trace.queue.length then
    (s.bump 0xE400 0x07 1).modTrace fun t => { t with lostOwed := t.lostOwed + 1 }
  else enqueue s e.kind e.port e.sub e.bad e.data

/-- A trigger entry with an action matches an event (R425). -/
def triggerHits (act : Nat) (e : TraceEvent) (r : Nat) : Bool :=
  bitsOf r 8 2 == act && bitsOf r 0 4 == e.kind && (bitsOf r 4 4 == 15 || bitsOf r 4 4 == e.port)
    && (e.data.toNat &&& bitsOf r 128 64) == bitsOf r 192 64

/-- One event against the triggers, in the order of R426. TSFULL and MARK need no RECORD entry (R424). -/
def evalEvent (s : State) (e : TraceEvent) : State :=
  let rows := s.rows 0xE400 0x02
  let s := if s.trace.state = 1 ∧ rows.any (triggerHits 2 e) then s.modTrace fun t => { t with state := 2 } else s
  let stop := if s.trace.state = 2 ∧ s.trace.post = none then rows.find? (triggerHits 3 e) else none
  let takes := e.kind == 0 || (s.trace.state != 1 && (e.kind == 9 || rows.any (triggerHits 1 e)))
  let s := if takes then recordEvent s e else s
  match stop with
  | some r =>
    if s.trace.state ≠ 2 then s
    else if bitsOf r 16 16 = 0 then s.modTrace fun t => { t with state := 3 }
    else s.modTrace fun t => { t with post := some (bitsOf r 16 16) }
  | none => s

/-- The order of the events of one cc: KIND, PORT, SUB (R427). -/
def eventBefore (a b : TraceEvent) : Bool :=
  decide (a.kind < b.kind) || (a.kind == b.kind && (decide (a.port < b.port) || (a.port == b.port && decide (a.sub < b.sub))))

/-- Insert behind the events that do not come after it. -/
def insertEvent (e : TraceEvent) : List TraceEvent → List TraceEvent
  | [] => [e]
  | x :: xs => if eventBefore e x then e :: x :: xs else x :: insertEvent e xs

/-- The events of the cc, evaluated (R426). -/
def evalEvents (s : State) : State :=
  let es := s.trace.events.foldl (fun l e => insertEvent e l) []
  es.foldl (fun s e => if s.trace.state = 3 ∨ s.trace.state = 0 then s else evalEvent s e)
    (s.modTrace fun t => { t with events := [] })

/-! ### Arm, stop, mark (R426, R424) -/

/-- A write of 1 to `trace_arm`. -/
def armTrace (s : State) : State :=
  let startUsed := (s.rows 0xE400 0x02).any fun r => bitsOf r 8 2 == 2
  let s := s.modTrace fun _ => { state := if startUsed then 1 else 2 }
  recordEvent s ⟨0, 15, 0, false, BitVec.ofNat 64 s.now⟩

/-- A write of 0 to `trace_arm`. -/
def stopTrace (s : State) : State := s.modTrace fun t => { t with state := 3, post := none }

/-- A write to `trace_mark`: a MARK event; its record is written in RUNNING. -/
def markTrace (s : State) (v : Nat) : State := s.tev 9 15 0 false (BitVec.ofNat 64 v)

/-! ### From the queue to the buffer (R427) -/

/-- Store a record at the write pointer. -/
def storeRecord (t : Trace) (r : BitVec 128) : Trace :=
  { t with buf := mset t.buf t.wptr r, wptr := (t.wptr + 1) % 4096, count := min (t.count + 1) 4096 }

/-- One record leaves the capture queue. -/
def drainQueue (s : State) : State :=
  match s.trace.queue with
  | [] => s
  | r :: rest =>
    let s := s.modTrace fun t => { t with queue := rest }
    if traceMode s = 2 then
      s.modTrace fun t =>
        let t := storeRecord t r
        if t.count = 4096 then { t with state := 4, post := none } else t
    else if traceMode s = 3 ∧ s.trace.count = 4096 then
      (s.bump 0xE400 0x07 1).modTrace fun t => { t with lostOwed := t.lostOwed + 1 }
    else s.modTrace fun t => storeRecord t r

/-- STREAM: the oldest record of the FIFO goes out in four words, one record per 16 cc (R57, R427). -/
def streamOut (s : State) : State :=
  if traceMode s = 3 ∧ s.trace.count ≠ 0 ∧ s.trace.streamAt ≤ s.now then
    let i := (s.trace.wptr + 4096 - s.trace.count) % 4096
    (s.emit (.trace (mgetD s.trace.buf i 0))).modTrace fun t => { t with count := t.count - 1, streamAt := s.now + 16 }
  else s

/-- A LOST record follows as soon as the queue has room (R427). -/
def reportLost (s : State) : State :=
  if s.trace.lostOwed ≠ 0 ∧ s.trace.queue.length < 64 ∧ s.trace.state ≠ 4 then
    (enqueue s 10 15 0 false (BitVec.ofNat 64 s.trace.lostOwed)).modTrace fun t => { t with lostOwed := 0 }
  else s

/-- TRACE_RECORD (R427); recording stops while CORE is stopped. -/
def execTraceRecord (s : State) : Host.Outcome State Fault Refusal :=
  .next (if s.core = .running then reportLost (streamOut (drainQueue s)) else s)

/-- TSFULL (R424): the timestamp of the records wraps. -/
def execTsfull (s : State) : Host.Outcome State Fault Refusal :=
  .next (s.tev 0 15 0 false (BitVec.ofNat 64 s.now))

end Sys2Proof.Machine
end

