-- ==== Sys2Proof/Machine/AlmWrite.lean ====
section
/-!
DEFINITION. Almanac commands: the checks of R364–R367 in their order, the owning chapters' conditions on scalar
entries, the effect of each write that acts, segmented transfers and snapshots (R370, R371).
-/

namespace Sys2Proof.Machine
open Sys2Proof

/-! ### Status codes (R366) -/

/-- OK. -/
def stOk : Nat := 0
/-- NO_ENTRY. -/
def stNoEntry : Nat := 1
/-- ACCESS. -/
def stAccess : Nat := 2
/-- BUSY. -/
def stBusy : Nat := 3
/-- SIZE. -/
def stSize : Nat := 4
/-- RANGE. -/
def stRange : Nat := 5
/-- SEQUENCE. -/
def stSequence : Nat := 6
/-- ABORTED. -/
def stAborted : Nat := 7
/-- RESET_ABORT. -/
def stResetAbort : Nat := 8
/-- REMOTE_DENIED. -/
def stRemoteDenied : Nat := 9

/-- Every command that ends with a status other than OK is counted (`alm_refusals`). -/
def countRefusal (s : State) (st : Nat) : State := if st = stOk then s else s.bump 0x1000 0x05 1

/-! ### BUSY (R364, R366) -/

/-- The ports that an RWL entry concerns. -/
def portsConcerned (s : State) (e : Entry) (l : Loc) : List Nat :=
  match e.unit_ with
  | .wire => [l.a]
  | .reach => [8 + l.a]
  | .port =>
    -- The reserved cells of a pair are kept at TWIN_A for both units (R314).
    if e.base = 0x5010 then l.a :: (sibling s l.a).toList else [l.a]
  | .bundle => [l.a]
  | .lane => [8 + l.a]
  | _ => []

/-- The owning chapter refuses a write while its part is busy: R171, R244, R269, R420, R427. -/
def partBusy (s : State) (idx sub : Nat) : Bool :=
  let l := locate idx
  match l.base, sub with
  | 0x6F00, 0x03 => domainOn s
  | 0x7000, 0x05 => s.home.track.any fun t => t.kind == .recall && t.discard
  | 0x8000, 0x01 => s.rlc.busy
  | 0x8000, 0x03 => s.rlc.busy
  | 0x8000, 0x04 => s.rlc.busy
  | 0xE200, 0x03 => (s.port l.a).state != .off
  | 0xE400, 0x01 => s.trace.state == 1 || s.trace.state == 2
  | 0xE400, 0x02 => s.trace.state == 1 || s.trace.state == 2
  | _, _ => false

/-- A segmented write of another path holds the entry (R44, R372). -/
def heldByOther (s : State) (path : Option Path) (idx sub : Nat) : Bool :=
  s.xfers.any fun (p, x) => x.write && x.key == ekey idx sub && some p != path

/-- A write meets BUSY. -/
def writeBusy (s : State) (path : Option Path) (e : Entry) (idx sub : Nat) : Bool :=
  heldByOther s path idx sub || partBusy s idx sub
    || (e.acc == .rwl && (portsConcerned s e (locate idx)).any fun q => (s.port q).state != .off)

/-! ### RANGE of scalar entries (R363) -/

/-- Thresholds of an input, lowest first, with one of them replaced. -/
def thrWith (s : State) (sub v : Nat) : List Nat :=
  let below := decide (sub ≤ 4)
  (List.range 4).map fun i => if (if below then i + 1 else i + 9) = sub then v else thermThr s below (i + 1)

/-- Strictly rising. -/
def rising : List Nat → Bool
  | [] => true
  | [_] => true
  | a :: b :: xs => decide (a < b) && rising (b :: xs)

/-- A DIE_ALIAS row is refused (R328): a second write, an illegal role, or a spare site that an earlier row names. -/
def aliasBad (s : State) (i r : Nat) : Bool :=
  (mget s.fuses.alias_ i).isSome || decide (3 < bitsOf r 0 3) || bitsOf r 16 3 != 4
    || (List.range i).any fun j =>
      let x := mgetD s.fuses.alias_ j 0
      bitAt x 40 && bitsOf x 16 3 == bitsOf r 16 3 && bitsOf x 24 6 == bitsOf r 24 6

/-- A fused map is refused (R420). -/
def fuseBad (s : State) (q b v : Nat) : Bool :=
  s.fuses.mapWritten.contains (q * 16 + b) || decide (2 ^ 20 ≤ v)
    || (List.range 4).any fun g =>
      bitAt v (5 * g + 4)
        && (!((s.port q).bundles.getD b {}).t3full.contains (16 * g + bitsOf v (5 * g) 4)
            || bitAt (mgetD s.fuses.mapsAtCold (q * 16 + b) 0) (5 * g + 4))

/-- `fw_port_mode` is refused (R346). -/
def modeBad (s : State) (q v : Nat) : Bool :=
  v != 0 && (!s.elab_.firewall || s.strapRole != 3 || decide (8 ≤ q) || (v == 2 && (pairOf s q).isSome))

/-- The shared pool that a new RSV_v would leave is negative (R128). -/
def reservedTooMany (s : State) (q v n : Nat) : Bool :=
  decide (rxTotal s q < sumNat ((List.range 16).map fun i => if i = v then n else rsvSet s q i))

/-- Refusals of the owning chapters that are no fixed interval. -/
def ownerRefuses (s : State) (idx sub v : Nat) : Bool :=
  let l := locate idx
  match l.base with
  | 0x0100 => sub == 0x03 && decide (31 < v) && v != 0xFF
  | 0x5010 => reservedTooMany s l.a sub v
  | 0x6000 => sub == 0x02 && (v == 0 || decide (s.elab_.units l.a < v))
  | 0x6F00 => sub == 0x0B && (decide (2 ^ 48 ≤ v) || switchTooEarly s (BitVec.ofNat 48 v))
  | 0x6F01 =>
    ((decide (1 ≤ sub) && decide (sub ≤ 4)) || (decide (9 ≤ sub) && decide (sub ≤ 0xC)))
      && !rising ((thrWith s sub v).filter (· != 0))
  | 0x8000 => sub == 0x03 && v &&& waysRemoved s != 0
  | 0x9000 => sub == 0x02 && enginesMaskBad s v
  | 0xB100 => aliasBad s (sub - 1) v
  | 0xC200 => sub == 0x01 && modeBad s l.a v
  | 0xE200 => fuseBad s l.a l.b v
  | _ => false

/-- The value lies in the legal intervals of its entry. -/
def inLegal (e : Entry) (v : Nat) : Bool :=
  e.legal.isEmpty || e.legal.any fun (a, b) => decide (a ≤ v) && decide (v ≤ b)

/-! ### Effects of scalar writes -/

/-- The default of the entry at an index. -/
def dfltOf (s : State) (e : Entry) (idx sub : Nat) : Nat := if sub = e.sub then defaultOf s e (locate idx) else e.dflt

/-- `svc_close` (R336). -/
def closeRecords (s : State) (v : Nat) : State :=
  if v = 0xFF then { s with svc := s.svc.map fun (r : SvcRecord) => { r with open_ := false } }
  else { s with svc := setAt v { s.svc.getD v {} with open_ := false } s.svc }

/-- A cause group has occurred in this AON cycle (R388). -/
def causeNow (s : State) (i : Nat) : Bool := s.irqs.cycle == s.now / 40 && s.irqs.causes.contains i

/-- `irq_clear` (R388): a cause of the same AON cycle keeps its bit. -/
def clearIrq (s : State) (mask : Nat) : State :=
  let st := s.get 0x1001 0x01 0
  s.put 0x1001 0x01 0
    (sumNat ((List.range 9).map fun i => if bitAt st i && (!bitAt mask i || causeNow s i) then 2 ^ i else 0))

/-- `rlc_enable` (R244). -/
def writeRlcEnable (s : State) (v : Nat) : State :=
  let s := s.put 0x8000 0x01 1 v
  if v = 0 then oweEvictions s true fun _ => true else s

/-- `rlc_ways_enabled` (R244): the lines of cleared ways are owed. -/
def writeRlcWays (s : State) (v : Nat) : State :=
  let old := s.get 0x8000 0x03 0xFFFF
  oweEvictions (s.put 0x8000 0x03 0xFFFF v) false fun w => bitAt old w && !bitAt v w

/-- `rlc_flush` (R244). -/
def writeRlcFlush (s : State) (v : Nat) : State := if v = 1 then oweEvictions s true fun _ => true else s

/-- `link_port_enable` (R142). -/
def writePortEnable (s : State) (q v : Nat) : State :=
  let s := s.put (0x5000 + 256 * q) 0x09 1 v
  if v = 0 then (if (s.port q).state = .off then s else enterOff s q) else leaveOff s q

/-- `link_reset_req` (R142): it also wakes a sleeping port (R399). -/
def writeResetReq (s : State) (q v : Nat) : State :=
  let s := wakePort s q
  if v = 1 then resetReqRetrain s q else resetReqFull s q

/-- `pm_wake_ports` (R391, R399, R408). -/
def writeWakePorts (s : State) (mask : Nat) : State :=
  ((List.range 10).filter fun q => bitAt mask q && s.elab_.portBuilt q).foldl wakePort (startCore s)

/-- A DIE_ALIAS row is burnt (R328). -/
def burnAlias (s : State) (i r : Nat) : State :=
  let keep := bitsOf r 0 3 + field (bitsOf r 8 6) 8 6 + field (bitsOf r 16 3) 16 3 + field (bitsOf r 24 6) 24 6
    + field (bitsOf r 32 9) 32 9
  { s with fuses := { s.fuses with alias_ := mset s.fuses.alias_ i keep } }

/-- A fused map is burnt (R420). -/
def burnMap (s : State) (q b v : Nat) : State :=
  { s with fuses := { s.fuses with maps := mset s.fuses.maps (q * 16 + b) v,
                                   mapWritten := s.fuses.mapWritten ++ [q * 16 + b] } }

/-- What the installation of a scalar does: the value is stored, or it acts as its owning chapter states. -/
def installScalar (s : State) (e : Entry) (idx sub v : Nat) : State :=
  let l := locate idx
  let stored := s.put idx sub (dfltOf s e idx sub) v
  match l.base, sub with
  | 0x0100, 0x03 => closeRecords s v
  | 0x1001, 0x02 => clearIrq s v
  | 0x1002, 0x05 => if v = 1 then supReset s else s
  | 0x5000, 0x09 => writePortEnable s l.a v
  | 0x5000, 0x0A => writeResetReq s l.a v
  | 0x6F00, 0x01 => if v = 1 then domainEnable s else domainDisable s
  | 0x6F00, 0x07 => if v = 1 then rejoin s else s
  | 0x6F00, 0x08 => if v = 0 then s else leapRequest s v
  | 0x6F00, 0x0B => armSwitch s (BitVec.ofNat 48 v)
  | 0x6F01, _ => refreshDemand stored
  | 0x7000, 0x01 => setOwnPkg s v
  | 0x8000, 0x01 => writeRlcEnable s v
  | 0x8000, 0x03 => writeRlcWays s v
  | 0x8000, 0x04 => writeRlcFlush s v
  | 0x9000, 0x02 => setEngines s v
  | 0x9000, 0x07 => abortWrite s v
  | 0xB100, _ => burnAlias s (sub - 1) v
  | 0xD000, 0x06 => writeWakePorts s v
  | 0xE200, _ => burnMap s l.a l.b v
  | 0xE400, 0x03 => if v = 1 then armTrace s else stopTrace s
  | 0xE400, 0x08 => markTrace s v
  | _, _ => stored

/-! ### A whole value is written -/

/-- PORT and SUB of the trace event of a write (R424): those of the entry's unit. -/
def writePlace (e : Entry) (l : Loc) : Nat × Nat :=
  match e.unit_ with
  | .wire => (l.a, 0)
  | .reach => (8 + l.a, 0)
  | .port => (l.a, 0)
  | .bundle => (l.a, l.b)
  | .lane => (8 + l.a, l.b)
  | _ => (15, 0)

/-- An installed write is a trace event (R424, KIND 7). -/
def noteWrite (s : State) (e : Entry) (idx sub : Nat) (bytes : List Byte) : State :=
  let (q, u) := writePlace e (locate idx)
  s.tev 7 q u false (BitVec.ofNat 64 (idx % 65536 + field sub 16 8 + field (ofBytes (bytes.take 4)) 32 32))

/-- Install a scalar after its RANGE check. -/
def takeScalar (s : State) (e : Entry) (idx sub v : Nat) : State × Nat :=
  if !inLegal e v || ownerRefuses s idx sub v then (s, stRange) else (installScalar s e idx sub v, stOk)

/-- A whole value arrives: checked and installed (R370 item 5, R387). -/
def takeValue (s : State) (e : Entry) (idx sub : Nat) (bytes : List Byte) : State × Nat :=
  let (t, st) := match e.ty with
    | .table => takeTable s idx sub bytes
    | .blob _ => let (t, ok) := takePatch s bytes; (t, if ok then stOk else stRange)
    | _ => takeScalar s e idx sub (ofBytes bytes)
  (if st = stOk then noteWrite t e idx sub bytes else t, st)

/-- Size in bytes of the value that a write brings, from its first bytes. -/
def writeSize (s : State) (e : Entry) (idx sub : Nat) (first : List Byte) : Nat :=
  match e.ty.width with
  | some w => w
  | none => match e.ty with
    | .table => tableSize s (locate idx).base sub first
    | .blob _ => patchSize first
    | _ => 0

/-- The checks up to BUSY that a write meets first, when one fails (R367). -/
def writeRefused (s : State) (path : Option Path) (idx sub : Nat) : Option Nat :=
  match (entryAt s idx sub).filter fun _ => decide (idx < 0xF000) with
  | none => some stNoEntry
  | some e => if e.acc == .ro then some stAccess else if writeBusy s path e idx sub then some stBusy else none

/-- The same for a read. -/
def readRefused (s : State) (path : Option Path) (idx sub : Nat) : Option Nat :=
  match (entryAt s idx sub).filter fun _ => decide (idx < 0xF000) with
  | none => some stNoEntry
  | some e => if e.acc == .wo then some stAccess else if heldByOther s path idx sub then some stBusy else none

/-- A checked write of a whole value, as the last segment of a transfer or a WRITE brings it. -/
def writeWhole (s : State) (path : Option Path) (idx sub : Nat) (bytes : List Byte) : State × Nat :=
  match writeRefused s path idx sub, entryAt s idx sub with
  | none, some e =>
    if bytes.isEmpty then (s, stOk)
    else if bytes.length ≠ writeSize s e idx sub bytes then (s, stSize)
    else takeValue s e idx sub bytes
  | some st, _ => (s, st)
  | none, none => (s, stNoEntry)

/-! ### Commands (R366–R372) -/

/-- The end of a command: its status, SIZE when the command sets it, and the bytes read. -/
structure Reply where
  status : Nat
  size : Option Nat := none
  bytes : List Byte := []
deriving DecidableEq, Repr

/-- The open transfer or snapshot of a path. -/
def transferOf (s : State) (path : Path) : Option Transfer := (s.xfers.find? fun x => x.1 == path).map (·.2)

/-- Set or drop the transfer of a path. -/
def setTransfer (s : State) (path : Path) (x : Option Transfer) : State :=
  { s with xfers := (s.xfers.filter fun y => y.1 != path) ++ (x.map fun x => (path, x)).toList }

/-- READ (R369): the whole value of at most 32 B. -/
def doReadCmd (s : State) (path : Path) (idx sub : Nat) : State × Reply :=
  match readRefused s (some path) idx sub, entryAt s idx sub with
  | none, some e =>
    let v := entryBytes s e idx sub
    if 32 < v.length then (s, { status := stSize, size := some v.length })
    else (s, { status := stOk, size := some v.length, bytes := v })
  | some st, _ => (s, { status := st })
  | none, none => (s, { status := stNoEntry })

/-- WRITE (R369): a TABLE, and a BLOB above 32 B, are written in segments only. -/
def doWriteCmd (s : State) (path : Path) (idx sub : Nat) (bytes : List Byte) : State × Reply :=
  match writeRefused s (some path) idx sub, entryAt s idx sub with
  | none, some e =>
    if bytes.isEmpty then (s, { status := stOk })
    else if e.ty.width ≠ some bytes.length then (s, { status := stSize })
    else
      let (s, st) := takeValue s e idx sub bytes
      (s, { status := st })
  | some st, _ => (s, { status := st })
  | none, none => (s, { status := stNoEntry })

/-- READ_SEG (R371). -/
def doReadSeg (s : State) (path : Path) (idx sub segoff seglen : Nat) : State × Reply :=
  match readRefused s (some path) idx sub, entryAt s idx sub with
  | none, some e =>
    let now := entryBytes s e idx sub
    if seglen = 0 then (s, { status := stOk, size := some now.length })
    else
      let mine := (transferOf s path).filter fun x => !x.write && x.key == ekey idx sub
      let snap := if segoff = 0 then some now else mine.map (·.bytes)
      let size := (snap.getD now).length
      let off := 32 * segoff
      if 32 < seglen ∨ (0 < off ∧ size ≤ off) ∨ (seglen < 32 ∧ off + seglen < size) then
        (s, { status := stSize, size := some size })
      else match snap with
        | none => (s, { status := stSequence })
        | some v =>
          let out := (v.drop off).take seglen
          let rest := if size ≤ off + out.length then none
            else some { key := ekey idx sub, write := false, bytes := v, next := segoff + 1 }
          (setTransfer s path rest, { status := stOk, size := some size, bytes := out })
  | some st, _ => (s, { status := st })
  | none, none => (s, { status := stNoEntry })

/-- WRITE_SEG (R370). -/
def doWriteSeg (s : State) (path : Path) (idx sub segoff : Nat) (bytes : List Byte) : State × Reply :=
  match writeRefused s (some path) idx sub, entryAt s idx sub with
  | none, some e =>
    if bytes.isEmpty then (s, { status := stOk })
    else
      let mine := (transferOf s path).filter fun x => x.write && x.key == ekey idx sub
      let got := if segoff = 0 then some [] else mine.map (·.bytes)
      let all := got.getD [] ++ bytes
      -- A calendar's size is known from its first segment only; without one its largest is taken.
      let size := if segoff ≠ 0 ∧ mine.isNone ∧ e.base = 0x6002 then 8 + 8 * s.elab_.calEntries
        else writeSize s e idx sub (if segoff = 0 then bytes else (mine.map (·.bytes)).getD [])
      let end_ := 32 * segoff + bytes.length
      if 32 < bytes.length then (s, { status := stSize })
      else if size < end_ then
        (if segoff = 0 ∨ mine.isSome then setTransfer s path none else s, { status := stSize })
      else if bytes.length < 32 ∧ end_ < size then (s, { status := stSize })
      else if got.isNone ∨ 32 * segoff ≠ (got.getD []).length then (s, { status := stSequence })
      else if end_ < size then
        (setTransfer s path (some { key := ekey idx sub, write := true, bytes := all, next := segoff + 1 }),
         { status := stOk })
      else
        let (s, st) := takeValue (setTransfer s path none) e idx sub all
        (s, { status := st })
  | some st, _ => (s, { status := st })
  | none, none => (s, { status := stNoEntry })

/-- ABORT ends the transfer or snapshot of its own path (R43, R372). -/
def doAbort (s : State) (path : Path) : State × Reply :=
  if (transferOf s path).isSome then (setTransfer s path none, { status := stAborted }) else (s, { status := stOk })

/-- A command of a path: 1 READ, 2 WRITE, 3 READ_SEG, 4 WRITE_SEG, 5 ABORT (R42, R375, R383). -/
def runCommand (s : State) (path : Path) (op idx sub segoff seglen : Nat) (data : List Byte) : State × Reply :=
  let (s, r) := match op with
    | 1 => doReadCmd s path idx sub
    | 2 => if 32 < seglen then
        (s, { status := (writeRefused s (some path) idx sub).getD stSize })
      else doWriteCmd s path idx sub (data.take seglen)
    | 3 => doReadSeg s path idx sub segoff seglen
    | 4 => if 32 < seglen then
        (s, { status := (writeRefused s (some path) idx sub).getD stSize })
      else doWriteSeg s path idx sub segoff (data.take seglen)
    | _ => doAbort s path
  (countRefusal s r.status, r)

/-- The command needs the supervisor: it names a BLOB or TABLE entry (R368). -/
def needsSup (s : State) (op idx sub : Nat) : Bool :=
  op != 5 && (match (entryAt s idx sub).map (·.ty) with
    | some EntryType.table => true
    | some (EntryType.blob _) => true
    | _ => false)

/-! ### Writes that have a row of their own -/

/-- AON serves no command: PORST_N is asserted, REFCLK is absent, or VDD_AON is off (R48, R60). -/
def aonStopped (s : State) : Bool := s.held.porst || s.held.refLost || s.held.aonLost

/-- A checked write of a whole value; while a reset holds the adapter it ends with RESET_ABORT (R48), and one that
needs the supervisor changes nothing before the supervisor runs (R368). -/
def ownWrite (s : State) (idx sub : Nat) (bytes : List Byte) : State :=
  if aonStopped s then s
  else if inReset s then countRefusal s stResetAbort
  else if needsSup s 2 idx sub && !supReady s then startCore s
  else
    let (s, st) := writeWhole s none idx sub bytes
    countRefusal s st

end Sys2Proof.Machine
end

