-- ==== Sys2Proof/Machine/AlmCmd.lean ====
section
/-!
DEFINITION. The commands of the Almanac: the CFG window (R42–R44, R443), the writes that have a row of their own,
the Sideband Ring (R373–R382), and what runs again when the supervisor starts (R368, R387).
-/

namespace Sys2Proof.Machine
open Sys2Proof

/-! ### The CFG window -/

/-- Change the CFG window. -/
def State.modCfg (s : State) (f : CfgWindow → CfgWindow) : State := { s with cfg := f s.cfg }

/-- The value bytes in DATA0–DATA7 (R42). -/
def cfgBytes (c : CfgWindow) : List Byte := (c.data.map fun d => toBytes 4 d.toNat).flatten

/-- DATA0–DATA7 with bytes in front; the bytes beyond them keep their values. -/
def cfgData (c : CfgWindow) (bytes : List Byte) : List (BitVec 32) :=
  let all := bytes ++ (cfgBytes c).drop bytes.length
  (List.range 8).map fun i => BitVec.ofNat 32 (ofBytes ((all.drop (4 * i)).take 4))

/-- A command of the CFG port has ended (R366, R369). -/
def cfgEnd (s : State) (r : Reply) : State :=
  s.modCfg fun c =>
    { c with status := BitVec.ofNat 8 r.status, busy := false, op := 0,
             size := match r.size with
               | some n => BitVec.ofNat 32 n
               | none => c.size,
             data := cfgData c r.bytes }

/-- Run a CFG command on the values the window holds. -/
def cfgRun (s : State) (op : Nat) : State :=
  let c := s.cfg
  let (s, r) := runCommand s .cfg op c.index.toNat c.sub.toNat c.segoff.toNat c.seglen.toNat (cfgBytes c)
  cfgEnd s r

/-- A command ends with RESET_ABORT (R48). -/
def cfgAborted (s : State) : State := cfgEnd (countRefusal s stResetAbort) { status := stResetAbort }

/-- A write of OP that names a command (R42, R43, R48, R368, R443). -/
def cfgStart (s : State) (op : Nat) : State :=
  if s.held.porst ∨ s.held.aonLost then s
  else if s.held.refLost then cfgAborted s
  else if inReset s then (if op = 5 then cfgEnd s { status := stOk } else cfgAborted s)
  else if s.cfg.busy then
    -- Only ABORT is taken: it ends the command that waits for the supervisor.
    if op = 5 then cfgEnd (countRefusal (setTransfer s .cfg none) stAborted) { status := stAborted } else s
  else if needsSup s op s.cfg.index.toNat s.cfg.sub.toNat ∧ !supReady s then
    (startCore s).modCfg fun c => { c with busy := true, op := op, since := s.now }
  else cfgRun s op

/-- An access of the CFG port is acknowledged two AON cycles later (R41); under PORST_N it is not (R48). -/
def cfgAccess (s : State) (wroteOp : Bool) : State :=
  if s.held.porst ∨ s.held.aonLost then s else s.modCfg fun c => { c with acks := c.acks ++ [(s.now + 80, wroteOp)] }

/-- A write of an OP value that names no command: nothing starts, and under WRST_N or DRST_N STATUS is RESET_ABORT
(R42, R443). -/
def cfgNoCommand (s : State) : State :=
  if s.held.porst ∨ s.held.aonLost ∨ !inReset s then s
  else s.modCfg fun c => { c with status := BitVec.ofNat 8 stResetAbort }

/-- CFG_NO_OPERATION (R42): OP 0, and the ignored OP values. -/
def execCfgNoOperation (_op : BitVec 4) (s : State) : Host.Outcome State Fault Refusal :=
  .next (cfgAccess (cfgNoCommand s) true)

/-- CFG_READ (R369). -/
def execCfgRead (s : State) : Host.Outcome State Fault Refusal := .next (cfgAccess (cfgStart s 1) true)

/-- CFG_WRITE (R369). -/
def execCfgWrite (s : State) : Host.Outcome State Fault Refusal := .next (cfgAccess (cfgStart s 2) true)

/-- CFG_READ_SEG (R371). -/
def execCfgReadSeg (s : State) : Host.Outcome State Fault Refusal := .next (cfgAccess (cfgStart s 3) true)

/-- CFG_WRITE_SEG (R370). -/
def execCfgWriteSeg (s : State) : Host.Outcome State Fault Refusal := .next (cfgAccess (cfgStart s 4) true)

/-- CFG_ABORT (R43). -/
def execCfgAbort (s : State) : Host.Outcome State Fault Refusal := .next (cfgAccess (cfgStart s 5) true)

/-- A word of the CFG window is written, by its offset in words (R42). -/
def cfgWord (c : CfgWindow) (word : Nat) (d : BitVec 32) : CfgWindow :=
  if word = 1 then { c with index := d.extractLsb' 8 16, sub := d.extractLsb' 0 8 }
  else if word = 3 then { c with segoff := d.extractLsb' 0 16, seglen := d.extractLsb' 16 6 }
  else if 8 ≤ word then { c with data := setAt (word - 8) d c.data }
  else c

/-- What a read of a word of the window gives on CFG_RDATA (R41, R42): OP, rsvd bits and the words at 0x14–0x1C read
0. Reads change nothing, so the table of commands has none for them. -/
def cfgReadWord (s : State) (word : Nat) : BitVec 32 :=
  let c := s.cfg
  if word = 0 then 0x0402#16 ++ BitVec.ofNat 16 s.elab_.build
  else if word = 1 then 0#8 ++ c.index ++ c.sub
  else if word = 2 then c.status ++ 0#15 ++ BitVec.ofBool c.busy ++ 0#8
  else if word = 3 then 0#10 ++ c.seglen ++ c.segoff
  else if word = 4 then c.size
  else if 8 ≤ word then c.data.getD (word - 8) 0
  else 0

/-- CFG_WORD_WRITE (R42, R43, R443). -/
def execCfgWordWrite (word : BitVec 4) (data : BitVec 32) (s : State) : Host.Outcome State Fault Refusal :=
  .next (cfgAccess (if s.held.porst ∨ s.held.aonLost ∨ s.cfg.busy then s
    else s.modCfg fun c => cfgWord c word.toNat data) false)

/-- SEGMENT_TRANSFER_TIMEOUT (R44). -/
def execSegmentTransferTimeout (path : Path) (s : State) : Host.Outcome State Fault Refusal :=
  .next (setTransfer s path none)

/-! ### Writes with a row of their own -/

/-- ALMANAC_WRITE (R368). -/
def execAlmanacWrite (index : BitVec 16) (sub : BitVec 8) (bytes : List Byte) (s : State) :
    Host.Outcome State Fault Refusal := .next (ownWrite s index.toNat sub.toNat bytes)

/-- LINK_PORT_ENABLE (R142). -/
def execLinkPortEnable (q : PortId) (value : Bool) (s : State) : Host.Outcome State Fault Refusal :=
  .next (ownWrite s (0x5000 + 256 * q) 0x09 (toBytes 1 (b2n value)))

/-- PM_WAKE_PORTS (R399). -/
def execPmWakePorts (mask : BitVec 16) (s : State) : Host.Outcome State Fault Refusal :=
  .next (ownWrite s 0xD000 0x06 (toBytes 2 mask.toNat))

/-- LINK_RESET_REQ_RETRAIN (R142). -/
def execLinkResetReqRetrain (q : PortId) (s : State) : Host.Outcome State Fault Refusal :=
  .next (ownWrite s (0x5000 + 256 * q) 0x0A (toBytes 1 1))

/-- LINK_RESET_REQ_FULL (R142). -/
def execLinkResetReqFull (q : PortId) (s : State) : Host.Outcome State Fault Refusal :=
  .next (ownWrite s (0x5000 + 256 * q) 0x0A (toBytes 1 2))

/-- XPHY_PATH_DELAY_RESET (R104): a reach port's entry; a wire port has none. -/
def execXphyPathDelayReset (q : PortId) (s : State) : Host.Outcome State Fault Refusal :=
  if Config.isReach q then .next (ownWrite s (0x4000 + 256 * xidx q) 0x06 (toBytes 1 1)) else .fault .noSuchUnit

/-- SCH_DOMAIN_ENABLE (R195). -/
def execSchDomainEnable (s : State) : Host.Outcome State Fault Refusal :=
  .next (ownWrite s 0x6F00 0x01 (toBytes 1 1))

/-- SCH_DOMAIN_DISABLE (R446). -/
def execSchDomainDisable (s : State) : Host.Outcome State Fault Refusal :=
  .next (ownWrite s 0x6F00 0x01 (toBytes 1 0))

/-- SCH_REJOIN (R196). -/
def execSchRejoin (s : State) : Host.Outcome State Fault Refusal :=
  .next (ownWrite s 0x6F00 0x07 (toBytes 1 1))

/-- SCH_LEAP_REQUEST (R198). -/
def execSchLeapRequest (k : BitVec 8) (s : State) : Host.Outcome State Fault Refusal :=
  .next (ownWrite s 0x6F00 0x08 (toBytes 1 k.toNat))

/-- SCH_SWITCH_EPOCH (R177). -/
def execSchSwitchEpoch (epoch : BitVec 64) (s : State) : Host.Outcome State Fault Refusal :=
  .next (ownWrite s 0x6F00 0x0B (toBytes 8 epoch.toNat))

/-- TXN_OWN_PKG_WRITE (R220). -/
def execTxnOwnPkgWrite (pkg : BitVec 16) (s : State) : Host.Outcome State Fault Refusal :=
  .next (ownWrite s 0x7000 0x01 (toBytes 2 pkg.toNat))

/-- TXN_ABSENT_MAP_WRITE (R269): the rows given, the others empty. -/
def execTxnAbsentMapWrite (rows : List (BitVec 64)) (s : State) : Host.Outcome State Fault Refusal :=
  .next (ownWrite s 0x7000 0x05 (packBytes 8 ((List.range 64).map fun i => (rows.getD i 0).toNat)))

/-- RLC_ENABLE (R244). -/
def execRlcEnable (value : Bool) (s : State) : Host.Outcome State Fault Refusal :=
  .next (ownWrite s 0x8000 0x01 (toBytes 1 (b2n value)))

/-- RLC_WAYS_ENABLED (R244). -/
def execRlcWaysEnabled (mask : BitVec 16) (s : State) : Host.Outcome State Fault Refusal :=
  .next (ownWrite s 0x8000 0x03 (toBytes 2 mask.toNat))

/-- RLC_FLUSH (R244). -/
def execRlcFlush (s : State) : Host.Outcome State Fault Refusal :=
  .next (ownWrite s 0x8000 0x04 (toBytes 1 1))

/-- IFR_ABORT_RID (R290). -/
def execIfrAbortRid (value : BitVec 16) (s : State) : Host.Outcome State Fault Refusal :=
  .next (ownWrite s 0x9000 0x07 (toBytes 2 value.toNat))

/-- IFR_ENGINES_ENABLED (R294). -/
def execIfrEnginesEnabled (mask : BitVec 8) (s : State) : Host.Outcome State Fault Refusal :=
  .next (ownWrite s 0x9000 0x02 (toBytes 1 mask.toNat))

/-- ALIAS_ROW_WRITE (R328). -/
def execAliasRowWrite (row : Fin 16) (value : BitVec 64) (s : State) : Host.Outcome State Fault Refusal :=
  .next (ownWrite s 0xB100 (row + 1) (toBytes 8 value.toNat))

/-- SVC_CLOSE (R336). -/
def execSvcClose (value : BitVec 8) (s : State) : Host.Outcome State Fault Refusal :=
  .next (ownWrite s 0x0100 0x03 (toBytes 1 value.toNat))

/-- FW_PORT_MODE (R346). -/
def execFwPortMode (q : PortId) (mode : BitVec 8) (s : State) : Host.Outcome State Fault Refusal :=
  .next (ownWrite s (0xC200 + 16 * q) 0x01 (toBytes 1 mode.toNat))

/-- CAP_COMPAT_LEVEL (R344). -/
def execCapCompatLevel (level : BitVec 8) (s : State) : Host.Outcome State Fault Refusal :=
  .next (ownWrite s 0xC000 0x02 (toBytes 1 level.toNat))

/-- SUP_RESTART (R387). -/
def execSupRestart (s : State) : Host.Outcome State Fault Refusal :=
  .next (ownWrite s 0x1002 0x05 (toBytes 1 1))

/-- IRQ_CLEAR (R388). -/
def execIrqClear (mask : BitVec 32) (s : State) : Host.Outcome State Fault Refusal :=
  .next (ownWrite s 0x1001 0x02 (toBytes 4 mask.toNat))

/-- IXT_FUSE_WRITE (R420). -/
def execIxtFuseWrite (q : PortId) (b : BundleId) (value : BitVec 32) (s : State) :
    Host.Outcome State Fault Refusal :=
  .next (ownWrite s (0xE200 + 16 * q + b) 0x03 (toBytes 4 value.toNat))

/-- TRACE_ARM (R426). -/
def execTraceArm (s : State) : Host.Outcome State Fault Refusal :=
  .next (ownWrite s 0xE400 0x03 (toBytes 1 1))

/-- TRACE_STOP (R426). -/
def execTraceStop (s : State) : Host.Outcome State Fault Refusal :=
  .next (ownWrite s 0xE400 0x03 (toBytes 1 0))

/-- TRACE_MARK (R424). -/
def execTraceMark (value : BitVec 32) (s : State) : Host.Outcome State Fault Refusal :=
  .next (ownWrite s 0xE400 0x08 (toBytes 4 value.toNat))

/-! ### The Sideband Ring (R374–R382) -/

/-- The fields of a frame header (R375). -/
structure Frame where
  fkind : Nat
  txid : Nat
  dst : Nat
  src : Nat
  len : Nat
  index : Nat
  sub : Nat
  segoff : Nat
  status : Nat := 0
deriving DecidableEq, Repr

/-- The header that the first 12 bytes of a frame spell. -/
def frameOf (bytes : List Byte) : Frame :=
  let h := ofBytes (bytes.take 12)
  { fkind := bitsOf h 8 4, txid := bitsOf h 12 4, dst := bitsOf h 16 9, src := bitsOf h 25 9,
    len := bitsOf h 42 6, index := bitsOf h 48 16, sub := bitsOf h 64 8, segoff := bitsOf h 72 16,
    status := bitsOf h 88 8 }

/-- TTL of a frame. -/
def frameTtl (bytes : List Byte) : Nat := bitsOf (ofBytes (bytes.take 12)) 34 8

/-- Header bytes with a TTL. -/
def headerBytes (f : Frame) (ttl : Nat) : List Byte :=
  toBytes 12
    (field 0xA7 0 8 + field f.fkind 8 4 + field f.txid 12 4 + field f.dst 16 9 + field f.src 25 9
      + field ttl 34 8 + field f.len 42 6 + field f.index 48 16 + field f.sub 64 8 + field f.segoff 72 16
      + field f.status 88 8)

/-- Payload bytes that a frame carries: none for READ, READ_SEG and ABORT (R375). -/
def payloadLen (f : Frame) : Nat := if f.fkind = 1 ∨ f.fkind = 3 ∨ f.fkind = 5 then 0 else f.len

/-- The payload of a received frame. -/
def framePayload (bytes : List Byte) : List Byte := (bytes.drop 12).take (payloadLen (frameOf bytes))

/-- The CRC of a header and payload, with the bits of TTL taken as 0 (R376). -/
def frameCrc (header payload : List Byte) : Nat :=
  let h := ofBytes header
  let clear := h - field (bitsOf h 34 8) 34 8
  crc16 ((toBytes 12 clear).drop 1 ++ payload)

/-- The frame passes CRC (R376). -/
def frameGood (bytes : List Byte) : Bool :=
  let n := payloadLen (frameOf bytes)
  decide (bytes.length = 14 + n) && ofBytes ((bytes.drop (12 + n)).take 2) == frameCrc (bytes.take 12) (framePayload bytes)

/-- A frame as it is sent. -/
def mkFrame (f : Frame) (ttl : Nat) (payload : List Byte) : List Byte :=
  let h := headerBytes { f with len := payload.length } ttl
  h ++ payload ++ toBytes 2 (frameCrc h payload)

/-- Change the ring agent. -/
def State.modRing (s : State) (f : RingAgent → RingAgent) : State := { s with ring := f s.ring }

/-- `ring_ttl`. -/
def ringTtl (s : State) : Nat := s.get 0x1003 0x01 128

/-- The agent works on the ring: joined, on a powered and clocked AON (R382). -/
def ringOn (s : State) : Bool := s.ring.joined && !s.held.porst && !s.held.aonLost

/-- The frame is addressed to this agent or broadcast (R378). -/
def frameForMe (s : State) (f : Frame) : Bool := f.dst == siteAddress s || f.dst == 0x1FF

/-- A frame passes (R376, R377). -/
def forwardFrame (s : State) (bytes : List Byte) : State :=
  if !ringOn s then s
  else
    let ttl := frameTtl bytes
    let good := frameGood bytes
    let k := (frameOf bytes).fkind
    let v := ofBytes bytes
    let s := if good then s else s.bump 0x1003 0x02 1
    let s := if good ∧ frameForMe s (frameOf bytes) ∧ (k = 0 ∨ k = 6 ∨ k = 7 ∨ 10 ≤ k) then s.bump 0x1003 0x05 1 else s
    if ttl = 0 then (s.emit (.ring (toBytes bytes.length (v % 2 ^ 34)))).bump 0x1003 0x03 1
    else s.emit (.ring (toBytes bytes.length (v - 2 ^ 34)))

/-- RING_FRAME_FORWARD (R377). -/
def execRingFrameForward (frame : List Byte) (s : State) : Host.Outcome State Fault Refusal :=
  .next (forwardFrame s frame)

/-- A RESP waits to be sent; a fifth is discarded (R378). -/
def placeResp (s : State) (bytes : List Byte) : State :=
  if 4 ≤ s.ring.waiting.length then s.bump 0x1003 0x04 1
  else s.modRing fun r => { r with waiting := r.waiting ++ [bytes] }

/-- What makes two requests of a source equal (R380): everything but SYNC, TTL and STATUS. -/
def requestKey (bytes : List Byte) : List Byte :=
  let f := frameOf bytes
  toBytes 12
    (field f.fkind 8 4 + field f.txid 12 4 + field f.len 42 6 + field f.index 48 16 + field f.sub 64 8
      + field f.segoff 72 16) ++ framePayload bytes

/-- The RESP to a request (R375, R378). -/
def respFrame (s : State) (f : Frame) (r : Reply) : List Byte :=
  let body := if f.fkind = 1 ∨ f.fkind = 3 then toBytes 4 (r.size.getD (Config.unstatedSize s.now r.status).toNat) ++ r.bytes else []
  mkFrame { f with fkind := 8, dst := f.src, src := siteAddress s, status := r.status } (ringTtl s) body

/-- Remember the last request of a source, not yet answered (R380). -/
def keepRequest (s : State) (src : Nat) (key : List Byte) : State :=
  s.modRing fun r =>
    { r with kept := (r.kept.filter fun k => k.src != src) ++ [{ src := src, request := key, response := [], at_ := s.now }] }

/-- A served request is answered, and the answer kept (R378, R380). -/
def ringAnswer (s : State) (bytes : List Byte) (r : Reply) : State :=
  let f := frameOf bytes
  let resp := respFrame s f r
  let s := (s.bump64 0x1003 0x06 1).modRing fun g =>
    { g with kept := mapIf (fun k => k.src == f.src && k.request == requestKey bytes) (fun k => { k with response := resp })
                      g.kept }
  placeResp s resp

/-- Serve a request as the CFG command of its kind (R378). -/
def ringRun (s : State) (bytes : List Byte) : State :=
  let f := frameOf bytes
  let (s, r) := runCommand s .ring f.fkind f.index f.sub f.segoff f.len (framePayload bytes)
  ringAnswer s bytes r

/-- A request of this agent (R378–R380, R48, R368). -/
def ringServe (s : State) (kind : Nat) (bytes : List Byte) : State :=
  let f := frameOf bytes
  if !ringOn s ∨ s.held.refLost ∨ !frameGood bytes ∨ f.fkind ≠ kind ∨ !frameForMe s f then s
  else if f.dst = 0x1FF ∧ 3 ≤ kind then s.bump 0x1003 0x05 1
  else
    let key := requestKey bytes
    match s.ring.kept.find? fun k => k.src == f.src && k.request == key && decide (s.now < k.at_ + 1000000) with
    | some k => if k.response.isEmpty then s else placeResp s k.response
    | none =>
      let s := keepRequest s f.src key
      if inReset s then
        if kind = 5 then ringAnswer s bytes { status := stOk }
        else ringAnswer (countRefusal s stResetAbort) bytes { status := stResetAbort }
      else if needsSup s kind f.index f.sub ∧ !supReady s then
        (startCore s).modRing fun r => { r with later := r.later ++ [(s.now, bytes)] }
      else ringRun s bytes

/-- RING_READ (R378). -/
def execRingRead (frame : List Byte) (s : State) : Host.Outcome State Fault Refusal :=
  .next (ringServe s 1 frame)

/-- RING_WRITE (R378). -/
def execRingWrite (frame : List Byte) (s : State) : Host.Outcome State Fault Refusal :=
  .next (ringServe s 2 frame)

/-- RING_READ_SEG (R378). -/
def execRingReadSeg (frame : List Byte) (s : State) : Host.Outcome State Fault Refusal :=
  .next (ringServe s 3 frame)

/-- RING_WRITE_SEG (R378). -/
def execRingWriteSeg (frame : List Byte) (s : State) : Host.Outcome State Fault Refusal :=
  .next (ringServe s 4 frame)

/-- RING_ABORT (R378). -/
def execRingAbort (frame : List Byte) (s : State) : Host.Outcome State Fault Refusal :=
  .next (ringServe s 5 frame)

/-- The NOTICE that the agent owes is sent, at most one per 1 ms (R381). -/
def sendNotice (s : State) : State :=
  let due : Bool := match s.ring.noticeAt with
    | some t => decide (t + 1000000 ≤ s.now)
    | none => true
  if s.ring.noticeOwed ∧ ringOn s ∧ due then
    let f : Frame := { fkind := 9, txid := (Config.noticeTxid s.now).toNat, dst := 0x1C0, src := siteAddress s, len := 4,
                       index := 0x1001, sub := 0x01, segoff := 0 }
    (s.emit (.ring (mkFrame f (ringTtl s) (toBytes 4 (s.get 0x1001 0x01 0))))).modRing fun r =>
      { r with noticeOwed := false, noticeAt := some s.now }
  else s

/-- NOTICE (R381). -/
def execNotice (s : State) : Host.Outcome State Fault Refusal := .next (sendNotice s)

/-- RING_JOIN (R382). -/
def execRingJoin (s : State) : Host.Outcome State Fault Refusal :=
  .next (if s.held.porst ∨ s.held.aonLost then s else s.modRing fun r => { r with joined := true })

/-! ### The supervisor -/

/-- The commands that waited for the supervisor run in the order of their arrival at AON, the CFG command first among
those of one AON cycle (R44, R368). -/
def resumeCommands (s : State) : State :=
  if !supReady s then s
  else
    let before (x : Nat × List Byte) : Bool := decide (x.1 / 40 < s.cfg.since / 40)
    let early := if s.cfg.busy then s.ring.later.filter before else []
    let late := if s.cfg.busy then s.ring.later.filter (fun x => !before x) else s.ring.later
    let op := if s.cfg.busy then some s.cfg.op else none
    let s := early.foldl (fun s x => ringRun s x.2) (s.modRing fun r => { r with later := [] })
    let s := match op with
      | some op => cfgRun s op
      | none => s
    late.foldl (fun s x => ringRun s x.2) s

/-- WATCHDOG_EXPIRY (R387). -/
def execWatchdogExpiry (s : State) : Host.Outcome State Fault Refusal := .next (watchdog s)

/-- SUP_START (R387, R405): after a reset, or at the end of an outage. -/
def execSupStart (s : State) : Host.Outcome State Fault Refusal :=
  .next (if s.core = .running ∧ !inReset s ∧ !supRuns s then resumeCommands (supStarts s) else s)

end Sys2Proof.Machine
end

