-- ==== Sys2Proof/Machine/Caps.lean ====
section
/-!
DEFINITION. The UCIe firewall port (R348–R352): the two events of its PHY that the adapter reports as PARTNER_LOST.
-/

namespace Sys2Proof.Machine
open Sys2Proof

/-- PARTNER_LOST of a UCIe port (R352). -/
def ucieLost (s : State) (q : Nat) : State := if ucieMode s q then partnerLost s q else s

/-- UCIE_SIDEBAND_LOSS (R352). -/
def execUcieSidebandLoss (q : PortId) (s : State) : Host.Outcome State Fault Refusal := onPort s q (ucieLost s q)

/-- UCIE_LINKERROR (R352). -/
def execUcieLinkerror (q : PortId) (s : State) : Host.Outcome State Fault Refusal :=
  onPort s q (if ucieMode s q then partnerLost s q else s)

end Sys2Proof.Machine
end

