-- ==== Sys2Proof/Machine/Mgmt.lean ====
section
/-!
DEFINITION. Management transactions (R383, R384): how one reaches the Almanac of its target, and its completion.
-/

namespace Sys2Proof.Machine
open Sys2Proof

/-- INDEX, SUB, ALEN and MSEG of a management head. -/
def mgmtFields (t : Txn) : Nat × Nat × Nat × Nat :=
  match t.head with
  | .mgmt _ _ _ index sub alen mseg => (index.toNat, sub.toNat, alen.toNat, mseg.toNat)
  | _ => (0, 0, 0, 0)

/-- The status cell and the bytes read (R384), at the timestamp of the command. -/
def statusCell (now : Nat) (r : Reply) : List Byte :=
  toBytes 16 (field r.status 0 8 + field (r.size.getD (Config.unstatedSize now r.status).toNat) 16 32) ++ r.bytes

/-- The target refuses this kind of command (R384). -/
def remoteDenied (s : State) (op : Nat) : Bool :=
  if op = 1 ∨ op = 3 then s.get 0x1000 0x03 1 == 0 else s.get 0x1000 0x04 0 == 0

/-- The target serves a management command: 1 READ to 5 ABORT in place of MRD to MABT (R383, R384). One that needs
the supervisor waits where it is until the supervisor runs (R368). -/
def mgmtHere (s : State) (pl : Place) (w : Waiting) : State :=
  let op := w.txn.opc.toNat - 0x6F
  let (idx, sub, alen, mseg) := mgmtFields w.txn
  if needsSup s op idx sub ∧ !supReady s then startCore s
  else
    let (s, r) :=
      if remoteDenied s op then (countRefusal s stRemoteDenied, ({ status := stRemoteDenied } : Reply))
      else runCommand s .mgmt op idx sub mseg alen (cellsToBytes alen w.txn.data)
    (answerAt s pl w 0 0 (statusCell s.now r)).bump64 0x1004 0x01 1

/-- A management transaction at its place: from the own die through the steps of R219, from a link to its target. -/
def serveMgmt (s : State) (pl : Place) (w : Waiting) : State :=
  if placeIsIfi pl then
    if quiesced s w.txn.ten then answerAt s pl w 0x04 0 []
    else if heldBack s w then putAt s pl { w with step := 6 }
    else match destOf s w.txn with
      | .self => mgmtHere s pl w
      | .via ports => routeOut s pl w 0 ports
      | .bad st => answerAt s pl w st 0 []
  else targetOr s pl w fun s => mgmtHere s pl w

/-- MRD (R383). -/
def execMrd (pl : Place) (s : State) : Host.Outcome State Fault Refusal :=
  serveAt s pl 0x70 fun s w => serveMgmt s pl w

/-- MWR (R383). -/
def execMwr (pl : Place) (s : State) : Host.Outcome State Fault Refusal :=
  serveAt s pl 0x71 fun s w => serveMgmt s pl w

/-- MRDS (R383). -/
def execMrds (pl : Place) (s : State) : Host.Outcome State Fault Refusal :=
  serveAt s pl 0x72 fun s w => serveMgmt s pl w

/-- MWRS (R383). -/
def execMwrs (pl : Place) (s : State) : Host.Outcome State Fault Refusal :=
  serveAt s pl 0x73 fun s w => serveMgmt s pl w

/-- MABT (R383). -/
def execMabt (pl : Place) (s : State) : Host.Outcome State Fault Refusal :=
  serveAt s pl 0x74 fun s w => serveMgmt s pl w

end Sys2Proof.Machine
end

