-- ==== Sys2Proof/Machine/ReachBits.lean ====
section
/-!
DEFINITION. Codewords of a reach port as bits: the RS(544,514) code over GF(2¹⁰) (R93), the message of a codeword with
its header and section (R94, R95), striping over logical lanes (R94), and PAM4 with Gray mapping and precoding (R93).
-/

namespace Sys2Proof.Machine
open Sys2Proof

/-! ### GF(2¹⁰) (R93, log entry 115) -/

/-- Product of two field elements modulo x¹⁰ + x³ + 1, the second of `n` bits. -/
def gfMulBits : (n a b : Nat) → Nat
  | 0, _, _ => 0
  | n + 1, a, b =>
    let a' := if 512 ≤ a then ((2 * a) % 1024) ^^^ 9 else 2 * a
    (if b % 2 = 1 then a else 0) ^^^ gfMulBits n a' (b / 2)

/-- Product in GF(2¹⁰). -/
def gfMul (a b : Nat) : Nat := gfMulBits 10 a b

/-- Power with an exponent of `n` bits. -/
def gfPowBits : (n a e : Nat) → Nat
  | 0, _, _ => 1
  | n + 1, a, e =>
    let r := gfPowBits n (gfMul a a) (e / 2)
    if e % 2 = 1 then gfMul a r else r

/-- α^e for the primitive element α = 2, whose order is 1023. -/
def gfAlpha (e : Nat) : Nat := gfPowBits 10 2 (e % 1023)

/-- Inverse of a nonzero element. -/
def gfInv (a : Nat) : Nat := gfPowBits 10 a 1022

/-- Value of a polynomial, lowest coefficient first. -/
def gfEval (x : Nat) : List Nat → Nat
  | [] => 0
  | c :: cs => c ^^^ gfMul x (gfEval x cs)

/-! ### Parity (R93, R94) -/

/-- x times every one of the 30 symbols of a packed vector. -/
def packDouble (v : Nat) : Nat :=
  let ones := (2 ^ 300 - 1) / 1023
  let top := (v >>> 9) &&& ones
  ((v - (top <<< 9)) <<< 1) ^^^ (top * 9)

/-- A symbol of `n` bits times every symbol of a packed vector. -/
def packScale : (n fb v : Nat) → Nat
  | 0, _, _ => 0
  | n + 1, fb, v => (if fb % 2 = 1 then v else 0) ^^^ packScale n (fb / 2) (packDouble v)

/-- g(x) = Π (x + α^j), j = 0 to 29, without its term x³⁰; the coefficient of x^k in bits [10k + 9 : 10k]. -/
def rsGenLow : Nat := 0x8fe282ece68a0011b235468f99448417ad07bd81eb9f7dcd69c5262305881fcb927880d0a0b

/-- The remainder of a message times x³⁰ modulo g(x): symbol 0 first, as the highest power. -/
def rsRemainder (syms : List Nat) : Nat :=
  syms.foldl
    (fun r d => (r * 1024 % 2 ^ 300) ^^^ packScale 10 (d ^^^ (r >>> 290)) rsGenLow) 0

/-- The 30 parity symbols 514 to 543 of a message of 514 symbols, the highest power first. -/
def rsParity (syms : List Nat) : List Nat :=
  let r := rsRemainder syms
  (List.range 30).map fun i => bitsOf r (10 * (29 - i)) 10

/-! ### Decoding up to 15 symbol errors (R93, R96) -/

/-- Step of the Berlekamp–Massey search: σ, the previous σ, its length, the shift and the previous discrepancy. -/
structure BmState where
  sigma : List Nat := [1]
  prev : List Nat := [1]
  len : Nat := 0
  shift : Nat := 1
  disc : Nat := 1
deriving DecidableEq, Repr

/-- The sum of two polynomials. -/
def polyAdd : List Nat → List Nat → List Nat
  | [], ys => ys
  | xs, [] => xs
  | x :: xs, y :: ys => (x ^^^ y) :: polyAdd xs ys

/-- One more syndrome. -/
def bmStep (syn : List Nat) (b : BmState) (n : Nat) : BmState :=
  let d := (List.range (b.len + 1)).foldl (fun v i => v ^^^ gfMul (b.sigma.getD i 0) (syn.getD (n - i) 0)) 0
  if d = 0 then { b with shift := b.shift + 1 }
  else
    let c := gfMul d (gfInv b.disc)
    let next := polyAdd b.sigma (List.replicate b.shift 0 ++ b.prev.map (gfMul c))
    if 2 * b.len ≤ n then { sigma := next, prev := b.sigma, len := n + 1 - b.len, shift := 1, disc := d }
    else { b with sigma := next, shift := b.shift + 1 }

/-- The coefficients x⁰ to x^(n−1) of a product. -/
def polyMulLow (n : Nat) (xs ys : List Nat) : List Nat :=
  (List.range n).map fun k => (List.range (k + 1)).foldl (fun v i => v ^^^ gfMul (xs.getD i 0) (ys.getD (k - i) 0)) 0

/-- The derivative of a polynomial over a field of characteristic 2. -/
def polyDerive (xs : List Nat) : List Nat :=
  (List.range (xs.length - 1)).map fun i => if i % 2 = 0 then xs.getD (i + 1) 0 else 0

/-- The errors of a word by its syndromes: index and value of each wrong symbol, none when the word is uncorrectable. -/
def rsLocate (syn : List Nat) : Option (List (Nat × Nat)) :=
  let b := (List.range 30).foldl (bmStep syn) {}
  let roots := (List.range 544).filter fun i => gfEval (gfAlpha (1023 - (543 - i))) b.sigma == 0
  if 15 < b.len ∨ roots.length ≠ b.len then none
  else
    let omega := polyMulLow 30 syn b.sigma
    let deriv := polyDerive b.sigma
    some (roots.map fun i =>
      let x := gfAlpha (543 - i)
      let y := gfAlpha (1023 - (543 - i))
      (i, gfMul x (gfMul (gfEval y omega) (gfInv (gfEval y deriv)))))

/-- The errors of a received word of 544 symbols (R96); none when it is uncorrectable. -/
def rsErrors (syms : List Nat) : Option (List (Nat × Nat)) :=
  let r := rsRemainder (syms.take 514)
    ^^^ ((List.range 30).foldl (fun v i => v * 1024 + syms.getD (514 + i) 0) 0)
  if r = 0 then some []
  else rsLocate ((List.range 30).map fun j => gfEval (gfAlpha j) ((List.range 30).map fun k => bitsOf r (10 * k) 10))

/-! ### The message (R94) -/

/-- The 544 symbols of a received codeword. -/
def cwValues (c : Codeword) : List Nat :=
  (c.symbols.map BitVec.toNat ++ List.replicate (544 - c.symbols.length) 0).take 544

/-- Message bit j is bit j mod 10 of symbol ⌊j / 10⌋. -/
def ofSymbols (syms : List Nat) : Nat := syms.foldr (fun d v => d + 1024 * v) 0

/-- What the decoder makes of a received codeword: its message, whether it is uncorrectable, and the indices of the
corrected symbols. -/
structure Decoded where
  msg : Nat
  bad : Bool
  fixed : List Nat
deriving DecidableEq, Repr

/-- Decode a codeword (R96). -/
def cwDecode (c : Codeword) : Decoded :=
  let syms := cwValues c
  match rsErrors syms with
  | none => { msg := ofSymbols (syms.take 514), bad := true, fixed := [] }
  | some es =>
    { msg := es.foldl (fun m e => if e.1 < 514 then m ^^^ (e.2 <<< (10 * e.1)) else m) (ofSymbols (syms.take 514)),
      bad := false, fixed := es.map (·.1) }

/-- The codeword that a message is sent as: 514 message symbols and 30 of parity. -/
def codewordOf (msg : BitVec 5140) : Codeword :=
  let syms := (List.range 514).map fun i => bitsOf msg.toNat (10 * i) 10
  { symbols := (syms ++ rsParity syms).map (BitVec.ofNat 10) }

/-! ### Header and section (R95, R98) -/

/-- XOR of the nibbles [3:0], [7:4], [11:8] and [15:12] (R95). -/
def cwCheck (h : Nat) : Nat := bitsOf h 0 4 ^^^ bitsOf h 4 4 ^^^ bitsOf h 8 4 ^^^ bitsOf h 12 4

/-- CMARK and CCHK of a codeword header (R95). -/
def cwHeaderGood (h : Nat) : Bool := bitsOf h 0 8 == 0xC5 && bitsOf h 16 4 == cwCheck h

/-- A codeword header. -/
def cwHeader (second : Bool) (sv cctl : Nat) : Nat :=
  let h := 0xC5 + field (b2n second) 8 1 + field sv 9 3 + field cctl 12 4
  h + field (cwCheck h) 16 4

/-- A flit in a slot of a reach port: header, payload and CRC-32C, its FEC field zero (R95, R116). -/
def Flit.slotBits (f : Flit) (inverted : Bool) : Nat :=
  f.message + f.crc inverted * 2 ^ 1984

/-- The bits of a slot; without a flit it is sent as zero (R95). -/
def slotNat : Option (Flit × Bool) → Nat
  | some (f, inverted) => f.slotBits inverted
  | none => 0

/-- The message of the first codeword of a pair: slots 0, 1 and the first half of 2; the argument of a control code stands
in the FEC field of slot 0 (R95, R98). -/
def firstMessage (s0 s1 s2 : Option (Flit × Bool)) (cctl arg : Nat) : BitVec 5140 :=
  let sv := b2n s0.isSome + 2 * b2n s1.isSome + 4 * b2n s2.isSome
  let sec := slotNat s0 + field arg 2016 12 + slotNat s1 * 2 ^ 2048 + slotNat s2 % 2 ^ 1024 * 2 ^ 4096
  BitVec.ofNat 5140 (cwHeader false sv cctl + sec * 2 ^ 20)

/-- The message of the second codeword of a pair: the second half of slot 2, slots 3 and 4; the argument stands in the FEC
field of slot 3. -/
def secondMessage (s2 s3 s4 : Option (Flit × Bool)) (cctl arg : Nat) : BitVec 5140 :=
  let sv := b2n s2.isSome + 2 * b2n s3.isSome + 4 * b2n s4.isSome
  let sec := slotNat s2 / 2 ^ 1024 + (slotNat s3 + field arg 2016 12) * 2 ^ 1024 + slotNat s4 * 2 ^ 3072
  BitVec.ofNat 5140 (cwHeader true sv cctl + sec * 2 ^ 20)

/-! ### Lanes (R93, R94) -/

/-- The symbols that a logical lane of `w` carries of a codeword, in order: symbol i goes on lane i mod w (R94). -/
def laneSymbols (c : Codeword) (w lane : Nat) : List Nat :=
  ((List.range 544).filter fun i => i % w == lane).map fun i => (c.symbols.getD i 0).toNat

/-- Gray mapping of a bit pair to a level number: −3, −1, +1, +3 are 0 to 3, and the first bit of the pair is the less
significant (R93, log entry 116). -/
def grayLevel (pair : Nat) : Nat := match pair with | 0 => 0 | 2 => 1 | 3 => 2 | _ => 3

/-- The five UIs of a symbol, the least significant bit pair first (R94). -/
def symbolLevels (sym : Nat) : List Nat := (List.range 5).map fun i => grayLevel (bitsOf sym (2 * i) 2)

/-- 1/(1 + D) mod 4 precoding after the given last level (R93). -/
def precode : (last : Nat) → List Nat → List Nat
  | _, [] => []
  | last, g :: gs =>
    let p := (g + 4 - last) % 4
    p :: precode p gs

/-- The levels that a logical lane sends for a codeword; an inverted pair is corrected at its receiver (R91). -/
def laneLevels (c : Codeword) (w lane : Nat) (pre : Bool) (last : Nat) : List Nat :=
  let ls := ((laneSymbols c w lane).map symbolLevels).flatten
  if pre then precode last ls else ls

end Sys2Proof.Machine
end

