-- ==== Sys2Proof/Machine/ReachPhy.lean ====
section
/-!
DEFINITION. The commands of the reach PHY: training frames (R99–R102), lane losses (R105–R107) and codewords
(R94–R98).
-/

namespace Sys2Proof.Machine
open Sys2Proof

/-- XPH_PLL_LOCK (R99): RDY is reported in the training frames. -/
def execXphPllLock (q : PortId) (s : State) : Host.Outcome State Fault Refusal := onPort s q (pllLocks s q)

/-! ### Training frames (R100) -/

/-- XMARK and XCHK of a training frame header are correct. -/
def xframeGood (h : BitVec 64) : Bool :=
  h.extractLsb' 0 16 == 0x6A93
    && h.extractLsb' 60 4 == (List.range 15).foldl (fun c i => c ^^^ h.extractLsb' (4 * i) 4) (0 : BitVec 4)

/-- XSTEP, with 7–15 received as 0. -/
def xframeStep (h : BitVec 64) : Nat := let v := (h.extractLsb' 16 4).toNat; if 7 ≤ v then 0 else v

/-- XD2: the partner is there, and shows RDY or not (R99). The first frame of a detection with RSTF = 1 is counted as a
reset-hello (R155, log entry 112). -/
def detectFrame (s : State) (q : Nat) (h : BitVec 64) : State :=
  let s := if !(s.port q).partnerHello ∧ h.getLsbD 25 then s.pbump 0x5002 q 0x0C 1 else s
  leaveDetect (s.modPort q fun p =>
    { p with partnerHello := true, partnerRdy := p.partnerRdy || h.getLsbD 26 }) q

/-- A request for a tap of the own transmitter and its result XEQS: 1 applied, 2 at the limit (R100). Settings lie between 0
and the limit; none is refused. -/
def applyEq (req : BitVec 4) (ln : Lane) : Lane :=
  let tap := (req.extractLsb' 0 2).toNat
  let v := ln.taps.getD tap 0
  let set_ (v r : Nat) : Lane := { ln with taps := setAt tap v ln.taps, eqs := r }
  match (req.extractLsb' 2 2).toNat with
  | 0 => ln
  | 1 => if Config.tapMax tap ≤ v then { ln with eqs := 2 } else set_ (v + 1) 1
  | 2 => if v = 0 then { ln with eqs := 2 } else set_ (v - 1) 1
  | _ => set_ (Config.tapPreset tap) 1

/-- What a good training frame tells of its lane: the sender's lane, and in XT2 a request for the own transmitter of the same
lane number (R100, log entry 119). -/
def noteFrame (l : Nat) (h : BitVec 64) (p : Port) : Port :=
  let ln := { p.lanes.getD l {} with peer := some (h.extractLsb' 21 4).toNat }
  let ln := if p.step = .xt2 ∧ xframeStep h = 2 then applyEq (h.extractLsb' 28 4) ln else ln
  { p with lanes := setAt l ln p.lanes, txPre := if p.step = .xt2 then h.getLsbD 34 else p.txPre }

/-- A frame in a training state: an abort (R102, R142), or the completion of a step, with L and the minimum width
in the XA3 frame (R100). RDY in XT1 shows that the partner can train fast (R101). -/
def trainFrame (s : State) (q l : Nat) (h : BitVec 64) : State :=
  let xabt := (h.extractLsb' 52 4).toNat
  if !trains s q then s
  else if xabt ≠ 0 then attemptFails s q (if xabt = 1 then 8 else if xabt = 2 then 9 else 7)
  else
    let s := s.modPort q fun p =>
      { noteFrame l h p with
        fastOk := if p.step = .xt1 then p.fastOk || h.getLsbD 26 else p.fastOk,
        partnerMin := if xframeStep h = 6 then 2 ^ (h.extractLsb' 28 4).toNat else p.partnerMin,
        partnerLoop := if xframeStep h = 6 ∧ h.getLsbD 20 then (h.extractLsb' 40 12).toNat else p.partnerLoop }
    let s := s.modPort q fun p =>
      if p.step = .xa3 ∧ p.doneSent then { p with loop := max p.loop p.partnerLoop } else p
    if h.getLsbD 20 ∧ xframeStep h = (s.port q).step.code then
      advanceStep (s.modPort q fun p => { p with doneRcvd := true }) q
    else s

/-- A training frame whose header passes its check, by link state (R100, R107, R109, R155, R156). While training,
RSTF = 1 is a reset-hello when the sender is in detection again, XSTEP = 0 (log entry 21). -/
def receiveXframe (s : State) (q l : Nat) (h : BitVec 64) : State :=
  let rstf := h.getLsbD 25
  if !xframeGood h then s
  else match (s.port q).state with
    | .off => s
    | .detect => detectFrame s q h
    | .hold => if rstf then acceptResetHello s q else acceptHoldHello s q
    | .train | .align => if rstf ∧ xframeStep h = 0 then acceptResetHello s q else trainFrame s q l h
    | .retrain => if rstf then acceptResetHello s q else trainFrame s q l h
    | .dormant => if rstf then acceptResetHello s q else if h.getLsbD 27 then answerWake s q else s
    | .param => if rstf ∧ xframeStep h = 0 then acceptResetHello s q else s
    | .active => if rstf then acceptResetHello s q else lateMessage s q
    | _ => if rstf then acceptResetHello s q else s

/-- TRAINING_FRAME (R100). -/
def execTrainingFrame (q : PortId) (lane : LaneId) (header : BitVec 64) (s : State) :
    Host.Outcome State Fault Refusal := onLane s q lane (receiveXframe s q lane header)

/-- Latency markers are exchanged: in XA3, and in a wake of a reach port to check W (R102, R109). -/
def measures (s : State) (q : Nat) : Bool :=
  let p := s.port q
  (trains s q && p.step == .xa3) || (Config.isReach q && p.state == .dormant && p.wakeAt.isSome)

/-- A latency marker is answered with an ECHO frame of its number; an echo gives one loop value t₁ − t₀ − TURN (R102). -/
def receiveMarker (s : State) (q : Nat) (echo : Bool) (lmk turn sentAt : Nat) : State :=
  if !measures s q then s
  else if echo then s.modPort q fun p => { p with loops := (p.loops ++ [s.now - sentAt - turn]).take 16 }
  else s.modPort q fun p =>
    { p with once := p.once ++ [{ lmk := lmk, echo := true, since := s.now }],
             onceAt := if p.once.isEmpty then s.now else p.onceAt }

/-- LATENCY_MARKER (R102). -/
def execLatencyMarker (q : PortId) (echo : Bool) (lmk : BitVec 4) (turn : BitVec 12) (sentAt : Nat)
    (s : State) : Host.Outcome State Fault Refusal := onPort s q (receiveMarker s q echo lmk.toNat turn.toNat sentAt)

/-! ### Lane losses (R105–R107) -/

/-- Lanes in use: the assigned ones; while training, before XA1 assigns them, those that pass or have been lost (R91,
R105). -/
def lanesInUse (p : Port) : List Nat :=
  if p.rxLanes.isEmpty then
    (List.range p.lanes.length).filter fun l => (p.lanes.getD l {}).pass || (p.lanes.getD l {}).lost
  else p.rxLanes

/-- A lane declares a loss. In training it is excluded; in HOLD it is recorded for the next training; when every
lane in use has declared within 128 cc, PARTNER_LOST is reported, which in HOLD only starts the detectors again (R105,
R107, log entry 120). -/
def declareLaneLoss (s : State) (q l : Nat) : State :=
  let p := s.port q
  if !watches p ∨ !(lanesInUse p).contains l ∨ (p.lanes.getD l {}).lost then s
  else
    let training := p.state == .train || p.state == .align || p.state == .param || p.state == .retrain
    let t0 := p.lossAt.getD s.now
    let s := s.modPort q fun p => { p with lossAt := some t0 }
    let s := s.modLane q l fun ln => { ln with lost := true, state := 4, pass := if training then false else ln.pass }
    let p := s.port q
    if (lanesInUse p).all (fun i => (p.lanes.getD i {}).lost) ∧ s.now ≤ t0 + 128 then
      if p.state = .hold then s.modPort q holdFields else partnerLost s q
    else if training ∧ p.state ≠ .retrain then noneRemains s q
    else s

/-- LANE_LOSS (R105). -/
def execLaneLoss (q : PortId) (l : LaneId) (s : State) : Host.Outcome State Fault Refusal :=
  onLane s q l (declareLaneLoss s q l)

/-- The window ends with a lane in use still healthy: LANE_LOST requests one LINK_FULL (R105, R107, R147). -/
def closeLaneWindow (s : State) (q : Nat) : State :=
  let p := s.port q
  let healthy := (lanesInUse p).any fun l => !(p.lanes.getD l {}).lost
  if p.lossAt = none ∨ !(p.lanes.any (·.lost)) ∨ !healthy then s
  else
    let s := s.modPort q fun p => { p with lossAt := none }
    match p.state with
    | .active => requestFull s q 2 true
    | .retrain => requestFull s q 12 true
    | _ => s

/-- LANE_LOST (R105). -/
def execLaneLost (q : PortId) (s : State) : Host.Outcome State Fault Refusal := onPort s q (closeLaneWindow s q)

/-- LANE_DEGRADED (R105): the lane is marked unless the threshold is 0, and stays in use. -/
def execLaneDegraded (q : PortId) (l : LaneId) (s : State) : Host.Outcome State Fault Refusal :=
  onLane s q l
    (if s.get (0x4000 + 256 * xidx q) 0x09 2240 ≠ 0 ∧ ((s.port q).lanes.getD l {}).state = 1 then
      s.modLane q l fun ln => { ln with state := 5 }
    else s)

/-! ### Codewords (R94–R98) -/

/-- A whole slot of a section: flag of validity, then the slot's bits. -/
def slotFlit (bad : Bool) (valid : Bool) (bits : Nat) : List RxFlit :=
  if bad || valid then [{ bits := BitVec.ofNat 2048 bits, bundle := 0, slotBad := bad }] else []

/-- Slots go on to the link layer in ACTIVE only; the halves are kept from ALIGN on (R96, R151). -/
def handOn (p : Port) (fs : List RxFlit) : List RxFlit := if p.state = .active then p.slotsIn ++ fs else p.slotsIn

/-- The first codeword of a pair hands on slots 0 and 1 and keeps its half of slot 2 (R95, R96). -/
def firstHalf (p : Port) (sec : BitVec 5120) (sv : BitVec 3) (bad : Bool) : Port :=
  { p with cwHalf := some (sec, bad, sv),
           slotsIn := handOn p (slotFlit bad (sv.getLsbD 0) (bitsOf sec.toNat 0 2048)
             ++ slotFlit bad (sv.getLsbD 1) (bitsOf sec.toNat 2048 2048)) }

/-- The second codeword completes slot 2, bad when either half or the SV bits disagree, and hands on slots 3 and
4 (R95, R96). -/
def secondHalf (p : Port) (sec : BitVec 5120) (sv : BitVec 3) (bad : Bool) : Port :=
  let (h, hbad, hsv) := p.cwHalf.getD (0, true, 0)
  let bad2 := bad || hbad || hsv.getLsbD 2 != sv.getLsbD 0
  { p with cwHalf := none,
           slotsIn := handOn p (
             slotFlit bad2 (sv.getLsbD 0) (bitsOf h.toNat 4096 1024 + 2 ^ 1024 * bitsOf sec.toNat 0 1024)
             ++ slotFlit bad (sv.getLsbD 1) (bitsOf sec.toNat 1024 2048)
             ++ slotFlit bad (sv.getLsbD 2) (bitsOf sec.toNat 3072 2048)) }

/-- The control code of a good codeword, with the argument that the FEC field of slot 0 or 3 carries (R98): a sleep
request for NAP is one for a state that a reach port does not have. -/
def actOnCctl (s : State) (q code arg : Nat) : State :=
  match code with
  | 0 => s
  | 1 => receiveSleepReq s q (if arg % 4 = 1 then .nap else .dormant)
  | 2 => receiveSleepAck s q .dormant
  | 3 => sleepRefused s q
  | 4 => requestFull s q 5 false
  | 5 => requestRetrain s q false
  | _ => s.bump (0x4000 + 256 * xidx q) 0x0D 1

/-- Argument of the control code of a codeword: bits [11:0] of the FEC field of slot 0, or of slot 3 in the second of a pair
(R98). -/
def cctlArg (sec : Nat) (second : Bool) : Nat := bitsOf sec (if second then 1024 + 2016 else 2016) 12

/-- The states in which codewords arrive: from ALIGN onwards (R94). -/
def holdsCodewords (p : Port) : Bool :=
  match p.state with
  | .align | .param | .active | .hold => true
  | .retrain => p.step == .xa1 || p.step == .xa2 || p.step == .xa3 || p.step == .idle
  | _ => false

/-- The statistics of a decoded codeword (R96): each corrected symbol counts at the lane that carried it. -/
def countCorrected (s : State) (q : Nat) (d : Decoded) : State :=
  let i := 0x4000 + 256 * xidx q
  let s := if d.bad then s.bump i 0x07 1 else s
  let s := s.bump64 i 0x08 d.fixed.length
  s.modPort q fun p =>
    let w := if p.rxLanes.isEmpty then 1 else p.rxLanes.length
    let laneOf (k : Nat) : Nat := p.rxLanes.getD (k % w) 0
    obsAdd 61 d.fixed.length
      { p with lanes := (List.range p.lanes.length).map fun l =>
          let ln := p.lanes.getD l {}
          { ln with errors := satAdd 64 ln.errors (d.fixed.filter fun k => laneOf k == l).length } }

/-- A codeword is decoded and its header checked (R96): statistics, lock, flit slots and control code. A codeword whose
header fails has no readable CWB: it is taken as the second of its pair when a first waits, else as the first (log
entry 121). The control code of a codeword that is uncorrectable or whose header fails is neither acted on nor counted (log
entry 122). -/
def receiveCodeword (s : State) (q : Nat) (cw : Codeword) : State :=
  let d := cwDecode cw
  let hdr := bitsOf d.msg 0 20
  let good := cwHeaderGood hdr
  let bad := d.bad || !good
  let s := countCorrected s q d
  let s := s.modPort q fun p => { p with cwBad := if good then 0 else p.cwBad + 1 }
  if (s.port q).cwBad ≥ 4 then requestRetrain (s.modPort q fun p => { p with cwBad := 0 }) q true
  else
    let sec := BitVec.ofNat 5120 (d.msg / 2 ^ 20)
    let sv := BitVec.ofNat 3 (bitsOf hdr 9 3)
    let second := if good then bitAt hdr 8 else (s.port q).cwHalf.isSome
    let s := s.modPort q fun p => if second then secondHalf p sec sv bad else firstHalf p sec sv bad
    if bad then s else actOnCctl s q (bitsOf hdr 12 4) (cctlArg sec.toNat second)

/-- CODEWORD (R96). -/
def execCodeword (q : PortId) (cw : Codeword) (s : State) : Host.Outcome State Fault Refusal :=
  onPort s q (if holdsCodewords (s.port q) then receiveCodeword s q cw else s)

end Sys2Proof.Machine
end

