-- ==== Sys2Proof/Machine/Resets.lean ====
section
/-!
DEFINITION. Resets, supplies and the core clock (R46–R50, R391–R395, R401–R407): what each reset empties and clears,
the start-up steps, the DIE_ALIAS scan (R329), and the stop and start of CORE.
-/

namespace Sys2Proof.Machine
open Sys2Proof

/-! ### What a reset empties and clears -/

/-- A port emptied: its supply and a test that holds it OFF are not the reset's. -/
def emptyPort (e : Config.Elab) (q : Nat) (p : Port) : Port :=
  { freshPort e q with supply := p.supply, testHeld := p.testHeld }

/-- Everything that an instance reset empties (R404), with its pins parked (R60): the buffers, stores and trackers, the
ports and the live states. Almanac values, AON and the test port stay. The wake pattern follows
from the port's state, so a reset of the same cc leaves none (R62). -/
def emptied (s : State) : State :=
  let b := State.cold s.elab_ s.fuses s.strapDie s.strapRole s.strapPos
  { b with die := s.die, role := s.role, alm := s.alm, tabs := s.tabs, counts := s.counts, now := s.now,
           held := s.held, core := s.core, coreAt := s.coreAt, resetAt := s.resetAt, ifiWake := s.ifiWake,
           cfg := s.cfg, ring := s.ring, svc := s.svc, repair := s.repair, tap := s.tap,
           sup := { s.sup with state := 0, boot := true },
           ifr := { removed := s.ifr.removed },
           ports := (List.range 10).map fun q => emptyPort s.elab_ q (s.port q),
           out := s.out, pending := s.pending }

/-- A reset of this strength (3 COLD, 2 WARM, 1 DIE) returns a class to its default (R401). -/
def clears (lvl : Nat) : Class → Bool
  | .v => true
  | .d => true
  | .w => decide (2 ≤ lvl)
  | .c => decide (3 ≤ lvl)
  | .f => false

/-- The class of the entry whose value a key holds. -/
def classOf (key : Nat) : Class :=
  let l := locate (key / 256)
  match catalog.find? fun e => e.base == l.base && decide (e.sub ≤ key % 256) && decide (key % 256 ≤ e.subEnd) with
  | some e => e.cls
  | none => .v

/-- Almanac values of the classes that a reset clears return to their defaults (R365, R401, R407). -/
def clearEntries (lvl : Nat) (s : State) : State :=
  { s with alm := s.alm.filter fun x => !clears lvl (classOf x.1),
           tabs := s.tabs.filter fun x => !clears lvl (classOf x.1),
           counts := [],
           tap := { s.tap with stat := 0 } }

/-- Class W state that lives outside the entries: the patch bank, and field repair (R332, R387). -/
def clearW (s : State) : State :=
  { s with sup := {}, repair := {}, ifr := { s.ifr with removed := 0 } }

/-- Class C state that lives outside the entries, and the CFG window and ring agent (R335, R382, R393, R443). -/
def clearC (s : State) : State :=
  { s with now := 0, svc := List.replicate 32 {}, cfg := {}, ring := { joined := s.ring.joined },
           fuses := { s.fuses with mapsAtCold := s.fuses.maps } }

/-! ### DIE_ALIAS (R329) -/

/-- The failed site of a row, and its spare site, as role and position. -/
def aliasFailed (r : Nat) : Nat × Nat := (bitsOf r 0 3, bitsOf r 8 6)
/-- The spare site of a row. -/
def aliasSpare (r : Nat) : Nat × Nat := (bitsOf r 16 3, bitsOf r 24 6)

/-- The valid rows in index order. -/
def aliasRows (s : State) : List Nat :=
  ((List.range 16).map fun i => mgetD s.fuses.alias_ i 0).filter fun r => bitAt r 40

/-- The last of the valid rows that names this site as spare, with the rows behind it. -/
def adoptingRow (site : Nat × Nat) : List Nat → Option (Nat × List Nat)
  | [] => none
  | r :: rs => if aliasSpare r = site then some (r, rs) else adoptingRow site rs

/-- The scan at COLD: the site retires, adopts the identity of a failed site, or keeps its own. A later row that names
the adopted site as failed again passes the identity on and retires this spare. -/
def aliasScan (s : State) : State :=
  let site := (s.strapRole.toNat, s.strapPos.toNat)
  let rows := aliasRows s
  if rows.any fun r => aliasFailed r == site then s.put 0xB100 0x11 0 1
  else match adoptingRow site rows with
    | none => s
    | some (r, later) =>
      if later.any fun x => aliasFailed x == aliasFailed r then s.put 0xB100 0x11 0 1
      else { s.put 0xB100 0x11 0 2 with die := BitVec.ofNat 8 (bitsOf r 32 8), role := BitVec.ofNat 3 (bitsOf r 0 3) }

/-! ### CORE (R38, R391, R405) -/

/-- The ingress channels. -/
def ingChannels : List IngCh := [.req, .inr, .snp, .msg, .sch, .red]

/-- IFI_READY rises: the adapter grants its depths and 16 events; the die has granted nothing yet (R35, R38, R39). -/
def grantCredits (s : State) : State :=
  let outs := (ingChannels.map fun ch => Output.ifiCredit ch (ingDepth s ch)) ++ [Output.evtCredit 16]
  { s with ifiReady := true, icr := ingChannels.map (ingDepth s), ecr := List.replicate 6 0,
           evtIcr := 16, evtCr := 0, rr := 2, out := s.out ++ outs }

/-- Ports that may leave OFF do, and commands that waited for the supervisor run. -/
def coreWork (s : State) : State := resumeCommands ((List.range 10).foldl leaveOff s)

/-- CORE runs: step S4 of R405 after a reset, or the end of a stop. -/
def coreUp (s : State) : State := coreWork (grantCredits { s with core := .running })

/-- IFI_READY falls and both sides' credits are 0 (R38). -/
def ifiDown (s : State) : State :=
  { s with ifiReady := false, icr := List.replicate 6 0, ecr := List.replicate 6 0, evtIcr := 0, evtCr := 0 }

/-! ### Assertion -/

/-- Commands accepted before a reset end with RESET_ABORT (R48, R372); transfers are discarded. -/
def abortCommands (s : State) : State :=
  let s := { s with xfers := [] }
  let s := if s.cfg.busy then cfgAborted s else s
  s.ring.later.foldl (fun s x => ringAnswer (countRefusal s stResetAbort) x.2 { status := stResetAbort })
    (s.modRing fun r => { r with later := [] })

/-- The adapter is held: commands end, everything is emptied and the pins are parked. -/
def halt (s : State) : State := emptied (abortCommands s)

/-- Change the reset inputs. -/
def State.modHeld (s : State) (f : ResetsHeld → ResetsHeld) : State := { s with held := f s.held }

/-- PORST_N asserts: AON stops and the agent leaves the ring (R48, R55, R443). -/
def assertPorst (s : State) : State :=
  let s := s.modHeld fun h => { h with porst := true, worst := 3 }
  { emptied { s with xfers := [] } with cfg := {}, ring := {}, core := .stopped }

/-- WRST_N asserts. -/
def assertWrst (s : State) : State := halt (s.modHeld fun h => { h with wrst := true, worst := max h.worst 2 })

/-- DRST_N asserts. -/
def assertDrst (s : State) : State := halt (s.modHeld fun h => { h with drst := true, worst := max h.worst 1 })

/-- RESET_INPUT_ASSERT (R48). -/
def execResetInputAssert (input : ResetInput) (s : State) : Host.Outcome State Fault Refusal :=
  .next (match input with
    | .porst => assertPorst s
    | .wrst => assertWrst s
    | .drst => assertDrst s)

/-! ### Release -/

/-- COLD beyond the classes: the captured identity, the alias scan, and the record of an illegal strap (R49, R50, R329). -/
def coldSteps (s : State) : State :=
  let s := aliasScan { s with die := s.strapDie, role := s.strapRole }
  if 6 ≤ s.strapRole.toNat then s.service 0x01 0 0 0 s.strapRole.toNat else s

/-- A reset of a strength is performed; `cause` is what `last_reset` takes (R403, R405, R407). -/
def performReset (s : State) (lvl cause : Nat) : State :=
  let s := clearEntries lvl (emptied s)
  let s := if 2 ≤ lvl then clearW s else s
  let s := if 3 ≤ lvl then coldSteps (clearC s) else s
  let s := s.put 0x2103 0x01 0 cause
  let s := { s with resetAt := s.now, sup := { s.sup with state := 1, boot := true } }
  let s := s.modHeld fun h => { h with worst := 0, refSeen := false }
  if s.core = .running then coreUp s else { s with core := .starting, coreAt := s.now }

/-- An input is released: while another input, or a loss, still holds the adapter it stays in reset (R48). -/
def releaseReset (s : State) : State :=
  if inReset s then s
  else if s.held.worst = 3 then performReset s 3 0
  else if s.held.worst = 2 then (performReset s 2 (if s.held.refSeen then 3 else 1)).bump 0xD000 0x07 1
  else if s.held.worst = 1 then (performReset s 1 (if s.held.refSeen then 3 else 2)).bump 0xD000 0x08 1
  else s

/-- COLD_RESET (R405): PORST_N is released with these straps; its assertion comes first where it has not been seen. -/
def execColdReset (dieId : Die) (role : BitVec 3) (pos : BitVec 6) (s : State) : Host.Outcome State Fault Refusal :=
  let s := if s.held.porst then s else assertPorst s
  let s := s.modHeld fun h => { h with porst := false, aonLost := false, refLost := false, vddLost := false }
  .next (releaseReset { s with strapDie := dieId, strapRole := role, strapPos := pos })

/-- WARM_RESET (R407): WRST_N is released. -/
def execWarmReset (s : State) : Host.Outcome State Fault Refusal :=
  let s := if s.held.wrst then s else assertWrst s
  .next (releaseReset (s.modHeld fun h => { h with wrst := false }))

/-- DIE_RESET (R407): DRST_N is released. -/
def execDieReset (s : State) : Host.Outcome State Fault Refusal :=
  let s := if s.held.drst then s else assertDrst s
  .next (releaseReset (s.modHeld fun h => { h with drst := false }))

/-! ### Reference and supplies -/

/-- What the loss of REFCLK makes of the CFG port: a command in progress, and one whose OP write has not been
acknowledged, ends with RESET_ABORT, and every CFG_ACK owed comes two AON cycles after REFCLK has returned (R48); until
then the timestamp stands. -/
def cfgAtLoss (s : State) : State :=
  let open_ := s.cfg.busy || s.cfg.acks.any (·.2)
  s.modCfg fun c =>
    { c with status := if open_ then BitVec.ofNat 8 stResetAbort else c.status,
             acks := (if c.busy && !c.acks.any (·.2) then c.acks ++ [(0, true)] else c.acks).map fun a => (s.now + 80, a.2) }

/-- REFERENCE_LOSS (R46): pins parked, AON and CORE stand still. -/
def execReferenceLoss (s : State) : Host.Outcome State Fault Refusal :=
  .next (if s.held.refLost then s
    else { halt (cfgAtLoss (s.modHeld fun h => { h with refLost := true, refSeen := true })) with core := .stopped })

/-- REFCLK edges have returned: a DIE reset with relock, unless a reset input asks for its own (R46, R48). -/
def refclkReturns (s : State) : State :=
  if !s.held.refLost then s
  else
    let s := (s.modHeld fun h => { h with refLost := false }).bump 0x2103 0x02 1
    if inReset s then s.put 0x2103 0x01 0 3
    else if s.held.worst ≠ 0 then releaseReset s
    else performReset s 1 3

/-- REFCLK_RETURN (R46). -/
def execRefclkReturn (s : State) : Host.Outcome State Fault Refusal := .next (refclkReturns s)

/-- The die stands in its package's unified address map (R50, R329, R406): its first port has reached ACTIVE
(`pm_startup_ns` is set then), and it is no spare site without an alias, no retired site and no illegal strap. -/
def inAddressMap (s : State) : Bool :=
  s.get 0xD000 0x05 0 != 0 && decide (s.strapRole.toNat < 6) && s.get 0xB100 0x11 0 != 1
    && (s.strapRole != 4 || s.get 0xB100 0x11 0 == 2)

/-- VDD_CORE_LOSS (R395): under a reset input the adapter is parked already and nothing is to be counted. -/
def execVddCoreLoss (s : State) : Host.Outcome State Fault Refusal :=
  .next (if s.held.porst ∨ s.held.wrst ∨ s.held.drst then { s with core := .stopped }
    else if s.held.vddLost then s
    else { halt (s.modHeld fun h => { h with vddLost := true }) with core := .stopped })

/-- VDD_CORE is valid again: counted, and a DIE reset with relock (R395, R403). -/
def vddReturns (s : State) : State :=
  if !s.held.vddLost then s
  else
    let s := (s.modHeld fun h => { h with vddLost := false }).bump 0xD000 0x09 1
    if inReset s then s
    else if s.held.worst ≠ 0 then releaseReset s
    else performReset s 1 2

/-- VDD_CORE_RETURN (R395). -/
def execVddCoreReturn (s : State) : Host.Outcome State Fault Refusal := .next (vddReturns s)

/-- VDD_AON_LOSS (R60, R395): every pin unpowered, the ring bypassed, the test port reset; COLD follows. -/
def execVddAonLoss (s : State) : Host.Outcome State Fault Refusal :=
  let s := s.modHeld fun h => { h with aonLost := true, worst := 3 }
  let s := { emptied { s with xfers := [] } with cfg := {}, ring := {}, tap := {}, core := .stopped }
  .next { s with ports := s.ports.map fun (p : Port) => { p with testHeld := false } }

/-- A port's supply goes off: the port is treated as OFF (R59, R142). -/
def supplyOff (s : State) (q : Nat) : State :=
  let s := s.modPort q fun p => { p with supply := false }
  if (s.port q).state = .off then s else enterOff s q

/-- PORT_SUPPLY_OFF (R142). -/
def execPortSupplyOff (q : PortId) (s : State) : Host.Outcome State Fault Refusal := onPort s q (supplyOff s q)

/-- PORT_SUPPLY_ON (R59). -/
def execPortSupplyOn (q : PortId) (s : State) : Host.Outcome State Fault Refusal :=
  onPort s q (leaveOff (s.modPort q fun p => { p with supply := true }) q)

/-! ### The core clock -/

/-- The core PLL declares lock (R391): CORE is usable, and outside reset it goes to work. -/
def coreLocks (s : State) : State :=
  if s.core ≠ .starting then s
  else
    let s := s.put 0xD000 0x04 0 (min (s.now - s.coreAt) 0xFFFFFFFF)
    if inReset s then { s with core := .running } else coreUp s

/-- CORE_PLL_LOCK (R391). -/
def execCorePllLock (s : State) : Host.Outcome State Fault Refusal := .next (coreLocks s)

/-- The conditions of R392; the supervisor's start after a reset counts as its work. -/
def mayStop (s : State) : Bool :=
  (s.ports.all fun (p : Port) => p.state == .off || (p.state == .dormant && p.wakeAt.isNone))
    && !domainOn s
    && s.rlc.miss.isEmpty && s.rlc.victims.isEmpty && s.home.track.isEmpty
    && (s.ifr.rids.all fun x => x.2.aborted) && parkUsed s == 0
    && s.ingress.isEmpty && s.egress.isEmpty && !s.ifiWake
    && !s.cfg.busy && s.ring.later.isEmpty && !s.sup.boot
    && s.get 0xD000 0x02 1 == 1

/-- CORE_STOP (R392). -/
def execCoreStop (s : State) : Host.Outcome State Fault Refusal :=
  .next (if s.core = .running ∧ !inReset s ∧ mayStop s then
      ((ifiDown s).bump 0xD000 0x03 1 |> fun s => { s with core := .stopped })
    else s)

end Sys2Proof.Machine
end

