-- ==== Sys2Proof/Machine/TapUnit.lean ====
section
/-!
DEFINITION. The test access port: its instructions and data registers (R409–R413), the loopback test and its results
(R414, R415), the memory test (R416) and TESTSTAT (R417).
-/

namespace Sys2Proof.Machine
open Sys2Proof

/-- Change the test access port. -/
def State.modTap (s : State) (f : Tap → Tap) : State := { s with tap := f s.tap }

/-- The ports that an instruction holds in OFF (R412): every wire port under EXTEST, the masked ports under IXTEST. -/
def tapHolds (instr : BitVec 8) (mask : BitVec 16) (q : Nat) : Bool :=
  (instr == 0x00 && decide (q < 8)) || (instr == 0x08 && mask.getLsbD q && decide (q < 10))

/-- A port as the current instruction wants it: held in OFF, or released (R412). -/
def holdPort (s : State) (q : Nat) : State :=
  let want := tapHolds s.tap.instr s.tap.ixMask q && s.elab_.portBuilt q
  if want = (s.port q).testHeld then s
  else
    let s := s.modPort q fun p => { p with testHeld := want }
    if !want then leaveOff s q else if (s.port q).state = .off then s else enterOff s q

/-- Bits of TESTSTAT with one of them set to a value. -/
def statBit (stat i : Nat) (v : Bool) : Nat := stat - field (bitsOf stat i 1) i 1 + field (b2n v) i 1

/-- TESTSTAT with FIRST (R417). -/
def statFirst (stat v : Nat) : Nat := stat - field (bitsOf stat 8 8) 8 8 + field v 8 8

/-- An instruction becomes current (R409, R412). Leaving IXTEST ends its patterns. -/
def setInstr (s : State) (code : BitVec 8) (mask : BitVec 16) : State :=
  let s := s.modTap fun t =>
    { t with instr := code, ixMask := mask, stat := if code = 0x08 then t.stat else statBit t.stat 0 false }
  (List.range 10).foldl holdPort s

/-- Cells of the boundary register (R411). -/
def boundaryLength (s : State) : Nat := 144 * sumNat s.elab_.bundles + 6

/-- A vector as long as the boundary register. -/
def boundaryFit (s : State) (v : List Bool) : List Bool := (List.range (boundaryLength s)).map fun i => v.getD i false

/-- The value and length of the selected data register, for the registers whose content the spec gives (R409, R410,
R413, R414, R416, R417). -/
def tapRegister (s : State) : Option (Nat × Nat) :=
  match s.tap.instr.toNat with
  | 0x01 => some (idcodeOf s, 32)
  | 0x08 => some (s.tap.ixMask.toNat, 16)
  | 0x09 => some (s.tap.mbist.toNat, 8)
  | 0x0A => some (s.tap.stat, 32)
  | 0x10 => some (b2n s.tap.secen, 1)
  | _ => none

/-- EXTEST (R412): the boundary register drives the bumps and captures them. -/
def execExtest (drive capture : List Bool) (s : State) : Host.Outcome State Fault Refusal :=
  let d := boundaryFit s drive
  .next (((setInstr s 0x00 0).modTap fun t => { t with boundary := d, captured := boundaryFit s capture }).emit (.bumps d))

/-- IDCODE (R410). -/
def execIdcode (s : State) : Host.Outcome State Fault Refusal := .next (setInstr s 0x01 0)

/-- SAMPLE/PRELOAD (R409). -/
def execSamplePreload (preload capture : List Bool) (s : State) : Host.Outcome State Fault Refusal :=
  .next ((setInstr s 0x02 0).modTap fun t =>
    { t with boundary := boundaryFit s preload, captured := boundaryFit s capture })

/-- The masked ports that are built. -/
def ixPorts (s : State) : List Nat := (List.range 10).filter fun q => s.tap.ixMask.getLsbD q && s.elab_.portBuilt q

/-- The loopback patterns start at Update-DR (R414). -/
def startIxtest (s : State) (control : BitVec 16) : State :=
  let s := setInstr s 0x08 (BitVec.ofNat 16 (control.toNat % 2 ^ 10))
  s.modTap fun t => { t with stat := statFirst (statBit (statBit t.stat 0 (!(ixPorts s).isEmpty)) 1 false) 0 }

/-- IXTEST (R414). -/
def execIxtest (control : BitVec 16) (s : State) : Host.Outcome State Fault Refusal := .next (startIxtest s control)

/-- The fault code that L1–L4 give a wire (R415). -/
def dcCode (w : WireObs) : Nat :=
  if !w.inL2 || !w.ownL3 then 1 else if w.inL1 || w.ownL4 then 2 else if w.otherL3 || !w.otherL4 then 3 else 0

/-- L5 runs for this wire: for CLKP and CLKN only when both pass L1–L4 (R415). -/
def runsL5 (ws : List WireObs) (w : WireObs) : Bool :=
  if w.wire = 68 ∨ w.wire = 69 then
    (ws.filter fun x => x.q == w.q && x.b == w.b && (x.wire == 68 || x.wire == 69)).all fun x => dcCode x == 0
  else true

/-- The fault code of a wire (R415). -/
def ixCode (s : State) (ws : List WireObs) (w : WireObs) : Nat :=
  let dc := dcCode w
  if dc ≠ 0 then dc
  else if runsL5 ws w && w.parityL5 then 4
  else if w.eye < s.pget 0x3000 w.q 0x08 20 then 5
  else if w.eye < s.pget 0x3000 w.q 0x07 28 then 6
  else 0

/-- The result of a wire enters `ixt_result`. -/
def storeWire (ws : List WireObs) (s : State) (w : WireObs) : State :=
  s.modBundle w.q w.b fun b =>
    let old := if b.ixt.isEmpty then List.replicate 72 0 else b.ixt
    { b with ixt := setAt w.wire (BitVec.ofNat 16 (ixCode s ws w + field w.eye 8 8)) old }

/-- The symbol errors of a lane enter `ixt_lane_errors`. -/
def storeLane (s : State) (l : LaneObs) : State :=
  s.modLane l.q l.l fun x => { x with ixtErrors := min l.errors 0xFFFFFFFF }

/-- The patterns end (R415). -/
def endIxtest (s : State) (wires : List WireObs) (lanes : List LaneObs) : State :=
  if !bitAt s.tap.stat 0 then s
  else
    let ws := wires.filter fun w =>
      (ixPorts s).contains w.q && decide (w.q.val < 8) && decide (w.b.val < s.elab_.units w.q) && decide (w.wire < 72)
    let ls := lanes.filter fun l => (ixPorts s).contains l.q && decide (8 ≤ l.q.val) && decide (l.l.val < s.elab_.units l.q)
    let bad (q : Nat) : Bool :=
      (ws.any fun w => w.q.val == q && decide (1 ≤ ixCode s ws w) && decide (ixCode s ws w ≤ 5))
        || ls.any fun l => l.q.val == q && decide (1000 < l.errors)
    let first := (List.range 10).find? bad
    let t := ls.foldl storeLane (ws.foldl (storeWire ws) s)
    t.modTap fun t => { t with stat := statFirst (statBit (statBit t.stat 0 false) 1 first.isSome) (first.getD 0) }

/-- IXTEST_DONE (R415). -/
def execIxtestDone (wires : List WireObs) (lanes : List LaneObs) (s : State) : Host.Outcome State Fault Refusal :=
  .next (endIxtest s wires lanes)

/-- CORE runs for the memory test (R416): a stopped core PLL starts where REFCLK and the supplies allow it. -/
def coreForTest (s : State) : State :=
  if s.core = .stopped ∧ !s.held.refLost ∧ !s.held.aonLost ∧ !s.held.vddLost then
    { s with core := .starting, coreAt := s.now }
  else s

/-- MBIST (R416): it runs only with PORST_N released and DRST_N asserted. -/
def execMbist (select : BitVec 8) (s : State) : Host.Outcome State Fault Refusal :=
  let s := (setInstr s 0x09 0).modTap fun t => { t with mbist := select }
  .next (if !s.held.porst && s.held.drst then
      (coreForTest s).modTap fun t => { t with stat := statFirst (statBit (statBit t.stat 2 true) 3 false) 0 }
    else s.modTap fun t => { t with stat := statBit t.stat 3 true })

/-- The memory test ends: the failing structures among those selected, the first found first (R416, R417). -/
def endMbist (s : State) (failing : List (BitVec 8)) : State :=
  if !bitAt s.tap.stat 2 then s
  else
    let bad := failing.filter fun c => c != 0 && decide (c.toNat < 8) && s.tap.mbist.getLsbD c.toNat
    s.modTap fun t =>
      { t with stat := statFirst (statBit (statBit t.stat 2 false) 3 (!bad.isEmpty)) (bad.headD 0).toNat }

/-- MBIST_DONE (R416). -/
def execMbistDone (failing : List (BitVec 8)) (s : State) : Host.Outcome State Fault Refusal :=
  .next (endMbist s failing)

/-- TESTSTAT (R417). -/
def execTeststat (s : State) : Host.Outcome State Fault Refusal := .next (setInstr s 0x0A 0)

/-- STACKCFG (R413): SECEN exists on the base of a stack. -/
def execStackcfg (secen : Bool) (s : State) : Host.Outcome State Fault Refusal :=
  .next ((setInstr s 0x10 0).modTap fun t => { t with secen := s.elab_.stackBase && secen })

/-- BYPASS (R409), which every unlisted code selects. -/
def execBypass (_code : BitVec 8) (s : State) : Host.Outcome State Fault Refusal := .next (setInstr s 0xFF 0)

/-- TEST_LOGIC_RESET (R409, R413). -/
def execTestLogicReset (s : State) : Host.Outcome State Fault Refusal :=
  .next ((setInstr s 0x01 0).modTap fun t => { t with secen := false })

end Sys2Proof.Machine
end

