-- ==== Sys2Proof/Machine/Tenancy.lean ====
section
/-!
DEFINITION. Tenancy control: QUIESCE with its park and drain, READMIT, and the end of a drain (R298, R303–R311).
-/

namespace Sys2Proof.Machine
open Sys2Proof

/-- Set the state of a tenancy; ADMITTED is stored as nothing (R298). -/
def setTen (s : State) (t : Ten) (st : Nat) : State :=
  { s with ten := { s.ten with st := if st = 0 then mdel s.ten.st t.toNat else mset s.ten.st t.toNat st } }

/-- A QUIESCE or READMIT without effect (R298, R308, R311). -/
def ignoreEvent (s : State) : State := s.bump 0xA001 0x07 1

/-! ### The park (R303, R304) -/

/-- A transaction of the tenancy in the REQ or MSG ingress buffer that is not committed. -/
def parkable (t : Ten) (x : IngCh × Waiting) : Bool :=
  (x.1 == .req || x.1 == .msg) && x.2.txn.ten == t && x.2.txn.opc != 0x21 && x.2.txn.opc != 0x80

/-- Put a transaction into the park store, or complete it with QUIESCED when it does not fit (R304). -/
def parkOne (s : State) (ch : IngCh) (w : Waiting) : State :=
  if w.parked || decide (parkUsed s + w.txn.size ≤ s.elab_.parkCells) then
    { s with ten := { s.ten with park := s.ten.park ++ [(ch, { w with parked := true })] } }
  else answerSource (s.bump 0xA001 0x05 1) w 0x04 0 []

/-- A request of the own die that waits in an RLC miss entry, as it stood in the REQ buffer. -/
def unservedReq (r : LineReq) : Waiting :=
  { txn := { r.txn with head := match r.txn.head with | .mem fen _ len g => .mem fen true len g | h => h },
    seq := r.seq, step := 8, gpa := r.txn.gpa }

/-- The request of the RLC has not been committed to a port: it has no TAG (R225). -/
def uncommittedMiss (m : Miss) : Bool := m.port.isNone

/-- A tenancy's own requests among those that wait on a line. -/
def parkedReq (t : Ten) (r : LineReq) : Bool := r.proxy.isNone && r.txn.ten == t

/-- Park requests that waited on a line. -/
def parkReqs (s : State) (rs : List LineReq) : State :=
  rs.foldl (fun s r => parkOne s .req { (unservedReq r) with parked := false }) s

/-- Requests of the tenancy leave a miss entry whose coherence request is not committed; an entry left without
requests goes, with its queued coherence request (R303). -/
def parkMiss (t : Ten) (s : State) (m : Miss) : State :=
  if !uncommittedMiss m then s
  else
    let out := m.waiting.filter (parkedReq t)
    let keep := m.waiting.filter fun r => !parkedReq t r
    if out.isEmpty then s
    else
      let s := if keep.isEmpty && m.evict.isNone then
          { (delMiss s m.la) with
            ports := s.ports.map fun (p : Port) =>
              { p with waitq := p.waitq.filter fun w => !(w.line == some m.la && w.txn.opc == m.opc) } }
        else modMiss s m.la fun x => { x with waiting := keep }
      parkReqs s out

/-- Requests of the tenancy leave a victim-buffer entry behind whose WBACK they wait (R303). -/
def parkVictim (t : Ten) (s : State) (v : Victim) : State :=
  let keep := v.waiting.filter fun r => !parkedReq t r
  parkReqs
    { s with rlc := { s.rlc with victims := mapIf (fun x => x.la == v.la) (fun x => { x with waiting := keep }) s.rlc.victims } }
    (v.waiting.filter (parkedReq t))

/-- Insert by acceptance order. -/
def insertParked (x : IngCh × Waiting) : List (IngCh × Waiting) → List (IngCh × Waiting)
  | [] => [x]
  | y :: ys => if x.2.seq < y.2.seq then x :: y :: ys else y :: insertParked x ys

/-- All work of the tenancy that is parked, in issue order; the credits of its cells return. -/
def parkAll (s : State) (t : Ten) : State :=
  let out := s.ingress.filter (parkable t)
  let s := { s with ingress := s.ingress.filter fun x => !parkable t x }
  let s := out.foldl (fun s x => parkOne (s.creditDie x.1 (ingCells x.1 x.2)) x.1 x.2) s
  let s := s.rlc.miss.foldl (parkMiss t) s
  let s := s.rlc.victims.foldl (parkVictim t) s
  { s with ten := { s.ten with park := s.ten.park.foldl (fun l x => insertParked x l) [] } }

/-- Assigned SCH payloads of the tenancy are refused with REASON 3 (R303). -/
def refuseSch (s : State) (t : Ten) : State :=
  (List.range 10).foldl
    (fun s q => ((s.port q).assigned.filter fun a => a.ten == t).foldl (fun s a => unassign s q a 3) s) s

/-! ### The drain (R305, R306) -/

/-- A TAG whose request counts in the drain: not a semaphore wait, not a proxied message of the hub (R303). -/
def drainTag (t : Ten) (i : TagInfo) : Bool :=
  i.ten == t && i.opc != 0x32 && i.opc != 0x36 && (match i.use_ with | .die => true | .rlc _ => true | _ => false)

/-- Scheduled flits of a tenancy that are accepted and not yet placed on the link. -/
def drainSched (t : Ten) (p : Port) : Nat :=
  (p.schedOut.filter fun f => match p.cal[f.1.slot.toNat]? with | some r => calTen r == t | none => false).length

/-- Blocks of started reductions and CACKs of a tenancy that wait for flit assembly. -/
def drainQueued (t : Ten) (p : Port) : Nat :=
  (p.waitq.filter fun w => w.txn.ten == t && (isRed w.txn.opc || w.txn.opc == 0x46)).length

/-- Items of non-preemptible work of a tenancy (R303). -/
def drainItems (s : State) (t : Ten) : Nat :=
  sumNat (s.ports.map fun p => (p.tags.filter fun x => drainTag t x.2).length + drainSched t p + drainQueued t p)
    + (s.localTags.filter fun x => drainTag t x.2).length

/-- QUIESCE_DONE with its accounting (R305, R310). -/
def quiesceDone (s : State) (t : Ten) (earg : Nat) : State :=
  let s := s.bump64 0xA001 0x02 earg
  let s := if s.get 0xA001 0x03 0 < earg then s.put 0xA001 0x03 0 earg else s
  let s := { s with counts := mset s.counts (0x10000 + t.toNat) earg }
  s.evt 0x81 t (BitVec.ofNat 32 earg)

/-- The tenancy is admitted again: its parked transactions stand ahead of its later ones (R308). -/
def readmitTen (s : State) (t : Ten) : State :=
  let mine (x : IngCh × Waiting) : Bool := x.2.txn.ten == t
  let back := s.ten.park.filter mine
  let s := { s with ten := { s.ten with park := s.ten.park.filter fun x => !mine x }, ingress := back ++ s.ingress }
  setTen s t 0

/-- The drain of a tenancy ends (R305); a READMIT that was held takes effect after it (R308). -/
def endDrain (s : State) (d : Drain) (earg : Nat) : State :=
  let s := setTen { s with ten := { s.ten with drains := s.ten.drains.filter fun x => x.ten != d.ten } } d.ten 2
  let s := quiesceDone s d.ten earg
  if d.readmit then readmitTen s d.ten else s

/-- The drain of a tenancy in progress. -/
def drainOf (s : State) (t : Ten) : Option Drain := s.ten.drains.find? fun d => d.ten == t

/-- QUIESCE of an ADMITTED tenancy (R305). -/
def startDrain (s : State) (t : Ten) : State :=
  let s := (setTen s t 1).bump 0xA001 0x01 1
  let s := { s with ten := { s.ten with drains := s.ten.drains ++ [{ ten := t, at_ := s.now, readmit := false }] } }
  quiesceSems (refuseSch (parkAll s t) t) t

/-- QUIESCE (R298, R305, R311). -/
def execQuiesce (ten : Ten) (s : State) : Host.Outcome State Fault Refusal :=
  if !s.ifiReady then .next s
  else
    let s := takeEvt s 1 ten
    let st := tenState s ten.toNat
    .next (if ten = 0 ∨ st = 1 then ignoreEvent s
      else if st = 2 then quiesceDone s ten 0
      else startDrain s ten)

/-- READMIT (R308). -/
def execReadmit (ten : Ten) (s : State) : Host.Outcome State Fault Refusal :=
  if !s.ifiReady then .next s
  else
    let s := takeEvt s 2 ten
    let st := tenState s ten.toNat
    .next (if ten = 0 ∨ st = 0 then ignoreEvent s
      else if st = 1 then
        { s with ten := { s.ten with drains := mapIf (fun d => d.ten == ten) (fun d => { d with readmit := true }) s.ten.drains } }
      else readmitTen s ten)

/-- DRAIN_END (R305): no counted work remains. -/
def execDrainEnd (ten : Ten) (s : State) : Host.Outcome State Fault Refusal :=
  match drainOf s ten with
  | some d => .next (if drainItems s ten = 0 then endDrain s d (min (s.now - d.at_) 8000) else s)
  | none => .next s

/-- DRAIN_BOUND (R306): 8,000 cc have passed; what remains is detached. -/
def execDrainBound (ten : Ten) (s : State) : Host.Outcome State Fault Refusal :=
  match drainOf s ten with
  | some d =>
    let n := drainItems s ten
    .next (if n = 0 then endDrain s d 8000
      else endDrain (((s.bump 0xA001 0x04 n).bump 0xA001 0x06 1).irq 6) d 8000)
  | none => .next s

end Sys2Proof.Machine
end

