-- ==== Sys2Proof/Machine/Twin.lean ====
section
/-!
DEFINITION. Twin pairs: the control cells of R322 and R323, leaving and rejoining (R319, R320), the dual-action
window (R321) and the notice of a pair on one unit (R319).
-/

namespace Sys2Proof.Machine
open Sys2Proof

/-- The wire port of a unit of a pair. -/
def unitPort (s : State) (k : Nat) (unitB : Bool) : Nat := if unitB then pairB s k else pairA s k

/-- Perform an event of a pair that is in force; of another pair no event can occur (R312). -/
def onPair (s : State) (k : Nat) (t : State) : Host.Outcome State Fault Refusal :=
  if s.elab_.twin then .next (if pairValid s k then t else s) else .fault .noSuchUnit

/-- The four entries of a TCREDIT cell: VC and RC_v of the sender (R322). -/
def tcreditEntries (c : Cell) : List (Nat × Nat) :=
  (List.range 4).map fun e => ((c.extractLsb' (24 * e + 16) 4).toNat, (c.extractLsb' (24 * e + 24) 16).toNat)

/-- One entry of a TCREDIT cell (R321): the cells not applied yet are applied, anything else is a duplicate. -/
def applyTcredit (k l : Nat) (s : State) (x : Nat × Nat) : State :=
  if x.1 = 0 then s
  else
    let n := (x.2 + 65536 - (s.twins.getD k {}).av.getD x.1 0) % 65536
    if 1 ≤ n ∧ n ≤ 32767 then applyReturn s l x.1 n else s.bump (0xB300 + 16 * k) 0x0A 1

/-- TCREDIT (R321). At a port of no pair the cell is unknown (log entry 38). -/
def takeTcredit (s : State) (l : Nat) : State :=
  match ctrlHead s l 8, pairOf s l with
  | some c, some k => (tcreditEntries c.cell).foldl (applyTcredit k l) (dropCtrl s l)
  | some _, none => (dropCtrl s l).pbump 0x5001 l 0x11 1
  | none, _ => s

/-- TCREDIT (R321, R322). -/
def execTcredit (q : PortId) (s : State) : Host.Outcome State Fault Refusal := onPort s q (takeTcredit s (logical s q))

/-- The partner asks for a unit to be taken out of its pair (R319, R323, R324). The last merged unit recovers as an
ordinary port does on a request of its partner. -/
def takeOut (s : State) (u : Nat) : State :=
  match pairOf s u with
  | none => s
  | some k =>
    match roleOf s k u with
    | .out => s
    | .catchup => unitLeaves s u
    | _ => if siblingMerged s u then unitLeaves s u else requestFull s u 5 false

/-- TOUT: OPORT names a unit of the own pair; a cell that names no unit of it is ignored. -/
def takeTout (s : State) (l : Nat) : State :=
  match ctrlHead s l 9, pairOf s l with
  | some c, some k =>
    let u := (c.cell.extractLsb' 8 4).toNat
    let s := dropCtrl s l
    if u = pairA s k ∨ u = pairB s k then takeOut s u else s
  | some _, none => (dropCtrl s l).pbump 0x5001 l 0x11 1
  | none, _ => s

/-- TOUT (R323). -/
def execTout (q : PortId) (s : State) : Host.Outcome State Fault Refusal := onPort s q (takeTout s (logical s q))

/-- A unit has stayed OUT for `twin_out_notice` cc (R319). -/
def outNotice (s : State) (k : Nat) (unitB : Bool) : State :=
  let u := unitPort s k unitB
  if roleOf s k u = .out ∧ s.get (0xB300 + 16 * k) 0x09 10000000 ≠ 0 then s.service 0x21 7 k 0 u else s

/-- TWIN_OUT_NOTICE (R319). -/
def execTwinOutNotice (k : PairId) (unitB : Bool) (s : State) : Host.Outcome State Fault Refusal :=
  onPair s k (outNotice s k unitB)

/-- Steps 3 and 4 of R320 end: the unit may join at the next boundary, or stays OUT when its read point cannot be
shifted. -/
def copyDone (s : State) (k : Nat) (unitB aligned : Bool) : State :=
  let u := unitPort s k unitB
  if roleOf s k u ≠ .catchup then s
  else if aligned then s.modPair k fun pr => if unitB then { pr with readyB := true } else { pr with readyA := true }
  else twinRecord (leavePair s u) k u 4

/-- BULK_COPY_DONE (R320). -/
def execBulkCopyDone (k : PairId) (unitB aligned : Bool) (s : State) : Host.Outcome State Fault Refusal :=
  onPair s k (copyDone s k unitB aligned)

/-- The unit has finished steps 3 and 4. -/
def copyReady (s : State) (k : Nat) (unitB : Bool) : Bool :=
  if unitB then (s.twins.getD k {}).readyB else (s.twins.getD k {}).readyA

/-- The join of R320 step 5: STANDBY, counted, and the dual-action window of 16 cc. Without a merged sibling the unit
goes back to step 3 (R324). -/
def joinPair (s : State) (k : Nat) (unitB : Bool) : State :=
  let u := unitPort s k unitB
  if roleOf s k u ≠ .catchup ∨ !copyReady s k unitB then s
  else
    let s := s.modPair k fun pr => if unitB then { pr with readyB := false } else { pr with readyA := false }
    if siblingMerged s u then
      ((setRole s k u .standby).modPair k fun pr => { pr with window := some (s.now + 16) }).bump (0xB300 + 16 * k) 0x08 1
    else s

/-- TWIN_JOIN (R320, R324). -/
def execTwinJoin (k : PairId) (unitB : Bool) (s : State) : Host.Outcome State Fault Refusal :=
  onPair s k (joinPair s k unitB)

/-- cc J + 16: the window ends with TCREDIT entries for every credited VC ahead of any header return (R321). -/
def windowEnds (s : State) (k : Nat) : State :=
  if inWindow s k then
    let cells := tcreditCells s k
    (s.modPair k fun pr => { pr with window := none }).modPort (pairA s k)
      fun p => { p with ctrlOut := cells ++ p.ctrlOut }
  else s

/-- DUAL_ACTION_END (R321). -/
def execDualActionEnd (k : PairId) (s : State) : Host.Outcome State Fault Refusal := onPair s k (windowEnds s k)

end Sys2Proof.Machine
end

