-- ==== Sys2Proof/Machine/Dispatch.lean ====
section
/-!
DEFINITION. The dispatch: each command to its meaning.
-/

namespace Sys2Proof.Machine
open Sys2Proof

/-- The effect of a command on everything but the queue of waiting commands. -/
def exec (i : Instr) (s : State) : Host.Outcome State Fault Refusal :=
  match i with
  | .ifiIngressTransaction cells => Sys2Proof.Machine.execIfiIngressTransaction cells s
  | .ifiEgressFill => Sys2Proof.Machine.execIfiEgressFill s
  | .ifiCreditReturn field n => Sys2Proof.Machine.execIfiCreditReturn field n s
  | .ifiWake high => Sys2Proof.Machine.execIfiWake high s
  | .quiesce ten => Sys2Proof.Machine.execQuiesce ten s
  | .readmit ten => Sys2Proof.Machine.execReadmit ten s
  | .evtUnknownCode ecode => Sys2Proof.Machine.execEvtUnknownCode ecode s
  | .drainEnd ten => Sys2Proof.Machine.execDrainEnd ten s
  | .drainBound ten => Sys2Proof.Machine.execDrainBound ten s
  | .cfgNoOperation op => Sys2Proof.Machine.execCfgNoOperation op s
  | .cfgRead => Sys2Proof.Machine.execCfgRead s
  | .cfgWrite => Sys2Proof.Machine.execCfgWrite s
  | .cfgReadSeg => Sys2Proof.Machine.execCfgReadSeg s
  | .cfgWriteSeg => Sys2Proof.Machine.execCfgWriteSeg s
  | .cfgAbort => Sys2Proof.Machine.execCfgAbort s
  | .cfgWordWrite word data => Sys2Proof.Machine.execCfgWordWrite word data s
  | .segmentTransferTimeout path => Sys2Proof.Machine.execSegmentTransferTimeout path s
  | .almanacWrite index sub bytes => Sys2Proof.Machine.execAlmanacWrite index sub bytes s
  | .resetInputAssert input => Sys2Proof.Machine.execResetInputAssert input s
  | .coldReset dieId role pos => Sys2Proof.Machine.execColdReset dieId role pos s
  | .warmReset => Sys2Proof.Machine.execWarmReset s
  | .dieReset => Sys2Proof.Machine.execDieReset s
  | .referenceLoss => Sys2Proof.Machine.execReferenceLoss s
  | .refclkReturn => Sys2Proof.Machine.execRefclkReturn s
  | .vddCoreLoss => Sys2Proof.Machine.execVddCoreLoss s
  | .vddCoreReturn => Sys2Proof.Machine.execVddCoreReturn s
  | .strapSample dieId role pos => Sys2Proof.Machine.execStrapSample dieId role pos s
  | .thermalSample local1 local2 below1 below2 => Sys2Proof.Machine.execThermalSample local1 local2 below1 below2 s
  | .thermalOverload => Sys2Proof.Machine.execThermalOverload s
  | .corePllLock => Sys2Proof.Machine.execCorePllLock s
  | .coreStop => Sys2Proof.Machine.execCoreStop s
  | .ringJoin => Sys2Proof.Machine.execRingJoin s
  | .portSupplyOff q => Sys2Proof.Machine.execPortSupplyOff q s
  | .linkPortEnable q value => Sys2Proof.Machine.execLinkPortEnable q value s
  | .helloFrame q b frame => Sys2Proof.Machine.execHelloFrame q b frame s
  | .resetHello q => Sys2Proof.Machine.execResetHello q s
  | .wtxPllLock q => Sys2Proof.Machine.execWtxPllLock q s
  | .xphPllLock q => Sys2Proof.Machine.execXphPllLock q s
  | .trainStart q fastOk => Sys2Proof.Machine.execTrainStart q fastOk s
  | .stepDone q step => Sys2Proof.Machine.execStepDone q step s
  | .repairMap q b map tcrc => Sys2Proof.Machine.execRepairMap q b map tcrc s
  | .mapAck q b map => Sys2Proof.Machine.execMapAck q b map s
  | .trainingAbort q reason => Sys2Proof.Machine.execTrainingAbort q reason s
  | .fatalParityError q => Sys2Proof.Machine.execFatalParityError q s
  | .trainingRetry q => Sys2Proof.Machine.execTrainingRetry q s
  | .trainingFrame q lane header => Sys2Proof.Machine.execTrainingFrame q lane header s
  | .latencyMarker q echo lmk turn sentAt => Sys2Proof.Machine.execLatencyMarker q echo lmk turn sentAt s
  | .faultRetry q => Sys2Proof.Machine.execFaultRetry q s
  | .clockLoss q b => Sys2Proof.Machine.execClockLoss q b s
  | .trkLoss q b => Sys2Proof.Machine.execTrkLoss q b s
  | .bundleLost q => Sys2Proof.Machine.execBundleLost q s
  | .laneLoss q l => Sys2Proof.Machine.execLaneLoss q l s
  | .laneLost q => Sys2Proof.Machine.execLaneLost q s
  | .laneDegraded q l => Sys2Proof.Machine.execLaneDegraded q l s
  | .codeword q cw => Sys2Proof.Machine.execCodeword q cw s
  | .fifoDrift q b => Sys2Proof.Machine.execFifoDrift q b s
  | .keepalive q b => Sys2Proof.Machine.execKeepalive q b s
  | .trkWordInvalid q b word => Sys2Proof.Machine.execTrkWordInvalid q b word s
  | .sleepReq q target => Sys2Proof.Machine.execSleepReq q target s
  | .sleepAck q target => Sys2Proof.Machine.execSleepAck q target s
  | .sleepNak q => Sys2Proof.Machine.execSleepNak q s
  | .sleepReqTimeout q => Sys2Proof.Machine.execSleepReqTimeout q s
  | .sleepEntry q => Sys2Proof.Machine.execSleepEntry q s
  | .spareReq q b wire => Sys2Proof.Machine.execSpareReq q b wire s
  | .spareGo q b wire => Sys2Proof.Machine.execSpareGo q b wire s
  | .spareReqRepeat q b wire => Sys2Proof.Machine.execSpareReqRepeat q b wire s
  | .liveSwapTrigger q b wire => Sys2Proof.Machine.execLiveSwapTrigger q b wire s
  | .spareFailed q b group => Sys2Proof.Machine.execSpareFailed q b group s
  | .fullReq q => Sys2Proof.Machine.execFullReq q s
  | .retrainReq q => Sys2Proof.Machine.execRetrainReq q s
  | .retrainComplete q => Sys2Proof.Machine.execRetrainComplete q s
  | .ownPllLoss q => Sys2Proof.Machine.execOwnPllLoss q s
  | .pllLossParkEnd q => Sys2Proof.Machine.execPllLossParkEnd q s
  | .napWakePattern q => Sys2Proof.Machine.execNapWakePattern q s
  | .napWakeComplete q => Sys2Proof.Machine.execNapWakeComplete q s
  | .napWakeTimeout q silent => Sys2Proof.Machine.execNapWakeTimeout q silent s
  | .dormantWakeComplete q ok => Sys2Proof.Machine.execDormantWakeComplete q ok s
  | .signalDetect q => Sys2Proof.Machine.execSignalDetect q s
  | .reachWakeComplete q ok => Sys2Proof.Machine.execReachWakeComplete q ok s
  | .portWake q => Sys2Proof.Machine.execPortWake q s
  | .idleEntry q => Sys2Proof.Machine.execIdleEntry q s
  | .napIdleExpiry q => Sys2Proof.Machine.execNapIdleExpiry q s
  | .dormantIdleExpiry q => Sys2Proof.Machine.execDormantIdleExpiry q s
  | .pmWakePorts mask => Sys2Proof.Machine.execPmWakePorts mask s
  | .flitSlotFill q => Sys2Proof.Machine.execFlitSlotFill q s
  | .flitReceive q flits => Sys2Proof.Machine.execFlitReceive q flits s
  | .ackDelayExpiry q => Sys2Proof.Machine.execAckDelayExpiry q s
  | .ackTimeout q => Sys2Proof.Machine.execAckTimeout q s
  | .nakGuardExpiry q => Sys2Proof.Machine.execNakGuardExpiry q s
  | .creditDelayExpiry q => Sys2Proof.Machine.execCreditDelayExpiry q s
  | .creditTimeout q => Sys2Proof.Machine.execCreditTimeout q s
  | .credit q => Sys2Proof.Machine.execCredit q s
  | .unknownCtrl q => Sys2Proof.Machine.execUnknownCtrl q s
  | .linkResetReqRetrain q => Sys2Proof.Machine.execLinkResetReqRetrain q s
  | .linkResetReqFull q => Sys2Proof.Machine.execLinkResetReqFull q s
  | .offer q body => Sys2Proof.Machine.execOffer q body s
  | .echo q body => Sys2Proof.Machine.execEcho q body s
  | .commit q body => Sys2Proof.Machine.execCommit q body s
  | .paramAbort q => Sys2Proof.Machine.execParamAbort q s
  | .enterActive q => Sys2Proof.Machine.execEnterActive q s
  | .offerRepeat q => Sys2Proof.Machine.execOfferRepeat q s
  | .paramTimeout q => Sys2Proof.Machine.execParamTimeout q s
  | .stableActive q => Sys2Proof.Machine.execStableActive q s
  | .longHoldNotice q => Sys2Proof.Machine.execLongHoldNotice q s
  | .xphyPathDelayReset q => Sys2Proof.Machine.execXphyPathDelayReset q s
  | .epochFreeze => Sys2Proof.Machine.execEpochFreeze s
  | .epochHeadCell => Sys2Proof.Machine.execEpochHeadCell s
  | .epochBoundary => Sys2Proof.Machine.execEpochBoundary s
  | .schPayload k => Sys2Proof.Machine.execSchPayload k s
  | .slotAccept q slot => Sys2Proof.Machine.execSlotAccept q slot s
  | .schedFlit q => Sys2Proof.Machine.execSchedFlit q s
  | .deadline q slot => Sys2Proof.Machine.execDeadline q slot s
  | .beacon q => Sys2Proof.Machine.execBeacon q s
  | .leapReq q => Sys2Proof.Machine.execLeapReq q s
  | .tempo q => Sys2Proof.Machine.execTempo q s
  | .leapNotice q => Sys2Proof.Machine.execLeapNotice q s
  | .dfault q => Sys2Proof.Machine.execDfault q s
  | .voidCell q => Sys2Proof.Machine.execVoidCell q s
  | .schDomainEnable => Sys2Proof.Machine.execSchDomainEnable s
  | .schDomainDisable => Sys2Proof.Machine.execSchDomainDisable s
  | .schRejoin => Sys2Proof.Machine.execSchRejoin s
  | .schLeapRequest k => Sys2Proof.Machine.execSchLeapRequest k s
  | .schSwitchEpoch epoch => Sys2Proof.Machine.execSchSwitchEpoch epoch s
  | .rd pl => Sys2Proof.Machine.execRd pl s
  | .wr pl => Sys2Proof.Machine.execWr pl s
  | .wrp pl => Sys2Proof.Machine.execWrp pl s
  | .fence pl => Sys2Proof.Machine.execFence pl s
  | .aadd pl => Sys2Proof.Machine.execAadd pl s
  | .aand pl => Sys2Proof.Machine.execAand pl s
  | .aor pl => Sys2Proof.Machine.execAor pl s
  | .axor pl => Sys2Proof.Machine.execAxor pl s
  | .aswap pl => Sys2Proof.Machine.execAswap pl s
  | .acas pl => Sys2Proof.Machine.execAcas pl s
  | .amax pl => Sys2Proof.Machine.execAmax pl s
  | .amin pl => Sys2Proof.Machine.execAmin pl s
  | .amaxu pl => Sys2Proof.Machine.execAmaxu pl s
  | .aminu pl => Sys2Proof.Machine.execAminu pl s
  | .msg pl => Sys2Proof.Machine.execMsg pl s
  | .msgc pl => Sys2Proof.Machine.execMsgc pl s
  | .semInit pl => Sys2Proof.Machine.execSemInit pl s
  | .semSignal pl => Sys2Proof.Machine.execSemSignal pl s
  | .semWait pl => Sys2Proof.Machine.execSemWait pl s
  | .semTry pl => Sys2Proof.Machine.execSemTry pl s
  | .semRead pl => Sys2Proof.Machine.execSemRead pl s
  | .barInit pl => Sys2Proof.Machine.execBarInit pl s
  | .barArrive pl => Sys2Proof.Machine.execBarArrive pl s
  | .semFree pl => Sys2Proof.Machine.execSemFree pl s
  | .unknownOpcode pl => Sys2Proof.Machine.execUnknownOpcode pl s
  | .transactionCommit q => Sys2Proof.Machine.execTransactionCommit q s
  | .cpl pl => Sys2Proof.Machine.execCpl pl s
  | .inrCpl k => Sys2Proof.Machine.execInrCpl k s
  | .localHandover k => Sys2Proof.Machine.execLocalHandover k s
  | .txnOwnPkgWrite pkg => Sys2Proof.Machine.execTxnOwnPkgWrite pkg s
  | .crd pl => Sys2Proof.Machine.execCrd pl s
  | .crdx pl => Sys2Proof.Machine.execCrdx pl s
  | .cupg pl => Sys2Proof.Machine.execCupg pl s
  | .cwrl pl => Sys2Proof.Machine.execCwrl pl s
  | .cwb pl => Sys2Proof.Machine.execCwb pl s
  | .cevc pl => Sys2Proof.Machine.execCevc pl s
  | .cack pl => Sys2Proof.Machine.execCack pl s
  | .cfetch la => Sys2Proof.Machine.execCfetch la s
  | .gnt pl => Sys2Proof.Machine.execGnt pl s
  | .wback pl => Sys2Proof.Machine.execWback pl s
  | .snps pl => Sys2Proof.Machine.execSnps pl s
  | .snpx pl => Sys2Proof.Machine.execSnpx pl s
  | .snpi pl => Sys2Proof.Machine.execSnpi pl s
  | .snpf pl => Sys2Proof.Machine.execSnpf pl s
  | .snpr pl => Sys2Proof.Machine.execSnpr pl s
  | .srsp pl => Sys2Proof.Machine.execSrsp pl s
  | .srspr pl => Sys2Proof.Machine.execSrspr pl s
  | .fwd pl => Sys2Proof.Machine.execFwd pl s
  | .iack pl => Sys2Proof.Machine.execIack pl s
  | .directorySnoop k => Sys2Proof.Machine.execDirectorySnoop k s
  | .rlcEnable value => Sys2Proof.Machine.execRlcEnable value s
  | .rlcWaysEnabled mask => Sys2Proof.Machine.execRlcWaysEnabled mask s
  | .rlcFlush => Sys2Proof.Machine.execRlcFlush s
  | .rlcEviction => Sys2Proof.Machine.execRlcEviction s
  | .txnAbsentMapWrite rows => Sys2Proof.Machine.execTxnAbsentMapWrite rows s
  | .ropen k => Sys2Proof.Machine.execRopen k s
  | .rcont k => Sys2Proof.Machine.execRcont k s
  | .rblk pl => Sys2Proof.Machine.execRblk pl s
  | .rres pl => Sys2Proof.Machine.execRres pl s
  | .rabort k => Sys2Proof.Machine.execRabort k s
  | .blockStart rid => Sys2Proof.Machine.execBlockStart rid s
  | .blockStageResume => Sys2Proof.Machine.execBlockStageResume s
  | .ifrAbortRid value => Sys2Proof.Machine.execIfrAbortRid value s
  | .ifrEnginesEnabled mask => Sys2Proof.Machine.execIfrEnginesEnabled mask s
  | .residueError e residue => Sys2Proof.Machine.execResidueError e residue s
  | .ridMove rid => Sys2Proof.Machine.execRidMove rid s
  | .ridMoveEnd rid => Sys2Proof.Machine.execRidMoveEnd rid s
  | .tcredit q => Sys2Proof.Machine.execTcredit q s
  | .tout q => Sys2Proof.Machine.execTout q s
  | .twinOutNotice k unitB => Sys2Proof.Machine.execTwinOutNotice k unitB s
  | .bulkCopyDone k unitB aligned => Sys2Proof.Machine.execBulkCopyDone k unitB aligned s
  | .twinJoin k unitB => Sys2Proof.Machine.execTwinJoin k unitB s
  | .dualActionEnd k => Sys2Proof.Machine.execDualActionEnd k s
  | .sramRowFailed st unit words => Sys2Proof.Machine.execSramRowFailed st unit words s
  | .uncorrectableError loc => Sys2Proof.Machine.execUncorrectableError loc s
  | .aliasRowWrite row value => Sys2Proof.Machine.execAliasRowWrite row value s
  | .svcClose value => Sys2Proof.Machine.execSvcClose value s
  | .fwPortMode q mode => Sys2Proof.Machine.execFwPortMode q mode s
  | .capCompatLevel level => Sys2Proof.Machine.execCapCompatLevel level s
  | .firewallAdmit q k => Sys2Proof.Machine.execFirewallAdmit q k s
  | .ucieSidebandLoss q => Sys2Proof.Machine.execUcieSidebandLoss q s
  | .ucieLinkerror q => Sys2Proof.Machine.execUcieLinkerror q s
  | .ringFrameForward frame => Sys2Proof.Machine.execRingFrameForward frame s
  | .ringRead frame => Sys2Proof.Machine.execRingRead frame s
  | .ringWrite frame => Sys2Proof.Machine.execRingWrite frame s
  | .ringReadSeg frame => Sys2Proof.Machine.execRingReadSeg frame s
  | .ringWriteSeg frame => Sys2Proof.Machine.execRingWriteSeg frame s
  | .ringAbort frame => Sys2Proof.Machine.execRingAbort frame s
  | .notice => Sys2Proof.Machine.execNotice s
  | .mrd pl => Sys2Proof.Machine.execMrd pl s
  | .mwr pl => Sys2Proof.Machine.execMwr pl s
  | .mrds pl => Sys2Proof.Machine.execMrds pl s
  | .mwrs pl => Sys2Proof.Machine.execMwrs pl s
  | .mabt pl => Sys2Proof.Machine.execMabt pl s
  | .supRestart => Sys2Proof.Machine.execSupRestart s
  | .watchdogExpiry => Sys2Proof.Machine.execWatchdogExpiry s
  | .supStart => Sys2Proof.Machine.execSupStart s
  | .irqClear mask => Sys2Proof.Machine.execIrqClear mask s
  | .extest drive capture => Sys2Proof.Machine.execExtest drive capture s
  | .idcode => Sys2Proof.Machine.execIdcode s
  | .samplePreload preload capture => Sys2Proof.Machine.execSamplePreload preload capture s
  | .ixtest control => Sys2Proof.Machine.execIxtest control s
  | .ixtestDone wires lanes => Sys2Proof.Machine.execIxtestDone wires lanes s
  | .mbist select => Sys2Proof.Machine.execMbist select s
  | .mbistDone failing => Sys2Proof.Machine.execMbistDone failing s
  | .teststat => Sys2Proof.Machine.execTeststat s
  | .stackcfg secen => Sys2Proof.Machine.execStackcfg secen s
  | .bypass code => Sys2Proof.Machine.execBypass code s
  | .ixtFuseWrite q b value => Sys2Proof.Machine.execIxtFuseWrite q b value s
  | .traceArm => Sys2Proof.Machine.execTraceArm s
  | .traceStop => Sys2Proof.Machine.execTraceStop s
  | .traceMark value => Sys2Proof.Machine.execTraceMark value s
  | .traceRecord => Sys2Proof.Machine.execTraceRecord s
  | .portSupplyOn q => Sys2Proof.Machine.execPortSupplyOn q s
  | .trainingStepComplete q m => Sys2Proof.Machine.execTrainingStepComplete q m s
  | .testLogicReset => Sys2Proof.Machine.execTestLogicReset s
  | .tsfull => Sys2Proof.Machine.execTsfull s
  | .vddAonLoss => Sys2Proof.Machine.execVddAonLoss s

end Sys2Proof.Machine
end

