-- ==== Sys2Proof/Machine/PhyTick.lean ====
section
/-!
DEFINITION. What the PHY of a port does at the end of every cc: the codes that the TRK words and codewords of this cc carry
(R71, R86, R98), the repetition of training messages, PARAM messages and training frames (R74, R100, R137), and the
codewords of a reach port (R94, R95, R97).
-/

namespace Sys2Proof.Machine
open Sys2Proof

/-! ### TRK words of a wire port (R71) -/

/-- The order in which codes go out: SPARE_GO, SLEEP_ACK, SLEEP_NAK, SLEEP_REQ, SPARE_REQ, FULL_REQ, RETRAIN_REQ (R71). -/
def codeOrder : List Nat := [5, 2, 3, 1, 4, 6, 7]

/-- The codes that wait, in the order in which they go out. -/
def codesInOrder (cs : List TrkCode) : List TrkCode := (codeOrder.map fun k => cs.filter fun c => c.code == k).flatten

/-- The bundles in use, on which TRK words go out: those of the last mask, or of a port that has had none those that take part
in its training. -/
def wordBundles (p : Port) : List Nat :=
  (List.range p.bundles.length).filter fun b => if p.lastMask = 0 then inPlay p b else bitAt p.lastMask b

/-- The bundle on which a code of bundle scope goes out: its reverse bundle, or the lowest-numbered one in use (R71). -/
def codeBundle (us : List Nat) (c : TrkCode) : Option Nat := c.bundle.map fun b => if us.contains b then b else us.headD 0

/-- The codes of one cc, strongest first. A code of port scope needs every bundle at once, and while a stronger one holds a
bundle neither it nor a weaker one goes out (log entry 125). -/
def pickCodes (us : List Nat) : List TrkCode → List TrkCode → List TrkCode
  | [], got => got
  | c :: cs, got =>
    match codeBundle us c with
    | none => if got.isEmpty then [c] else got
    | some b => pickCodes us cs (if got.any fun d => codeBundle us d == some b then got else got ++ [c])

/-- The codes that the TRK words of this cc carry. -/
def codesNow (p : Port) : List TrkCode := pickCodes (wordBundles p) (codesInOrder p.codes) []

/-- The code and argument in the TRK word of a bundle in this cc: KEEPALIVE when none goes out. -/
def codeOn (p : Port) (b : Nat) : Nat × Nat :=
  match (codesNow p).find? fun c => (codeBundle (wordBundles p) c).all (· == b) with
  | some c => (c.code, c.arg)
  | none => (0, 0)

/-- A SPARE_GO has gone out: from the next word on, the transmitter drives the wire on its group's spare as well (R86). -/
def applyGo (p : Port) (c : TrkCode) : Port :=
  if c.code = 5 then
    let wire := c.arg % 64
    { p with bundles := (withIdx p.bundles).map fun x =>
        if x.1 = c.arg / 64 then { x.2 with txMap := mapWith x.2.txMap (wire / 16) (wire % 16) } else x.2 }
  else p

/-- The port exchanges training messages on TRK (R69, R74). -/
def sendsMessages (p : Port) : Bool :=
  match p.state with
  | .train | .align | .param | .retrain => true
  | _ => false

/-- A training message is repeated for 8 cc, and the last one until another follows; in RETRAIN TRK words go out in between,
and a cc whose words carry a code repeats no message (R69, R74, log entry 126). -/
def ageMsgs (now : Nat) (st : LinkState) (coded : Bool) (b : Bundle) : Bundle :=
  if st = .retrain ∧ coded then { b with msgAt := b.msgAt + 1 }
  else if b.msgAt + 8 ≤ now + 1 ∧ (st = .retrain ∨ 2 ≤ b.msgs.length) then { b with msgs := b.msgs.drop 1, msgAt := now + 1 }
  else b

/-- TRK words resume in a wake from NAP at cc 46 of the side that wakes, which is 41 cc after the partner's latch has been
synchronised (R88). -/
def wordsResume (p : Port) (now : Nat) : Bool :=
  match p.wakeAt with
  | some t => decide ((if p.waker then t + 46 else t + 41) ≤ now)
  | none => false

/-- Codes can go out in this cc: the port sends TRK words or codewords, or has just left a state in which it does; in sleep,
OFF and FAULT they wait or are gone. -/
def codesGo (now : Nat) (p : Port) : Bool :=
  match p.state with
  | .off | .fault | .dormant => false
  | .nap => wordsResume p now
  | _ => true

/-- The TRK wires of a port at the end of a cc. -/
def tickTrk (now : Nat) (p : Port) : Port :=
  let sent := if codesGo now p then codesNow p else []
  let p := sent.foldl applyGo { p with codes := sent.foldl List.erase p.codes }
  { p with bundles := p.bundles.map fun b =>
      if sendsMessages p then ageMsgs now p.state (!sent.isEmpty) b else { b with msgs := [] } }

/-- A PARAM message is repeated for 8 cc, and the last one in PARAM until another follows; an ABORT goes on for its 8 cc after
the port has left PARAM (R137). -/
def ageParams (now : Nat) (p : Port) : Port :=
  if p.paramAt + 8 ≤ now + 1 ∧ (p.state ≠ .param ∨ 2 ≤ p.params.length) then
    { p with params := p.params.drop 1, paramAt := now + 1 }
  else p

/-! ### Codewords and training frames of a reach port -/

/-- cc that a training frame of 5440 bits takes on its lane at 224 Gb/s (R92, R100). -/
def frameTime : Nat := 25

/-- A marker, an echo or an abort is sent in one frame (R102). -/
def ageOnce (now : Nat) (p : Port) : Port :=
  if !p.once.isEmpty ∧ p.onceAt + frameTime ≤ now + 1 then { p with once := p.once.drop 1, onceAt := now + 1 } else p

/-- Width of the codewords sent: that of the training in progress, or the last one agreed. -/
def sendWidth (p : Port) : Nat := if p.width = 0 then p.lastWidth else p.width

/-- Codewords go out in every UI from ALIGN onwards (R94), and until a request or an ABORT that ended an attempt has gone
out. -/
def sendsCodewords (now : Nat) (p : Port) : Bool :=
  !p.pllPark && codesGo now p && (holdsCodewords p || !p.codes.isEmpty || !p.params.isEmpty)

/-- CCTL of a code of R71 (R98). -/
def cctlOf (code : Nat) : Nat := if code = 6 then 4 else if code = 7 then 5 else code

/-- The flits that wait for slots: in PARAM every slot carries the PARAM message (R137, log entry 127). -/
def slotQueue (p : Port) : List (Flit × Bool) :=
  match p.params with
  | m :: _ => List.replicate 3 (paramFlit m, false)
  | [] => p.txSlots

/-- The message of the codeword that goes out, and the port behind it: one code per codeword (R98), slots 0 to 2 in the first
of a pair, whose slot 2 is finished in the second (R95). -/
def nextCodeword (p : Port) : BitVec 5140 × Port :=
  let code := (codesInOrder p.codes).head?
  let cctl := match code with | some c => cctlOf c.code | none => 0
  let arg := match code with | some c => c.arg | none => 0
  let xs := slotQueue p
  let n := if p.cwSecond then 2 else 3
  let p' := { p with codes := code.toList.foldl List.erase p.codes, cwSecond := !p.cwSecond,
                     txSlots := if p.params.isEmpty then p.txSlots.drop n else p.txSlots,
                     txSplit := if p.cwSecond then none else xs[2]? }
  (if p.cwSecond then secondMessage p.txSplit xs[0]? xs[1]? cctl arg else firstMessage xs[0]? xs[1]? xs[2]? cctl arg, p')

/-- Levels that the lanes have sent before the next codeword. -/
def lastLevels (q : Nat) (p : Port) : List Nat :=
  (List.range p.txLanes.length).map fun l => p.txLast.getD l (Config.preStart q l % 4)

/-- The last level of each lane behind a codeword; only precoding goes on from it. -/
def levelsAfter (q : Nat) (m : BitVec 5140) (p : Port) : List Nat :=
  if p.txPre then
    let cw := codewordOf m
    (withIdx (lastLevels q p)).map fun x => (laneLevels cw p.txLanes.length x.1 true x.2).getLastD x.2
  else p.txLast

/-- The codeword clock of a reach port: at width w, 7w of 170 parts of a codeword go out in a cc (R97). -/
def tickCodeword (s : State) (q : Nat) : State :=
  let p := s.port q
  let phase := p.cwPhase + 7 * sendWidth p
  if !sendsCodewords s.now p then s
  else if phase < 170 then s.modPort q fun p => { p with cwPhase := phase }
  else
    let (m, p) := nextCodeword { p with cwPhase := phase % 170 }
    (s.setPort q (ageParams s.now { p with txLast := levelsAfter q m p })).emit (.codeword q m (lastLevels q p))

/-! ### The end of a cc -/

/-- What a cc leaves behind at the link layer: the bundles are free again (R118), and what was freed or returned in it can be
used (R126, R132, R144). -/
def freshCc (p : Port) : Port :=
  { p with sentOn := [], freedNow := 0, lateUv := List.replicate 16 0, lateSt := [] }

/-- The PHY of a port at the end of a cc. -/
def tickPhy (s : State) (q : Nat) : State :=
  let s := s.modPort q freshCc
  if Config.isReach q then (tickCodeword s q).modPort q (ageOnce s.now)
  else s.modPort q fun p => ageParams s.now (tickTrk s.now p)

end Sys2Proof.Machine
end

