-- ==== Sys2Proof/Machine/Pins.lean ====
section
/-!
DEFINITION. What the pins carry in a cc, as it follows from the state (R28): the pin states of R60, the wires of a bundle
(R63, R64, R69–R71, R74, R79, R81, R84, R88, R137, R150), the lanes of a reach port (R93, R94, R99–R102, R108, R109), and
the status, test and trace pins (R54–R57).
-/

namespace Sys2Proof.Machine
open Sys2Proof

/-! ### The table of pin states (R60) -/

/-- The pin groups of R60. -/
inductive PinGroup where
  | wireData | wireClk | wireTrk | wireRx | reachTx | reachRx | ring | status | tdo | trace | ifi
deriving DecidableEq, Repr

/-- The columns of R60; `live` is the case that it leaves to the other rules. -/
inductive PinCond where
  | unpowered | porst | reset | off | live
deriving DecidableEq, Repr

/-- The states that R60 names; `driven` stands for what the other rules give. -/
inductive PinState where
  | hiZ | low | isolated | squelched | termOff | termOn | forwarding | released | unlessShifting | resetValues | driven
deriving DecidableEq, Repr

/-- The table of R60. -/
def pinTable : PinGroup → PinCond → PinState
  | .wireData, .unpowered | .wireClk, .unpowered | .wireTrk, .unpowered => .hiZ
  | .wireData, .live | .wireClk, .live | .wireTrk, .live => .driven
  | .wireData, _ | .wireClk, _ => .low
  | .wireTrk, .off => .driven
  | .wireTrk, _ => .low
  | .wireRx, .live => .driven
  | .wireRx, _ => .isolated
  | .reachTx, .unpowered => .hiZ
  | .reachTx, .live => .driven
  | .reachTx, _ => .squelched
  | .reachRx, .unpowered => .hiZ
  | .reachRx, .porst | .reachRx, .reset => .termOff
  | .reachRx, _ => .termOn
  | .ring, .unpowered | .ring, .porst => .hiZ
  | .ring, _ => .forwarding
  | .status, .unpowered => .hiZ
  | .status, .porst | .status, .reset => .released
  | .status, _ => .driven
  | .tdo, .unpowered => .hiZ
  | .tdo, _ => .unlessShifting
  | .trace, .unpowered => .hiZ
  | .trace, .porst | .trace, .reset => .low
  | .trace, _ => .driven
  | .ifi, .live | .ifi, .off => .driven
  | .ifi, _ => .resetValues

/-- The column that holds for the instance as a whole. -/
def dieCond (s : State) : PinCond :=
  if s.held.aonLost then .unpowered else if s.held.porst then .porst else if inReset s then .reset else .live

/-- The transmit pins of a port are parked as for OFF: OFF, DORMANT, the 1 µs after a loss of its PLL (R154), and a reach port
in FAULT (R150). -/
def parked (s : State) (q : Nat) : Bool :=
  let p := s.port q
  p.pllPark || (match p.state with
    | .off => true
    | .dormant => p.wakeAt.isNone || !Config.isReach q
    | .fault => Config.isReach q
    | _ => false)

/-- The column that holds for the pins of a port; a supply that is off belongs to the port alone (R59). -/
def portCond (s : State) (q : Nat) : PinCond :=
  if !(s.port q).supply then .unpowered
  else if s.held.porst || s.held.aonLost then .porst
  else if inReset s then .reset
  else if parked s q then .off else .live

/-- The signals of a UCIe module (R350); what they carry is given by UCIe 1.1 (log entry 137). -/
inductive UcieSignal where
  | data (lane : Nat) | valid | track | sidebandData | sidebandClock
deriving DecidableEq, Repr

/-- What a wire does in a cc: a state of R60, its 32 UIs, or a signal of a UCIe module. -/
inductive Drive where
  | state (p : PinState)
  | uis (v : BitVec 32)
  | ucie (s : UcieSignal)
deriving DecidableEq, Repr

/-- The state of R60, or else the value that the port gives the wire. -/
def driveOf (g : PinGroup) (c : PinCond) (v : BitVec 32) : Drive :=
  match pinTable g c with
  | .driven => .uis v
  | p => .state p

/-! ### The wires of a bundle -/

/-- The flit that a bundle carries in this cc. -/
def flitOn (s : State) (q b : Nat) : Option (Flit × Bool) :=
  s.out.findSome? fun o => match o with
    | .flit u c f inv => if u = q ∧ c = b then some (f, inv) else none
    | _ => none

/-- 2048 bits of which every UI is the last one sent, which a bundle holds in a cc without a flit (R64). -/
def heldBits (q b : Nat) (bn : Bundle) : Nat :=
  let last := (bn.lastUi.getD (Config.idleUi q b)).toNat
  sumNat ((List.range 32).map fun u => last <<< (64 * u))

/-- Content of a wire in a parity frame (R79, R137); in the frames for which R79 gives none it is a free value. Spares are
64–67; one in use carries the content of the wire it replaces. -/
def frameContent (s : State) (q b w : Nat) : BitVec 31 :=
  let p := s.port q
  let map := (p.bundles.getD b {}).txMap
  let g := w - 64
  let used := decide (64 ≤ w) && bitAt map (5 * g + 4)
  let src := if used then 16 * g + bitsOf map (5 * g) 4 else w
  match p.step, p.state, p.params with
  | .t3, _, _ => prbsContent w (s.now - p.stepAt)
  | .a2, _, _ => prbsContent src (s.now - p.stepAt)
  | _, .param, m :: _ =>
    if bitAt p.offer b then paramContent m (if 64 ≤ src then 16 * g + 8 else src) else Config.trainPattern w s.now
  | _, _, _ => Config.trainPattern w s.now

/-- The 32 UIs of data wire d0–d63 (0–63) or spare s0–s3 (64–67) in this cc (R63, R64, R79, R81, R84). -/
def dataUis (s : State) (q b w : Nat) : BitVec 32 :=
  let p := s.port q
  let bn := p.bundles.getD b {}
  match p.state with
  | .active | .hold | .nap =>
    let bits := match flitOn s q b with
      | some (f, inv) => (f.sentBits inv).toNat
      | none => heldBits q b bn
    if w < 64 then wireUis bits w else spareUis bn.txMap bn.txCrc bits (w - 64)
  | .train | .align | .param | .retrain | .fault =>
    if 64 ≤ w ∧ bn.txCrc then 0 else parityFrame (frameContent s q b w)
  | _ => 0

/-- The column that holds for a bundle: in UCIe mode all but B0 are parked as for OFF (R349). -/
def bundleCond (s : State) (q b : Nat) : PinCond :=
  match portCond s q with
  | .live => if ucieMode s q && b != 0 then .off else .live
  | c => c

/-- A data or spare wire of B0 in UCIe mode (R350). -/
def ucieWire (w : Nat) : Drive :=
  if w < 16 then .ucie (.data w) else if w = 64 then .ucie .sidebandData else if w = 65 then .ucie .sidebandClock
  else .state .low

/-- A data or spare wire of a bundle in this cc. -/
def wirePin (s : State) (q b w : Nat) : Drive :=
  if ucieMode s q && bundleCond s q b == .live then ucieWire w
  else driveOf .wireData (bundleCond s q b) (dataUis s q b w)

/-- VLD of a bundle in this cc (R64, R79). -/
def vldPin (s : State) (q b : Nat) : Drive :=
  if ucieMode s q && bundleCond s q b == .live then .ucie .valid
  else driveOf .wireData (bundleCond s q b)
    (match (s.port q).state with
     | .active | .hold => vldUis (flitOn s q b).isSome
     | .train | .align | .param | .retrain => vldFrame
     | _ => 0)

/-- The forwarded clock of a port runs: from T1 on (R75), in NAP from 8 cc after this side's restart (R88), in a wake from
DORMANT once the PLL is locked (R89), and in FAULT as in TRAIN (R150). -/
def clockRuns (s : State) (q : Nat) : Bool :=
  let p := s.port q
  match p.state with
  | .off | .detect => false
  | .nap => match p.wakeAt with | some t => decide (t + 8 ≤ s.now) | none => false
  | .dormant => p.wakeAt.isSome && p.pll
  | _ => true

/-- CLKP and CLKN of a bundle: none where R60 parks them, else whether they toggle; in UCIe mode they are the clock of the
module (R350). -/
def clkPin (s : State) (q b : Nat) : Option Bool :=
  match pinTable .wireClk (bundleCond s q b) with
  | .driven => some (clockRuns s q)
  | _ => if (s.port q).state = .dormant ∧ portCond s q = .off then some (clockRuns s q) else none

/-- The hello frame that a bundle sends in DETECT or in a wake from DORMANT (R70, R89). -/
def helloSent (s : State) (q b : Nat) : BitVec 32 :=
  let p := s.port q
  helloFrame s.die s.role (BitVec.ofNat 3 q) (BitVec.ofNat 4 b) p.rstf p.pll (p.state == .dormant)

/-- TRK at the AON rate of 40 cc a bit: 4 AON cycles high, the 32 bits, 8 low, without pause (R70). The level follows the
state of its own cc, also when RDY rises inside a frame (log entry 128). -/
def helloLevel (since now : Nat) (f : BitVec 32) : Bool :=
  let k := (now - since) / 40 % 44
  decide (k < 4) || (decide (k < 36) && f.getLsbD (k - 4))

/-- The 32 UIs of a level. -/
def levelUis (v : Bool) : BitVec 32 := if v then 0xFFFFFFFF else 0

/-- The TRK word of a bundle in this cc (R71). -/
def wordSent (s : State) (q b : Nat) : BitVec 32 :=
  let c := codeOn (s.port q) b
  trkWord (BitVec.ofNat 4 c.1) (BitVec.ofNat 12 c.2)

/-- The training message of a bundle in this cc, NULL when none waits, as a parity frame (R74, R79). -/
def messageSent (s : State) (q b : Nat) : BitVec 32 := parityFrame (((s.port q).bundles.getD b {}).msgs.headD 0)

/-- TRK in NAP (R88): low; the side that wakes drives it high until its TRK words resume. -/
def napTrk (s : State) (q b : Nat) : BitVec 32 :=
  let p := s.port q
  if wordsResume p s.now then wordSent s q b else levelUis (p.waker && p.wakeAt.isSome)

/-- TRK of a bundle by port state (R69). In RETRAIN a message goes out while it is repeated and no code waits, else a word. A
request that leaves a state in which words are sent still goes out as a word in its cc (R146). -/
def trkUis (s : State) (q b : Nat) : BitVec 32 :=
  let p := s.port q
  let msgs := (p.bundles.getD b {}).msgs
  match p.state with
  | .active | .hold => wordSent s q b
  | .retrain => if (codesNow p).isEmpty && !msgs.isEmpty then messageSent s q b else wordSent s q b
  | .train | .align | .param => if (codesNow p).isEmpty then messageSent s q b else wordSent s q b
  | .detect => if (codesNow p).isEmpty then levelUis (helloLevel p.trainAt s.now (helloSent s q b)) else wordSent s q b
  | .dormant =>
    match p.wakeAt with
    | some t => levelUis (helloLevel t s.now (helloSent s q b))
    | none => 0
  | .nap => napTrk s q b
  | .off | .fault => 0

/-- TRK of a bundle in this cc; a parked port or bundle drives it low (R60, R154, R349). -/
def trkPin (s : State) (q b : Nat) : Drive :=
  if ucieMode s q && bundleCond s q b == .live then .ucie .track
  else driveOf .wireTrk (bundleCond s q b) (if (s.port q).pllPark || ucieMode s q then 0 else trkUis s q b)

/-- A receive wire of a bundle: isolated in OFF and DORMANT, where AON watches TRK (R60), and where UCIe mode uses none
(R350). -/
def wireRxPin (s : State) (q b w : Nat) : PinState :=
  if ucieMode s q && ucieWire w == .state .low then .isolated else pinTable .wireRx (bundleCond s q b)

/-! ### The lanes of a reach port -/

/-- XPRE asks for precoding of this receive direction: off, on, or the choice made in XT2 (R93, R99, R100). -/
def wantsPrecoding (s : State) (q : Nat) : Bool :=
  match s.get (0x4000 + 256 * xidx q) 0x0C 0 with
  | 0 => false
  | 1 => true
  | _ => Config.preChoice q (s.port q).trainAt

/-- log2 of a width. -/
def log2Width (w : Nat) : Nat := if 16 ≤ w then 4 else if 8 ≤ w then 3 else if 4 ≤ w then 2 else if 2 ≤ w then 1 else 0

/-- XSTEP of the frames sent (R100). -/
def sentStep (p : Port) : Nat :=
  match p.state with
  | .train | .align | .retrain => p.step.code
  | _ => 0

/-- XCHK over the fifteen lower nibbles (R100). -/
def xcheck (v : Nat) : Nat := (List.range 15).foldl (fun c i => c ^^^ bitsOf v (4 * i) 4) 0

/-- The header of the training frame that a lane sends in this cc (R100): completion and reset marks, the equaliser request of
XT2 or the minimum width of XA3, the result of the last request received, and on logical lane 0 the marker, echo or abort that
goes out once (R102). -/
def xframeSent (s : State) (q lane : Nat) : BitVec 64 :=
  let p := s.port q
  let st := sentStep p
  let ln := p.lanes.getD lane {}
  let first := lane == p.txLanes.getD 0 0
  let once := p.once.head?
  let mark := if first then once else none
  let xeq := if p.step = .xt2 then (Config.eqRequest q lane s.now).toNat
    else if p.step = .xa3 then log2Width (minWidth s q) else 0
  let turn := match mark with
    | some f => if f.echo then p.onceAt - f.since else if p.step = .xa3 ∧ p.doneSent then p.loops.foldl max 0 else 0
    | none => if p.step = .xa3 ∧ p.doneSent then p.loops.foldl max 0 else 0
  let v := 0x6A93 + field st 16 4 + field (b2n p.doneSent) 20 1 + field lane 21 4 + field (b2n p.rstf) 25 1
    + field (b2n p.pll) 26 1 + field (b2n (p.state == .dormant)) 27 1 + field xeq 28 4 + field ln.eqs 32 2
    + field (b2n (wantsPrecoding s q)) 34 1
    + field (match mark with | some f => f.lmk | none => 0) 35 4
    + field (b2n (match mark with | some f => f.echo | none => false)) 39 1
    + field turn 40 12 + field (match once with | some f => f.abort | none => 0) 52 4
  BitVec.ofNat 64 (v + field (xcheck v) 60 4)

/-- What a transmit lane carries. -/
inductive LaneDrive where
  | state (p : PinState)
  | frame (header : BitVec 64)
  | levels (ls : List Nat)
  | quiet
deriving DecidableEq, Repr

/-- The codeword of this cc, and the level that each logical lane sent before it. -/
def codewordOn (s : State) (q : Nat) : Option (BitVec 5140 × List Nat) :=
  s.out.findSome? fun o => match o with
    | .codeword u m last => if u = q then some (m, last) else none
    | _ => none

/-- The logical lane of a physical transmit lane (R91). -/
def logicalLane (p : Port) (lane : Nat) : Option Nat := findIdx (· == lane) p.txLanes

/-- Training frames go out in detection, training and a wake (R99, R109). -/
def sendsFrames (p : Port) : Bool :=
  match p.state with
  | .detect | .train => true
  | .align | .retrain => !p.once.isEmpty || p.step != .idle
  | .dormant => p.wakeAt.isSome
  | _ => false

/-- What a lane of a reach port sends in this cc (R91, R93, R94, R99, R108): the PAM4 levels of its share of a codeword, the
frame of its training, or nothing on a lane that is not assigned. Training frames and codewords of one cc of ALIGN are given
apart (log entry 129). -/
def lanePin (s : State) (q lane : Nat) : LaneDrive :=
  let p := s.port q
  match pinTable .reachTx (portCond s q) with
  | .driven =>
    match codewordOn s q, logicalLane p lane with
    | some (m, last), some l => .levels (laneLevels (codewordOf m) p.txLanes.length l p.txPre (last.getD l 0))
    | _, _ => if sendsFrames p then .frame (xframeSent s q lane) else .quiet
  | st => .state st

/-- The receive termination of a reach port (R60). -/
def reachRxPin (s : State) (q : Nat) : PinState := pinTable .reachRx (portCond s q)

/-! ### Status, test and trace pins -/

/-- IRQ_N and SVC_REQ_N: `some true` when driven low, `some false` when released, none when high-impedance (R54, R60). -/
def irqPin (s : State) : Option Bool := if dieCond s = .unpowered then none else some (irqLow s)

/-- SVC_REQ_N. -/
def svcPin (s : State) : Option Bool := if dieCond s = .unpowered then none else some (svcReqLow s)

/-- SB_DO and SB_CO (R55, R60). -/
def ringPin (s : State) : PinState := pinTable .ring (dieCond s)

/-- The bits that TDO shifts out after Capture-DR, the first one lowest; none while the chain goes on through the boundary
register (R56, R409–R417). Outside Shift-DR TDO is high-impedance. -/
def tdoBits (s : State) : List Bool :=
  match tapRegister s with
  | some (v, n) => (List.range n).map (bitAt v)
  | none => if s.tap.instr.toNat = 0x00 ∨ s.tap.instr.toNat = 0x02 then s.tap.captured else [false]

/-- TRACE_CLK, TRACE_VLD and TRACE_OUT are low: CORE is stopped, trace is disabled, or a reset holds (R57, R60). -/
def traceLow (s : State) : Bool :=
  pinTable .trace (dieCond s) == .low || s.core != .running || traceMode s == 0

end Sys2Proof.Machine
end

