-- ==== Sys2Proof/Machine/Tick.lean ====
section
/-!
DEFINITION. The end of a core cycle: what happens in every cc whatever is commanded (the timestamp of R393, the
counters that count cc, the buckets of R356, the events of the trace, the PHY of the ports), and the one event and one ring frame that may
leave (R39, R378). It is what a step does on an empty queue (log entry 2).
-/

namespace Sys2Proof.Machine
open Sys2Proof

/-- Cycles that a step on an empty queue stands for: one cc while CORE runs, one AON cycle of 40 cc while it does not,
none while AON stands still (R46, R393). -/
def tickLength (s : State) : Nat := if s.core = .running then 1 else if aonStopped s then 0 else 40

/-- Counter of R421 for the state of a port, 48 to 55. -/
def stateCounter (p : Port) : Option Nat :=
  match p.state with
  | .off => none
  | .active => some (if p.idle then 49 else 48)
  | .nap => some 50
  | .dormant => some 51
  | .hold => some 52
  | .retrain => some 53
  | .detect | .train | .align | .param => some 54
  | .fault => some 55

/-- Cells in the receive cell buffer of a port (counter 63). -/
def rxCellsUsed (p : Port) : Nat :=
  sumNat (p.rx.map fun w => w.txn.size) + (match p.rxOpen with | some o => o.cells.length | none => 0)

/-- What a cc adds to the counters of R421 of a port, by counter, and to its wait counts. -/
def obsOfTick (s : State) (q : Nat) (cs : List Cand) : List (Nat × Nat) :=
  let p := s.port (logical s q)
  (stateCounter (s.port q)).toList.map (fun n => (n, 1))
    ++ [(32, b2n (!p.schedOut.isEmpty && p.replayPtr.isSome)), (62, p.hold.length), (63, rxCellsUsed p)]
    ++ (List.range 15).map fun i => (33 + i, b2n (creditStarved s q cs (i + 1)))

/-- The VCs of the round-robin class whose head is ready with credit, and since when; a VC without a ready head has no deficit
(R134). -/
def ageVcs (s : State) (q : Nat) (cs : List Cand) : State :=
  s.modPort q fun p =>
    { p with
      deficit := (List.range 16).map fun v => if (vcHead s q cs v).isSome then p.deficit.getD v 0 else 0,
      readyAt := (List.range 16).map fun v =>
        if rrClass.contains v && ((vcHead s q cs v).filter (headPasses s q v)).isSome then
          some ((p.readyAt.getD v none).getD s.now)
        else none }

/-- A transaction waits for a TAG of the port (R225). -/
def tagWait (s : State) (q : Nat) (cs : List Cand) : Bool :=
  (cs.any fun c => needsTag c.w) && (nextTag s q).isNone

/-- A message for the own die waits at step 8 for an identifier of the local pool (R224, R225). -/
def localTagWait (s : State) : Bool :=
  (s.ingress.any fun x => x.1 == IngCh.msg && x.2.step == 8 && x.2.txn.opc == 0x20) && (nextTag s 15).isNone

/-- One cc of a built port while CORE runs. -/
def tickPort (s : State) (q : Nat) : State :=
  if !s.elab_.portBuilt q then s
  else
    let cs := if logical s q = q then cands s q else []
    let adds := obsOfTick s q cs
    let p := s.port q
    let wait := tagWait s q cs
    let s := if logical s q = q then ageVcs s q cs else s
    let s := s.modPort q fun p => adds.foldl (fun p x => if x.2 = 0 then p else obsAdd x.1 x.2 p) p
    let s := if p.state = .hold then s.pbump64 0x5002 q 0x09 1 else s
    let s := if p.state = .nap ∨ p.state = .dormant then s.bump64 (0xD100 + 16 * q) 0x08 1 else s
    let s := if !p.replay.isEmpty ∧ replayLimit s q ≤ p.replay.length then s.pbump64 0x5001 q 0x10 1 else s
    tickPhy (if wait then s.bump64 (0x7100 + 16 * q) 0x03 1 else s) q

/-- A fill waits for a victim-buffer entry (R243). -/
def fillBlocked (s : State) : Bool :=
  decide (32 ≤ s.rlc.victims.length) && s.rlc.miss.any fun m =>
    m.evict.isSome || (missReady s m && m.lost.isNone && (rlcLine s m.la).isNone
      && (match fillWay s (rlcSet s m.la) with | .victim _ _ => true | _ => false))

/-- A contribution waits under R281. -/
def contributionWaits (s : State) : Bool :=
  (s.ingress.any fun x => x.1 == IngCh.red && x.2.step == 8)
    || s.ports.any fun (p : Port) => p.rx.any fun w => w.step == 8 && w.txn.opc == 0x60

/-- A request waits at a firewall bucket (R356). -/
def bucketWait (s : State) : Bool := s.ports.any fun (p : Port) => p.rx.any fun w => w.step == 10

/-- One cc of the buckets: each gains its RATE up to its BURST; a full one is unlisted (R356). -/
def refillBuckets (s : State) : State :=
  let rows := s.rows 0xC001 0x01
  let next := s.fw.bucket.foldl
    (fun m x =>
      let r := rows.getD x.1 0
      let cap := bitsOf r 208 16 * 1024
      let v := x.2 + bitsOf r 192 16
      if cap ≤ v then m else mset m x.1 v) []
  { s with fw := { s.fw with bucket := next } }

/-- One cc of the instance while CORE runs. -/
def tickCore (s : State) : State :=
  let s := (List.range 10).foldl tickPort s
  let s := if s.ingress.any fun x => x.2.step == 6 then s.bump64 0x7001 0x03 1 else s
  let s := if localTagWait s then s.bump64 0x71F0 0x03 1 else s
  let s := if fillBlocked s then s.bump64 0x8001 0x0A 1 else s
  let s := if 1024 ≤ (s.home.track.filter fun t => t.kind != .recall).length then s.bump64 0x8100 0x08 1 else s
  let s := if bucketWait s then s.bump64 0xC002 0x02 1 else s
  let s := if contributionWaits s then s.bump64 0x9001 0x0A 1 else s
  let s := { s with ifr := { s.ifr with starts := [] } }
  evalEvents (refillBuckets (payTempo s))

/-- One AON cycle while CORE is stopped: only DORMANT is counted (R422). -/
def tickAon (s : State) (n : Nat) : State :=
  (List.range 10).foldl
    (fun s q =>
      if (s.port q).state = .dormant then (s.modPort q (obsAdd 51 n)).bump64 (0xD100 + 16 * q) 0x08 n else s) s

/-- The oldest waiting event is presented when the die has granted credit (R39). -/
def presentEvt (s : State) : State :=
  match s.evtOut with
  | [] => s
  | (code, ten, arg) :: rest =>
    if s.ifiReady ∧ s.evtCr ≠ 0 then
      ({ s with evtOut := rest, evtCr := s.evtCr - 1 }.emit (.evt code ten arg)).tev 5 15 0 false (evtBits code ten arg)
    else s

/-- The oldest waiting RESP is sent (R378). -/
def sendRing (s : State) : State :=
  match s.ring.waiting with
  | [] => s
  | b :: rest => if ringOn s then (s.modRing fun r => { r with waiting := rest }).emit (.ring b) else s

/-- The CFG_ACK pulses that are due (R41); none while AON stands still or under PORST_N (R48). -/
def pulseAcks (s : State) : State :=
  let due (a : Nat × Bool) : Bool := decide (a.1 ≤ s.now) && !aonStopped s
  if s.cfg.acks.any due then (s.modCfg fun c => { c with acks := c.acks.filter fun a => !due a }).emit .cfgAck else s

/-- The end of a core cycle. -/
def tick (s : State) : State :=
  let n := tickLength s
  let s := { s with out := [] }
  let s := if s.core = .running then tickCore s else tickAon s n
  sendRing (presentEvt (pulseAcks { s with now := s.now + n }))

end Sys2Proof.Machine
end

