-- ==== Sys2Proof/Safety.lean ====
section
/-!
DEFINITION. What counts as a safe step, the form in which every state of a run keeps its stores, and the relation that
every command keeps.
-/

namespace Sys2Proof.Machine
open Sys2Proof

/-- The step does not stop. -/
def SafeStep (s : State) : Prop := ∃ t, step s = .next t

/-- The elaboration is one that R429 and R430 allow, there are ten ports (R30) and 32 service records (R334), and
the scalar Almanac values are held in their canonical form. -/
structure State.Inv (s : State) : Prop where
  elab_ : s.elab_.legal = true
  ports : s.ports.length = 10
  svc : s.svc.length = 32
  alm : mwf s.alm = true

/-- What no command changes: the elaboration (R4, class F) and the queue of the commands that wait; and what every
command keeps: the number of ports and of service records, and the canonical form of the scalar store. -/
structure Keeps (s t : State) : Prop where
  elab_ : t.elab_ = s.elab_
  pending : t.pending = s.pending
  ports : s.ports.length = 10 → t.ports.length = 10
  svc : s.svc.length = 32 → t.svc.length = 32
  alm : mwf s.alm = true → mwf t.alm = true

/-! ### The words of the statements -/

/-- The status bit of an interrupt cause group stands (R388). -/
def causeSet (s : State) (c : Nat) : Prop := bitAt (s.get 0x1001 0x01 0) c = true

/-- A 32-bit statistic has risen by `n`, saturating (R364). -/
def counted (s t : State) (idx sub n : Nat) : Prop := t.get idx sub 0 = satAdd 32 (s.get idx sub 0) n

/-- A 64-bit statistic has risen by `n`, saturating (R364). -/
def counted64 (s t : State) (idx sub n : Nat) : Prop := t.get idx sub 0 = satAdd 64 (s.get idx sub 0) n

/-- Almanac writes are taken: no reset holds the adapter (R48) and no segmented write holds an entry (R44). -/
def Writable (s : State) : Prop := inReset s = false ∧ s.xfers = []

/-- Every scalar value of the Almanac but those of these entries, as index and subindex, stands as before. -/
def OnlyEntries (es : List (Nat × Nat)) (s t : State) : Prop :=
  ∀ k, k ∉ es.map (fun e => ekey e.1 e.2) → mget t.alm k = mget s.alm k

/-- The cells of one transaction: CSOP in the first cell, CEOP in the last, and nothing behind it (R32). -/
def OneTxn (c : IfiCell) (rest : List IfiCell) : Prop :=
  ingressRuns (c :: rest) = [c :: rest] ∧ cutAtCeop (c :: rest) = (c :: rest, [])

/-- Every port but these keeps its record. -/
def OtherPorts (qs : List Nat) (s t : State) : Prop := ∀ r, r ∉ qs → t.port r = s.port r

/-- What this adapter sends to a die leaves through this port (R220). -/
def Reaches (s : State) (pkg : Pkg) (die : Die) (l : PortId) : Prop :=
  ∃ ports, inPkg s pkg (dieDest s die.toNat) = .via ports ∧ logical s (ports.headD 0) = l

/-- The opcode of the last transaction that waits for a port. -/
def lastSent (s : State) (l : PortId) : Option (BitVec 8) := (s.port l).waitq.getLast?.map fun w => w.txn.opc

/-- The memory requests of R213 at a place, each with its opcode. -/
def memCmds (pl : Place) : List (Instr × Nat) :=
  [(.rd pl, 0x01), (.wr pl, 0x02), (.wrp pl, 0x03), (.aadd pl, 0x10), (.aand pl, 0x11), (.aor pl, 0x12), (.axor pl, 0x13),
   (.aswap pl, 0x14), (.acas pl, 0x15), (.amax pl, 0x16), (.amin pl, 0x17), (.amaxu pl, 0x18), (.aminu pl, 0x19)]

/-- A transaction waits undecided at a place, and no firewall stands before it. -/
def Undecided (s : State) (pl : Place) (w : Waiting) : Prop :=
  atPlace s pl = some w ∧ w.step ≠ 9 ∧ w.step ≠ 10 ∧ w.step ≠ 13 ∧ ∀ q k, pl = .rx q k → isFwPort s q = false

/-- A transaction with this opcode, which may stand at the place, waits there undecided, and it is its turn (R226, R235,
R237). -/
def Waits (s : State) (pl : Place) (w : Waiting) (opc : Nat) : Prop :=
  Undecided s pl w ∧ w.txn.opc.toNat = opc ∧ legalAt pl w.txn.opc = true ∧ inTurn s pl w = true

/-- A synchronisation request waits at its home: its tenancy is ADMITTED, and one of the own die follows no other. -/
def AtHome (s : State) (pl : Place) (w : Waiting) (opc : Nat) : Prop :=
  Waits s pl w opc ∧ destOf s w.txn = .self ∧ quiesced s w.txn.ten = false ∧ (placeIsIfi pl = true → heldBack s w = false)

/-- The completion that ends a request of the own die on IFI-RSP. -/
def ownCpl (w : Waiting) (status : BitVec 8) (rval : Nat) (bytes : List Byte) : EgCh × Waiting :=
  (.rsp, { txn := sourceForm (mkCpl w.txn status (BitVec.ofNat 32 rval) bytes) w.txn.rqid })

/-- One RSTAT is presented on IFI-RED behind what waits for the die (R278). -/
def PresentsRstat (s t : State) (ten : Ten) (rqid : BitVec 16) (status : BitVec 8) (rkind : BitVec 4) (rid : Rid)
    (blkx : Nat) (f : BlkFlags) (eng : Nat) : Prop :=
  t.egress = s.egress ++ [(.red, { txn :=
    { opc := 0x64, ten := ten, tag := rqid.extractLsb' 0 12, sport := rqid.extractLsb' 12 4, spkg := 0, sdie := 0,
      head := .rstat status rkind rid (BitVec.ofNat 24 blkx) f.resc f.sat f.nan (BitVec.ofNat 4 eng), data := [] } })]

/-- A record of this kind and unit is OPEN among the service records (R334, R335). -/
def Recorded (t : State) (reason ukind unit sub : Nat) : Prop :=
  ∃ r ∈ t.svc, r.open_ = true ∧ r.reason = reason ∧ r.ukind = ukind ∧ r.unit_ = unit ∧ r.sub = sub

/-- A fresh request of a kind that the ring agent serves at once: it works and no reset holds the adapter, the frame
passes CRC and is for it, no equal request of that source is kept, and a RESP has room to wait (R376, R378, R380). -/
def FreshRequest (s : State) (frame : List Byte) (kind : Nat) : Prop :=
  ringOn s = true ∧ inReset s = false ∧ frameGood frame = true ∧ (frameOf frame).fkind = kind
    ∧ frameForMe s (frameOf frame) = true ∧ (3 ≤ kind → (frameOf frame).dst ≠ 0x1FF)
    ∧ s.ring.kept.find? (fun k => k.src == (frameOf frame).src && k.request == requestKey frame
        && decide (s.now < k.at_ + 1000000)) = none
    ∧ s.ring.waiting.length < 4

/-- Bases of the entries whose writes act beyond storing the value (R142, R177, R195–R198, R203, R220, R244, R290, R294,
R328, R336, R387, R388, R399, R420, R426). -/
def actingBases : List Nat :=
  [0x0100, 0x1001, 0x1002, 0x5000, 0x6F00, 0x6F01, 0x7000, 0x8000, 0x9000, 0xB100, 0xD000, 0xE200, 0xE400]

/-- A write of a whole scalar value that passes every check (R363–R367) and is stored. -/
def PlainWrite (s : State) (path : Option Path) (e : Entry) (idx sub : Nat) (bytes : List Byte) : Prop :=
  entryAt s idx sub = some e ∧ e.ty.width = some bytes.length ∧ writeRefused s path idx sub = none
    ∧ inLegal e (ofBytes bytes) = true ∧ ownerRefuses s idx sub (ofBytes bytes) = false
    ∧ (locate idx).base ∉ actingBases

/-- Everything that an instance reset empties is empty, and every port is OFF (R404, R405). -/
def Emptied (t : State) : Prop :=
  (∀ q, (t.port q).state = .off) ∧ t.ingress = [] ∧ t.egress = [] ∧ t.ownQ = [] ∧ t.rlc.lines = [] ∧ t.home.track = []
    ∧ t.ifr.rids = [] ∧ t.sems = [] ∧ t.xfers = [] ∧ t.trace.state = 0

/-- Every stored value of a class that a reset of this strength clears is back at its default (R401). -/
def Cleared (lvl : Nat) (t : State) : Prop := ∀ k, clears lvl (classOf k) = true → mget t.alm k = none

/-- What a reset input or a loss leaves as it was (R404): the fuses, the straps and the identity, the tables and counts, the
timestamp, the service records and field repair. -/
def KeptParked (s t : State) : Prop :=
  t.fuses = s.fuses ∧ t.strapDie = s.strapDie ∧ t.strapRole = s.strapRole ∧ t.strapPos = s.strapPos ∧ t.die = s.die
    ∧ t.role = s.role ∧ t.tabs = s.tabs ∧ t.counts = s.counts ∧ t.now = s.now ∧ t.svc = s.svc ∧ t.repair = s.repair

/-- What a performed WARM or DIE reset leaves as it was (R49, R335, R393): the fuses, the straps and the identity, the
timestamp and the service records. -/
def KeptIdentity (s t : State) : Prop :=
  t.fuses = s.fuses ∧ t.strapDie = s.strapDie ∧ t.strapRole = s.strapRole ∧ t.strapPos = s.strapPos ∧ t.die = s.die
    ∧ t.role = s.role ∧ t.now = s.now ∧ t.svc = s.svc

/-- No reset input and no loss but these three holds the adapter, and no command waits for the supervisor. -/
def HeldOnlyBy (s : State) (wrst drst vddLost : Bool) : Prop :=
  s.held.porst = false ∧ s.held.aonLost = false ∧ s.held.refLost = false ∧ s.held.wrst = wrst ∧ s.held.drst = drst
    ∧ s.held.vddLost = vddLost ∧ s.cfg.busy = false ∧ s.ring.later = []

end Sys2Proof.Machine
end

