-- ==== Sys2Proof/Certificates/Slice0/Obligations.lean ====
section
/-!
DEFINITION. The statements for the provers, one definition each: what every command does on the states in which it
completes, what it leaves alone, and what every step keeps.
-/

open Sys2Proof Sys2Proof.Machine

/-- The commands of the Fabric Interface. A whole transaction presented against credit stands at the end of its
ingress buffer, its credit is spent and, where the die issues it, its place in the order of issue is noted (R32, R34);
one that R33 rejects is discarded, with its credits returned, an IFI protocol error counted and its cause raised. A
one-cell completion that waits is presented when credit is held, and the TAG that it frees is free (R442, R37, R225);
an empty egress leaves everything as it is. Returned credit is held (R34, R39). IFI_WAKE is sampled and starts a
stopped CORE outside reset (R38, R391). An unlisted event code is discarded, its credit returned, an error counted and
its cause raised (R40). With IFI_READY low nothing is taken (R38). -/
def Obligations.FabricInterface : Prop :=
  (∀ (s : State) (c : IfiCell) (rest : List IfiCell) (ch : IngCh),
    s.ifiReady = true → channelOf c.cch = some ch → rest.length + 1 ≤ s.icr.getD (ingIdx ch) 0 →
    OneTxn c rest → ingressBad ch c rest = false →
    ∃ t, exec (.ifiIngressTransaction (c :: rest)) s = .next t
      ∧ t.ingress = s.ingress ++ [(ch, { txn := ingTxn ch c rest, cport := c.cport, cslot := c.cslot, seq := s.seqNo,
                                         at_ := s.now - c.ago, endAt := s.now - (rest.getLastD c).ago })]
      ∧ t.icr = setAt (ingIdx ch) (s.icr.getD (ingIdx ch) 0 - (rest.length + 1)) s.icr
      ∧ t.seqNo = s.seqNo + 1
      ∧ (isIssue ch (ingTxn ch c rest).opc = true →
          ∃ r, t.ord = s.ord ++ [r] ∧ r.seq = s.seqNo ∧ r.ten = (ingTxn ch c rest).ten ∧ r.opc = (ingTxn ch c rest).opc)
      ∧ (isIssue ch (ingTxn ch c rest).opc = false → t.ord = s.ord)
      ∧ { t with ingress := s.ingress, icr := s.icr, seqNo := s.seqNo, ord := s.ord, trace := s.trace } = s)
  ∧ (∀ (s : State) (c : IfiCell) (rest : List IfiCell) (ch : IngCh),
    s.Inv → s.ifiReady = true → channelOf c.cch = some ch → rest.length + 1 ≤ s.icr.getD (ingIdx ch) 0 →
    OneTxn c rest → ingressBad ch c rest = true →
    ∃ t, exec (.ifiIngressTransaction (c :: rest)) s = .next t
      ∧ t.out = s.out ++ [.ifiCredit ch (rest.length + 1)]
      ∧ counted s t 0x2105 0x01 1
      ∧ causeSet t 0
      ∧ OnlyEntries [(0x2105, 0x01), (0x1001, 0x01)] s t
      ∧ { t with icr := s.icr, out := s.out, alm := s.alm, evtOut := s.evtOut, ring := s.ring, irqs := s.irqs } = s)
  ∧ (∀ (s : State) (w : Waiting) (n : Nat),
    s.ifiReady = true → s.elab_.nBeat ≠ 0 → s.egress = [(.rsp, w)] → w.taken = 0 → w.txn.ifiCells.length = 1 →
    s.ecr.getD (egIdx .rsp) 0 = n + 1 →
    ∃ t, exec .ifiEgressFill s = .next t
      ∧ t.egress = []
      ∧ t.out = s.out ++ [.ifi .rsp true true w.cport w.cslot w.txn.ten (w.txn.ifiCells.headD 0)]
      ∧ t.ecr = setAt (egIdx .rsp) n s.ecr
      ∧ { t with egress := s.egress, out := s.out, ecr := s.ecr, rr := s.rr, trace := s.trace } = freeOf s w.frees)
  ∧ (∀ (s : State), s.ifiReady = true → s.egress = [] → exec .ifiEgressFill s = .next s)
  ∧ (∀ (s : State) (ch : EgCh) (n : Nat), s.ifiReady = true →
    exec (.ifiCreditReturn (.ecr ch) n) s = .next { s with ecr := addAt (egIdx ch) n s.ecr })
  ∧ (∀ (s : State) (n : Nat), s.ifiReady = true →
    exec (.ifiCreditReturn .evt n) s = .next { s with evtCr := s.evtCr + n })
  ∧ (∀ (s : State) (high : Bool),
    ∃ t, exec (.ifiWake high) s = .next t
      ∧ t.ifiWake = high
      ∧ t.core = (if high = true ∧ s.core = .stopped ∧ inReset s = false then .starting else s.core)
      ∧ { t with ifiWake := s.ifiWake, core := s.core, coreAt := s.coreAt } = s)
  ∧ (∀ (s : State) (code : BitVec 8), s.Inv → s.ifiReady = true → code ≠ 1 → code ≠ 2 →
    ∃ t, exec (.evtUnknownCode code) s = .next t
      ∧ t.out = s.out ++ [.evtCredit 1]
      ∧ counted s t 0x2105 0x01 1
      ∧ causeSet t 0
      ∧ OnlyEntries [(0x2105, 0x01), (0x1001, 0x01)] s t
      ∧ { t with out := s.out, trace := s.trace, alm := s.alm, evtOut := s.evtOut, ring := s.ring, irqs := s.irqs } = s)
  ∧ (∀ (s : State) (cells : List IfiCell) (f : CreditField) (n : Nat) (code : BitVec 8), s.ifiReady = false →
    exec (.ifiIngressTransaction cells) s = .next s
    ∧ exec .ifiEgressFill s = .next s
    ∧ exec (.ifiCreditReturn f n) s = .next s
    ∧ exec (.evtUnknownCode code) s = .next s)

/-- The commands of tenancy control: QUIESCE of an ADMITTED tenancy without work to park starts its drain and of a
QUIESCED one answers QUIESCE_DONE at once; that of the default tenancy, and one during a drain, are counted and
ignored (R298, R305, R311). READMIT of a QUIESCED tenancy admits it and returns its parked work ahead of later work;
during a drain it is held (R308). The end of a drain, and its bound, leave the tenancy QUIESCED and report
QUIESCE_DONE with the cc of the drain, 8,000 at the bound; work that remains at the bound is counted and its cause
raised (R305, R306, R310). -/
def Obligations.TenancyControl : Prop :=
  (∀ (s : State) (ten : Ten), s.Inv → s.ifiReady = true → ten ≠ 0 → tenState s ten.toNat = 0 → s.ingress = [] →
    s.rlc.miss = [] → s.rlc.victims = [] → s.sems = [] → (∀ p ∈ s.ports, p.assigned = []) → s.ten.park = [] →
    ∃ t, exec (.quiesce ten) s = .next t
      ∧ tenState t ten.toNat = 1
      ∧ t.ten.drains = s.ten.drains ++ [{ ten := ten, at_ := s.now, readmit := false }]
      ∧ counted s t 0xA001 0x01 1
      ∧ t.out = s.out ++ [.evtCredit 1]
      ∧ OnlyEntries [(0xA001, 0x01)] s t
      ∧ { t with ten := s.ten, alm := s.alm, out := s.out, trace := s.trace } = s)
  ∧ (∀ (s : State) (ten : Ten), s.Inv → s.ifiReady = true → ten ≠ 0 → tenState s ten.toNat = 2 →
    ∃ t, exec (.quiesce ten) s = .next t
      ∧ t.evtOut = s.evtOut ++ [(0x81, ten, 0)]
      ∧ t.out = s.out ++ [.evtCredit 1]
      ∧ { t with alm := s.alm, counts := s.counts, evtOut := s.evtOut, out := s.out, trace := s.trace } = s
      ∧ OnlyEntries [(0xA001, 0x02), (0xA001, 0x03)] s t)
  ∧ (∀ (s : State) (ten : Ten), s.Inv → s.ifiReady = true → ten = 0 ∨ tenState s ten.toNat = 1 →
    ∃ t, exec (.quiesce ten) s = .next t
      ∧ counted s t 0xA001 0x07 1
      ∧ t.out = s.out ++ [.evtCredit 1]
      ∧ OnlyEntries [(0xA001, 0x07)] s t
      ∧ { t with alm := s.alm, out := s.out, trace := s.trace } = s)
  ∧ (∀ (s : State) (ten : Ten), s.ifiReady = true → ten ≠ 0 → tenState s ten.toNat = 2 →
    ∃ t, exec (.readmit ten) s = .next t
      ∧ t.ten.st = mdel s.ten.st ten.toNat
      ∧ t.ingress = (s.ten.park.filter fun x => x.2.txn.ten == ten) ++ s.ingress
      ∧ t.ten.park = s.ten.park.filter (fun x => !(x.2.txn.ten == ten))
      ∧ t.ten.drains = s.ten.drains
      ∧ t.out = s.out ++ [.evtCredit 1]
      ∧ { t with ten := s.ten, ingress := s.ingress, out := s.out, trace := s.trace } = s)
  ∧ (∀ (s : State) (ten : Ten) (d : Drain), s.ifiReady = true → ten ≠ 0 → tenState s ten.toNat = 1 →
    s.ten.drains = [d] → d.ten = ten →
    ∃ t, exec (.readmit ten) s = .next t
      ∧ t.ten = { s.ten with drains := [{ d with readmit := true }] }
      ∧ t.out = s.out ++ [.evtCredit 1]
      ∧ { t with ten := s.ten, out := s.out, trace := s.trace } = s)
  ∧ (∀ (s : State) (ten : Ten) (d : Drain), s.Inv → drainOf s ten = some d → drainItems s ten = 0 → d.readmit = false →
    ∃ t, exec (.drainEnd ten) s = .next t
      ∧ tenState t ten.toNat = 2
      ∧ t.ten.drains = s.ten.drains.filter (fun x => x.ten != ten)
      ∧ t.evtOut = s.evtOut ++ [(0x81, ten, BitVec.ofNat 32 (min (s.now - d.at_) 8000))]
      ∧ counted64 s t 0xA001 0x02 (min (s.now - d.at_) 8000)
      ∧ OnlyEntries [(0xA001, 0x02), (0xA001, 0x03)] s t
      ∧ { t with ten := s.ten, alm := s.alm, counts := s.counts, evtOut := s.evtOut } = s)
  ∧ (∀ (s : State) (ten : Ten) (d : Drain), s.Inv → drainOf s ten = some d → drainItems s ten ≠ 0 → d.readmit = false →
    ∃ t, exec (.drainBound ten) s = .next t
      ∧ tenState t ten.toNat = 2
      ∧ t.ten.drains = s.ten.drains.filter (fun x => x.ten != ten)
      ∧ (∃ pre, t.evtOut = pre ++ [(0x81, ten, 8000)])
      ∧ counted s t 0xA001 0x04 (drainItems s ten)
      ∧ counted s t 0xA001 0x06 1
      ∧ causeSet t 6
      ∧ OnlyEntries [(0xA001, 0x02), (0xA001, 0x03), (0xA001, 0x04), (0xA001, 0x06), (0x1001, 0x01)] s t
      ∧ { t with ten := s.ten, alm := s.alm, counts := s.counts, evtOut := s.evtOut, ring := s.ring, irqs := s.irqs } = s)

/-- Detection. A hello frame that fails HPRE or HCHK changes nothing, and a good one is only remembered until a second
identical one comes (R70). In the window of D2 that one gathers its bundle when its fields fit, and a bundle whose
hello does not fit is miswired and raises the cause for a wiring fault (R75, R77). A second identical hello with RSTF
= 0 brings a port from HOLD to detection, a LINK_FULL with cause 8 (R142, R156); a reset-hello does so with cause 7
from ACTIVE, RETRAIN, HOLD, NAP, DORMANT and FAULT, without a LINK_FULL from TRAIN, ALIGN and PARAM, and each
acceptance is counted (R155). A lock of the port's PLL is noted and shown as RDY; with RDY of both sides the port
leaves for TRAIN, counted, and on a wire port after the window of D2, without the bundles that were not gathered (R75
D3, R77, R99, R149). The 1-ms retry starts detection again (R77, R99). -/
def Obligations.Detection : Prop :=
  (∀ (s : State) (q : PortId) (b : BundleId) (f : BitVec 32), s.elab_.portBuilt q = true → q.val < 8 →
    b.val < s.elab_.units q → helloGood f = false → exec (.helloFrame q b f) s = .next s)
  ∧ (∀ (s : State) (q : PortId) (b : BundleId) (f : BitVec 32), s.elab_.portBuilt q = true → q.val < 8 →
    b.val < s.elab_.units q → helloGood f = true → ((s.port q).bundles.getD b {}).hello ≠ some f →
    exec (.helloFrame q b f) s = .next (s.modBundle q b fun bn => { bn with hello := some f }))
  ∧ (∀ (s : State) (q : PortId) (b : BundleId) (f : BitVec 32) (t0 : Nat), s.Inv → s.elab_.portBuilt q = true →
    q.val < 8 → b.val < s.elab_.units q → b.val < (s.port q).bundles.length → helloGood f = true →
    ((s.port q).bundles.getD b {}).hello = some f → (s.port q).state = .detect → (s.port q).gatherAt = some t0 →
    s.now < t0 + 4000 → (s.port q).partnerRdy = false → f.getLsbD 23 = false → helloFits (s.port q) b f = true →
    ∃ t, exec (.helloFrame q b f) s = .next t
      ∧ ((t.port q).bundles.getD b {}).twice = true
      ∧ (t.port q).partnerHello = true
      ∧ (t.port q).partnerDie = f.extractLsb' 4 8
      ∧ (t.port q).state = .detect
      ∧ { t with ports := s.ports } = s
      ∧ OtherPorts [q.val] s t)
  ∧ (∀ (s : State) (q : PortId) (b : BundleId) (f : BitVec 32) (t0 : Nat), s.Inv → s.elab_.portBuilt q = true →
    q.val < 8 → b.val < s.elab_.units q → b.val < (s.port q).bundles.length → helloGood f = true →
    ((s.port q).bundles.getD b {}).hello = some f → (s.port q).state = .detect → (s.port q).gatherAt = some t0 →
    (s.port q).partnerRdy = false → helloFits (s.port q) b f = false →
    ∃ t, exec (.helloFrame q b f) s = .next t
      ∧ ((t.port q).bundles.getD b {}).state = 4
      ∧ causeSet t 1
      ∧ (t.port q).state = .detect
      ∧ OnlyEntries [(0x1001, 0x01)] s t
      ∧ { t with ports := s.ports, alm := s.alm, evtOut := s.evtOut, ring := s.ring, irqs := s.irqs } = s
      ∧ OtherPorts [q.val] s t)
  ∧ (∀ (s : State) (q : PortId) (b : BundleId) (f : BitVec 32), s.Inv → s.elab_.portBuilt q = true → q.val < 8 →
    b.val < s.elab_.units q → helloGood f = true → ((s.port q).bundles.getD b {}).hello = some f →
    (s.port q).state = .hold → f.getLsbD 22 = false → outranked s q 3 = false →
    ∃ t, exec (.helloFrame q b f) s = .next t
      ∧ { t with alm := s.alm, core := s.core, coreAt := s.coreAt, evtOut := s.evtOut, irqs := s.irqs,
                  ring := s.ring, svc := s.svc, twins := s.twins, trace := s.trace, ports := s.ports } = s
      ∧ (t.port q).state = .detect
      ∧ t.get (0x5002 + 256 * q) 0x05 0 = 8
      ∧ counted s t (0x5002 + 256 * q) 0x07 1
      ∧ OtherPorts [q.val, logical s q] s t)
  ∧ (∀ (s : State) (q : PortId), s.Inv → s.elab_.portBuilt q = true →
    (s.port q).state ∈ [.active, .retrain, .hold, .nap, .dormant, .fault] → outranked s q 3 = false →
    (s.port q).pllPark = false →
    ∃ t, exec (.resetHello q) s = .next t
      ∧ { t with alm := s.alm, evtOut := s.evtOut, irqs := s.irqs, ring := s.ring, svc := s.svc, twins := s.twins,
                  trace := s.trace, ports := s.ports } = s
      ∧ (t.port q).state = .detect
      ∧ t.get (0x5002 + 256 * q) 0x05 0 = 7
      ∧ counted s t (0x5002 + 256 * q) 0x07 1
      ∧ counted s t (0x5002 + 256 * q) 0x0C 1
      ∧ ((s.port q).state = .fault → (t.port q).ra = 0 ∧ (t.port q).ta = 0)
      ∧ OtherPorts [q.val, logical s q] s t)
  ∧ (∀ (s : State) (q : PortId), s.Inv → s.elab_.portBuilt q = true →
    (s.port q).state ∈ [.train, .align, .param] → outranked s q 3 = false → (s.port q).pllPark = false →
    ∃ t, exec (.resetHello q) s = .next t
      ∧ { t with alm := s.alm, evtOut := s.evtOut, irqs := s.irqs, ring := s.ring, svc := s.svc, twins := s.twins,
                  trace := s.trace, ports := s.ports } = s
      ∧ (t.port q).state = .detect
      ∧ (t.port q).ta = (s.port q).ta
      ∧ counted s t (0x5002 + 256 * q) 0x0C 1
      ∧ t.get (0x5002 + 256 * q) 0x07 0 = s.get (0x5002 + 256 * q) 0x07 0
      ∧ OtherPorts [q.val, logical s q] s t)
  ∧ (∀ (s : State) (q : PortId), s.Inv → s.elab_.portBuilt q = true → q.val < 8 → (s.port q).state = .detect →
    (s.port q).gatherAt ≠ none → (s.port q).pllPark = false → (s.port q).partnerRdy = false →
    ∃ t, exec (.wtxPllLock q) s = .next t
      ∧ { t with alm := s.alm, evtOut := s.evtOut, irqs := s.irqs, ring := s.ring, svc := s.svc, trace := s.trace,
                  ports := s.ports } = s
      ∧ t = s.modPort q (fun p => { p with pll := true, step := .d3 })
      ∧ ∀ b, b < 12 → (helloSent t q b).getLsbD 23 = true)
  ∧ (∀ (s : State) (q : PortId), s.Inv → s.elab_.portBuilt q = true → q.val < 8 → (s.port q).state = .detect →
    gathered s q = true → (s.port q).pllPark = false → (s.port q).partnerHello = true →
    (s.port q).partnerRdy = true → supRuns s = true → (s.port q).ta < s.pget 0x5002 q 0x02 4 →
    ∃ t, exec (.wtxPllLock q) s = .next t
      ∧ { t with alm := s.alm, evtOut := s.evtOut, irqs := s.irqs, ring := s.ring, svc := s.svc, trace := s.trace,
                  ports := s.ports } = s
      ∧ (t.port q).pll = true
      ∧ (t.port q).state = .train
      ∧ (t.port q).step = .t1
      ∧ (t.port q).ta = (s.port q).ta + 1
      ∧ (∀ b, b < (s.port q).bundles.length → ((s.port q).bundles.getD b {}).twice = false →
          ((s.port q).bundles.getD b {}).state ≠ 4 → ((t.port q).bundles.getD b {}).state = 3)
      ∧ counted s t (0x3000 + 256 * q) 0x04 1
      ∧ OtherPorts [q.val, logical s q] s t)
  ∧ (∀ (s : State) (q : PortId), s.Inv → s.elab_.portBuilt q = true → 8 ≤ q.val → (s.port q).state = .detect →
    (s.port q).pllPark = false → (s.port q).partnerRdy = false →
    ∃ t, exec (.xphPllLock q) s = .next t
      ∧ { t with alm := s.alm, evtOut := s.evtOut, irqs := s.irqs, ring := s.ring, svc := s.svc, trace := s.trace,
                  ports := s.ports } = s
      ∧ t = s.modPort q (fun p => { p with pll := true, step := .xd2 })
      ∧ ∀ l, l < 16 → (xframeSent t q l).getLsbD 26 = true)
  ∧ (∀ (s : State) (q : PortId), s.Inv → s.elab_.portBuilt q = true → 8 ≤ q.val → (s.port q).state = .detect →
    (s.port q).pllPark = false → (s.port q).partnerHello = true → (s.port q).partnerRdy = true → supRuns s = true →
    (s.port q).ta < s.pget 0x5002 q 0x02 4 →
    ∃ t, exec (.xphPllLock q) s = .next t
      ∧ { t with alm := s.alm, evtOut := s.evtOut, irqs := s.irqs, ring := s.ring, svc := s.svc, trace := s.trace,
                  ports := s.ports } = s
      ∧ (t.port q).pll = true
      ∧ (t.port q).state = .train
      ∧ (t.port q).step = .xt1
      ∧ (t.port q).ta = (s.port q).ta + 1
      ∧ counted s t (0x4000 + 256 * (q.val - 8)) 0x0A 1
      ∧ OtherPorts [q.val, logical s q] s t)
  ∧ (∀ (s : State) (q : PortId), s.Inv → s.elab_.portBuilt q = true → (s.port q).state = .detect → supRuns s = true →
    ∃ t, exec (.trainingRetry q) s = .next t
      ∧ (t.port q).state = .detect
      ∧ (t.port q).step = (if 8 ≤ q.val then .xd1 else .d1)
      ∧ (t.port q).partnerHello = false
      ∧ (t.port q).partnerRdy = false
      ∧ (t.port q).gatherAt = none
      ∧ (t.port q).trainAt = s.now
      ∧ { t with ports := s.ports } = s
      ∧ OtherPorts [q.val] s t)

/-- Training messages of the partner and the operations of this side. FAST_OK of TRAIN_START is noted in T1 (R74,
R76). A completion of the step in progress is noted and, when this side has completed it too, the next step begins
(R74). A repair map is applied and echoed in MAP_ACK on its bundle, and an acknowledged map is noted (R74, R84). An
abort begins a new attempt, within the limit, and leaves its reason, and so does a fatal parity error, which is
counted (R80, R142). A finished operation of T2 leaves its eyes and is reported (R74, R75). The numbers of the steps
in a completion are the model's choice (log entry 20). -/
def Obligations.TrainingMessages : Prop :=
  (∀ (s : State) (q : PortId) (ok : Bool), s.elab_.portBuilt q = true → trains s q = true → (s.port q).step = .t1 →
    exec (.trainStart q ok) s = .next (s.modPort q fun p => { p with fastOk := ok }))
  ∧ (∀ (s : State) (q : PortId) (c : BitVec 4), s.ports.length = 10 → s.elab_.portBuilt q = true → trains s q = true →
    (s.port q).step.code = c.toNat → (s.port q).doneSent = false →
    exec (.stepDone q c) s = .next (s.modPort q fun p => { p with doneRcvd := true }))
  ∧ (∀ (s : State) (q : PortId) (c : BitVec 4) (n : TrainStep), s.Inv → s.elab_.portBuilt q = true →
    trains s q = true → (s.port q).step.code = c.toNat → (s.port q).doneSent = true →
    (s.port q).step.next (staysFast (s.port q)) = some n →
    ∃ t, exec (.stepDone q c) s = .next t
      ∧ { t with alm := s.alm, evtOut := s.evtOut, irqs := s.irqs, ring := s.ring, svc := s.svc, twins := s.twins,
                  trace := s.trace, ports := s.ports, out := s.out } = s
      ∧ (t.port q).step = n
      ∧ (t.port q).doneSent = false
      ∧ (t.port q).doneRcvd = false
      ∧ OtherPorts [q.val] s t)
  ∧ (∀ (s : State) (q : PortId) (b : BundleId) (map : BitVec 20) (tcrc : Bool), s.elab_.portBuilt q = true →
    q.val < 8 → b.val < s.elab_.units q → trains s q = true →
    exec (.repairMap q b map tcrc) s
      = .next ((s.modBundle q b fun bn => { bn with txMap := map.toNat, txCrc := tcrc }).sendTrain q [b.val]
          (trainMessage 4 map.toNat false)))
  ∧ (∀ (s : State) (q : PortId) (b : BundleId) (map : BitVec 20), s.Inv → s.elab_.portBuilt q = true →
    q.val < 8 → b.val < s.elab_.units q → trains s q = true → b.val < (s.port q).bundles.length →
    ((s.port q).bundles.getD b {}).spareMap % 2 ^ 20 = map.toNat →
    ∃ t, exec (.mapAck q b map) s = .next t
      ∧ { t with alm := s.alm, evtOut := s.evtOut, irqs := s.irqs, ring := s.ring, svc := s.svc, twins := s.twins,
                  trace := s.trace, ports := s.ports, out := s.out } = s
      ∧ ((t.port q).bundles.getD b {}).mapAcked = true
      ∧ OtherPorts [q.val] s t)
  ∧ (∀ (s : State) (q : PortId) (reason : BitVec 8), s.Inv → s.elab_.portBuilt q = true → supRuns s = true →
    (s.port q).pllPark = false → (s.port q).state ∈ [.train, .align, .param] →
    (s.port q).ta < s.pget 0x5002 q 0x02 4 →
    ∃ t, exec (.trainingAbort q reason) s = .next t
      ∧ { t with alm := s.alm, evtOut := s.evtOut, irqs := s.irqs, ring := s.ring, svc := s.svc, twins := s.twins,
                  trace := s.trace, ports := s.ports } = s
      ∧ (t.port q).state = .train
      ∧ (t.port q).ta = (s.port q).ta + 1
      ∧ t.get (0x5002 + 256 * q) 0x06 0 = 7
      ∧ OtherPorts [q.val, logical s q] s t)
  ∧ (∀ (s : State) (q : PortId) (reason : BitVec 8), s.Inv → s.elab_.portBuilt q = true → supRuns s = true →
    (s.port q).pllPark = false → (s.port q).state = .retrain → (s.port q).ra < s.pget 0x5002 q 0x01 3 →
    ∃ t, exec (.trainingAbort q reason) s = .next t
      ∧ { t with alm := s.alm, evtOut := s.evtOut, irqs := s.irqs, ring := s.ring, svc := s.svc, twins := s.twins,
                  trace := s.trace, ports := s.ports } = s
      ∧ (t.port q).state = .retrain
      ∧ (t.port q).ra = (s.port q).ra + 1
      ∧ (t.port q).step = (if 8 ≤ q.val then .xt1 else .t1)
      ∧ t.get (0x5002 + 256 * q) 0x06 0 = 7
      ∧ OtherPorts [q.val] s t)
  ∧ (∀ (s : State) (q : PortId), s.Inv → s.elab_.portBuilt q = true → q.val < 8 → supRuns s = true →
    (s.port q).pllPark = false → (s.port q).state ∈ [.align, .param] → (s.port q).ta < s.pget 0x5002 q 0x02 4 →
    ∃ t, exec (.fatalParityError q) s = .next t
      ∧ { t with alm := s.alm, evtOut := s.evtOut, irqs := s.irqs, ring := s.ring, svc := s.svc, trace := s.trace,
                  ports := s.ports } = s
      ∧ (t.port q).state = .train
      ∧ (t.port q).ta = (s.port q).ta + 1
      ∧ t.get (0x5002 + 256 * q) 0x06 0 = 1
      ∧ counted s t (0x3000 + 256 * q) 0x05 1
      ∧ OtherPorts [q.val, logical s q] s t)
  ∧ (∀ (s : State) (q : PortId) (m : Measured) (b : Nat) (es : List (BitVec 16)) (b' : Nat), s.Inv →
    s.elab_.portBuilt q = true → q.val < 8 → supRuns s = true → (s.port q).pllPark = false →
    (s.port q).state = .train → (s.port q).step = .t2 → (s.port q).doneSent = false →
    (s.port q).doneRcvd = false → bundlesInPlay (s.port q) ≠ [] → b < (s.port q).bundles.length →
    m.eyes.find? (fun e => e.1 == b) = some (b', es) →
    ∃ t, exec (.trainingStepComplete q m) s = .next t
      ∧ ((t.port q).bundles.getD b {}).eyes = es
      ∧ (inPlay (s.port q) b = true →
          ((t.port q).bundles.getD b {}).msgs
            = ((s.port q).bundles.getD b {}).msgs ++ [trainMessage 2 (TrainStep.code .t2) false])
      ∧ (t.port q).step = .t2
      ∧ (t.port q).doneSent = true
      ∧ { t with ports := s.ports } = s
      ∧ OtherPorts [q.val] s t)

/-- Losses and drift of a wire port. A loss that a bundle in use declares is recorded while another bundle in use is
healthy (R72, R73). The end of the window with a bundle still healthy requests a LINK_FULL with cause 1 and counts the
bundles lost that have not been reported yet (R73, R142). FIFO drift is counted and asks for a retrain, which is
counted and begins within the limit (R68, R142, R148). A keep-alive changes nothing; a TRK word that fails TSYNC or
TCHK or carries an unlisted code is counted (R71). -/
def Obligations.WireLosses : Prop :=
  (∀ (s : State) (q : PortId) (b : BundleId) (b' : Nat) (c : Instr), c = .clockLoss q b ∨ c = .trkLoss q b →
    s.ports.length = 10 → s.elab_.portBuilt q = true → q.val < 8 → b.val < s.elab_.units q →
    (s.port q).state = .active → b.val < (s.port q).bundles.length → bitAt (s.port q).mask b = true →
    ((s.port q).bundles.getD b {}).lost = false →
    b' < (s.port q).bundles.length → b' ≠ b.val → bitAt (s.port q).mask b' = true →
    ((s.port q).bundles.getD b' {}).lost = false →
    exec c s = .next ((s.modPort q fun p => { p with lossAt := some (p.lossAt.getD s.now) }).modBundle q b
      fun bn => { bn with lost := true }))
  ∧ (∀ (s : State) (q : PortId) (b' : Nat), s.Inv → s.elab_.portBuilt q = true → q.val < 8 → (s.port q).state = .active →
    (s.port q).lossAt ≠ none → outranked s q 4 = false → (s.port q).pllPark = false →
    b' ∈ bundlesInUse (s.port q) → ((s.port q).bundles.getD b' {}).lost = false →
    ((bundlesInUse (s.port q)).filter fun b => ((s.port q).bundles.getD b {}).lost
      && !((s.port q).bundles.getD b {}).told) ≠ [] →
    ∃ t, exec (.bundleLost q) s = .next t
      ∧ { t with alm := s.alm, evtOut := s.evtOut, irqs := s.irqs, ring := s.ring, svc := s.svc, twins := s.twins,
                  trace := s.trace, ports := s.ports } = s
      ∧ (t.port q).state ∈ [.train, .detect, .fault]
      ∧ t.get (0x5002 + 256 * q) 0x05 0 = 1
      ∧ counted s t (0x5002 + 256 * q) 0x07 1
      ∧ counted s t (0x3000 + 256 * q) 0x0C
          ((bundlesInUse (s.port q)).filter fun b => ((s.port q).bundles.getD b {}).lost
            && !((s.port q).bundles.getD b {}).told).length
      ∧ OtherPorts [q.val, logical s q] s t)
  ∧ (∀ (s : State) (q : PortId) (b : BundleId), s.Inv → s.elab_.portBuilt q = true → q.val < 8 →
    b.val < s.elab_.units q → (s.port q).state = .active → siblingMerged s q = false →
    outranked s q 5 = false → (s.port q).pllPark = false → (s.port q).ra < s.pget 0x5002 q 0x01 3 →
    ∃ t, exec (.fifoDrift q b) s = .next t
      ∧ { t with alm := s.alm, evtOut := s.evtOut, irqs := s.irqs, ring := s.ring, svc := s.svc, twins := s.twins,
                  trace := s.trace, ports := s.ports } = s
      ∧ (t.port q).state = .retrain
      ∧ (t.port q).ra = (s.port q).ra + 1
      ∧ counted s t (0x3000 + 256 * q) 0x0E 1
      ∧ counted s t (0x5001 + 256 * logical s q) 0x12 1
      ∧ OtherPorts [q.val, logical s q] s t)
  ∧ (∀ (s : State) (q : PortId) (b : BundleId), s.elab_.portBuilt q = true → q.val < 8 → b.val < s.elab_.units q →
    exec (.keepalive q b) s = .next s)
  ∧ (∀ (s : State) (q : PortId) (b : BundleId) (w : BitVec 32), s.elab_.portBuilt q = true → q.val < 8 →
    b.val < s.elab_.units q →
    exec (.trkWordInvalid q b w) s
      = .next (if trkGood w = true ∧ trkKnown w = true then s else s.bump (0x3000 + 256 * q) 0x0F 1))

/-- Live swap. A data wire whose located errors of the present 1-ms window reach the threshold asks for its spare with
SPARE_REQ in ACTIVE, unless a request of its group is pending; when the spare of its group cannot take it, this is
counted; in every other case nothing happens (R85). A request without an answer is repeated up to 16 copies and is
then given up and counted (R86). A transmitter in ACTIVE answers a SPARE_REQ with SPARE_GO for the same bundle and
wire. At SPARE_GO the map of the bundle names the wire as held by its group's spare, no longer as a marginal one, the
request is over and the swap is counted; without such a request nothing changes (R86). An idle spare whose mismatches
reach the threshold is flagged as failed; in every other case nothing happens (R84). -/
def Obligations.LiveSwap : Prop :=
  (∀ (s : State) (q : PortId) (b : BundleId) (w : WireId), s.elab_.portBuilt q = true → q.val < 8 →
    b.val < s.elab_.units q → (s.port q).state = .active → crcOnly s q = false → ucieMode s q = false →
    swapThreshold s q ≠ 0 → swapThreshold s q ≤ errorCount s ((s.port q).bundles.getD b {}) w →
    (((s.port q).bundles.getD b {}).swaps.any fun x => x.wire / 16 == w.val / 16) = false →
    exec (.liveSwapTrigger q b w) s = .next
      (if spareAvailable ((s.port q).bundles.getD b {}).spareMap (w.val / 16) then
        (s.modBundle q b fun bn => { bn with swaps := bn.swaps ++ [⟨w, 1⟩] }).sendCode q (some b.val) 4
          (w.val + 64 * b.val)
      else s.bump (0x3000 + 256 * q) 0x10 1))
  ∧ (∀ (s : State) (q : PortId) (b : BundleId) (w : WireId), s.elab_.portBuilt q = true → q.val < 8 →
    b.val < s.elab_.units q →
    ((s.port q).state ≠ .active ∨ crcOnly s q = true ∨ ucieMode s q = true ∨ swapThreshold s q = 0
      ∨ errorCount s ((s.port q).bundles.getD b {}) w < swapThreshold s q
      ∨ (((s.port q).bundles.getD b {}).swaps.any fun x => x.wire / 16 == w.val / 16) = true) →
    exec (.liveSwapTrigger q b w) s = .next s)
  ∧ (∀ (s : State) (q : PortId) (b : BundleId) (w : WireId) (x : Swap), s.elab_.portBuilt q = true → q.val < 8 →
    b.val < s.elab_.units q → ((s.port q).bundles.getD b {}).swaps.find? (fun y => y.wire == w.val) = some x →
    exec (.spareReqRepeat q b w) s = .next
      (if x.copies < 16 then
        (s.modBundle q b fun bn =>
          { bn with swaps := bn.swaps.map fun y =>
              if y.wire == w.val then { y with copies := y.copies + 1 } else y }).sendCode q (some b.val) 4
          (w.val + 64 * b.val)
      else
        (s.modBundle q b fun bn => { bn with swaps := bn.swaps.filter fun y => y.wire != w.val }).bump
          (0x3000 + 256 * q) 0x10 1))
  ∧ (∀ (s : State) (q : PortId) (b : BundleId) (w : WireId), s.elab_.portBuilt q = true → q.val < 8 →
    b.val < s.elab_.units q → (((s.port q).bundles.getD b {}).swaps.find? fun y => y.wire == w.val) = none →
    exec (.spareReqRepeat q b w) s = .next s)
  ∧ (∀ (s : State) (q : PortId) (b : BundleId) (w : WireId), s.Inv → s.elab_.portBuilt q = true → q.val < 8 →
    b.val < s.elab_.units q → (s.port q).state = .active → (s.port q).pllPark = false →
    ∃ t, exec (.spareReq q b w) s = .next t
      ∧ { t with ports := s.ports } = s
      ∧ (t.port q).codes = (s.port q).codes ++ [⟨some b.val, 5, w.val + 64 * b.val⟩]
      ∧ t.modPort q (fun p => { p with codes := (s.port q).codes }) = s)
  ∧ (∀ (s : State) (q : PortId) (b : BundleId) (w : WireId), s.elab_.portBuilt q = true → q.val < 8 →
    b.val < s.elab_.units q → (s.port q).state ≠ .active →
    exec (.spareReq q b w) s = .next s)
  ∧ (∀ (s : State) (q : PortId) (b : BundleId) (w : WireId), s.Inv → s.elab_.portBuilt q = true → q.val < 8 →
    b.val < s.elab_.units q → b.val < (s.port q).bundles.length →
    (((s.port q).bundles.getD b {}).swaps.any fun y => y.wire == w.val) = true →
    ∃ t m, exec (.spareGo q b w) s = .next t
      ∧ counted s t (0x3000 + 256 * q) 0x0B 1
      ∧ ((t.port q).bundles.getD b {}).swaps
          = ((s.port q).bundles.getD b {}).swaps.filter (fun y => y.wire != w.val)
      ∧ ((t.port q).bundles.getD b {}).spareMap = m
      ∧ bitsOf m (5 * (w.val / 16)) 4 = w.val % 16
      ∧ bitAt m (5 * (w.val / 16) + 4) = true
      ∧ bitAt m (20 + w.val / 16) = false
      ∧ (∀ i, i < 28 → i ≠ 20 + w.val / 16 → (i < 5 * (w.val / 16) ∨ 5 * (w.val / 16) + 5 ≤ i) →
          bitAt m i = bitAt ((s.port q).bundles.getD b {}).spareMap i)
      ∧ OnlyEntries [(0x3000 + 256 * q.val, 0x0B)] s t
      ∧ { t with alm := s.alm, ports := s.ports } = s
      ∧ OtherPorts [q.val] s t)
  ∧ (∀ (s : State) (q : PortId) (b : BundleId) (w : WireId), s.elab_.portBuilt q = true → q.val < 8 →
    b.val < s.elab_.units q → (((s.port q).bundles.getD b {}).swaps.any fun y => y.wire == w.val) = false →
    exec (.spareGo q b w) s = .next s)
  ∧ (∀ (s : State) (q : PortId) (b : BundleId) (g : Fin 4), s.Inv → s.elab_.portBuilt q = true → q.val < 8 →
    b.val < s.elab_.units q → b.val < (s.port q).bundles.length → crcOnly s q = false → swapThreshold s q ≠ 0 →
    swapThreshold s q ≤ errorCount s ((s.port q).bundles.getD b {}) (64 + g.val) →
    bitAt ((s.port q).bundles.getD b {}).spareMap (5 * g + 4) = false →
    bitAt ((s.port q).bundles.getD b {}).spareMap (24 + g) = false →
    ∃ t, exec (.spareFailed q b g) s = .next t
      ∧ { t with ports := s.ports } = s
      ∧ bitAt ((t.port q).bundles.getD b {}).spareMap (24 + g.val) = true
      ∧ (∀ i, i ≠ 24 + g.val →
          bitAt ((t.port q).bundles.getD b {}).spareMap i = bitAt ((s.port q).bundles.getD b {}).spareMap i)
      ∧ t.modBundle q b (fun bn => { bn with spareMap := ((s.port q).bundles.getD b {}).spareMap }) = s)
  ∧ (∀ (s : State) (q : PortId) (b : BundleId) (g : Fin 4), s.elab_.portBuilt q = true → q.val < 8 →
    b.val < s.elab_.units q →
    (crcOnly s q = true ∨ swapThreshold s q = 0
      ∨ errorCount s ((s.port q).bundles.getD b {}) (64 + g.val) < swapThreshold s q
      ∨ bitAt ((s.port q).bundles.getD b {}).spareMap (5 * g + 4) = true
      ∨ bitAt ((s.port q).bundles.getD b {}).spareMap (24 + g) = true) →
    exec (.spareFailed q b g) s = .next s)

/-- The reach PHY. A good training frame in detection notes the partner and its RDY (R99, R100). In XA3 a marker is
answered with an ECHO of its number, and an echo gives one loop value (R102). A lane loss in ACTIVE is recorded while
another lane in use is healthy, and the end of the window requests a LINK_FULL with cause 2 (R105). A degraded lane is
marked unless the threshold is 0 (R105). A codeword that decodes, whose header is good and which carries no control
code hands on its whole slots and keeps its half of slot 2, or completes slot 2 from the half kept; it keeps the port
in ACTIVE and its corrected symbols are counted (R94–R96). -/
def Obligations.ReachPhy : Prop :=
  (∀ (s : State) (q : PortId) (l : LaneId) (h : BitVec 64), s.ports.length = 10 → s.elab_.portBuilt q = true →
    8 ≤ q.val → l.val < s.elab_.units q → xframeGood h = true → (s.port q).state = .detect → (s.port q).pll = false →
    h.getLsbD 25 = false →
    exec (.trainingFrame q l h) s = .next
      (s.modPort q fun p => { p with partnerHello := true, partnerRdy := p.partnerRdy || h.getLsbD 26 }))
  ∧ (∀ (s : State) (q : PortId) (lmk : BitVec 4) (turn : BitVec 12) (at_ : Nat), s.elab_.portBuilt q = true →
    trains s q = true → (s.port q).step = .xa3 →
    exec (.latencyMarker q true lmk turn at_) s = .next
        (s.modPort q fun p => { p with loops := (p.loops ++ [s.now - at_ - turn.toNat]).take 16 })
    ∧ exec (.latencyMarker q false lmk turn at_) s = .next (s.modPort q fun p =>
        { p with once := p.once ++ [{ lmk := lmk.toNat, echo := true, since := s.now }],
                 onceAt := if p.once.isEmpty then s.now else p.onceAt }))
  ∧ (∀ (s : State) (q : PortId) (l : LaneId) (l' : Nat), s.ports.length = 10 → s.elab_.portBuilt q = true →
    8 ≤ q.val → l.val < s.elab_.units q → (s.port q).state = .active → l.val ∈ lanesInUse (s.port q) →
    ((s.port q).lanes.getD l {}).lost = false →
    l' ∈ lanesInUse (s.port q) → l' ≠ l.val → ((s.port q).lanes.getD l' {}).lost = false →
    (s.port q).rxLanes ≠ [] →
    exec (.laneLoss q l) s = .next ((s.modPort q fun p => { p with lossAt := some (p.lossAt.getD s.now) }).modLane q l
      fun ln => { ln with lost := true, state := 4 }))
  ∧ (∀ (s : State) (q : PortId), s.Inv → s.elab_.portBuilt q = true → (s.port q).state = .active →
    (s.port q).lossAt ≠ none → (∃ ln ∈ (s.port q).lanes, ln.lost = true) →
    (∃ l ∈ lanesInUse (s.port q), ((s.port q).lanes.getD l {}).lost = false) →
    outranked s q 4 = false → (s.port q).pllPark = false →
    ∃ t, exec (.laneLost q) s = .next t
      ∧ { t with alm := s.alm, evtOut := s.evtOut, irqs := s.irqs, ring := s.ring, svc := s.svc, twins := s.twins,
                  trace := s.trace, ports := s.ports } = s
      ∧ (t.port q).state ∈ [.train, .detect, .fault]
      ∧ t.get (0x5002 + 256 * q) 0x05 0 = 2
      ∧ counted s t (0x5002 + 256 * q) 0x07 1
      ∧ OtherPorts [q.val, logical s q] s t)
  ∧ (∀ (s : State) (q : PortId) (l : LaneId), s.elab_.portBuilt q = true → 8 ≤ q.val → l.val < s.elab_.units q →
    exec (.laneDegraded q l) s = .next
      (if s.get (0x4000 + 256 * (q.val - 8)) 0x09 2240 ≠ 0 ∧ ((s.port q).lanes.getD l {}).state = 1 then
        s.modLane q l fun ln => { ln with state := 5 }
      else s))
  ∧ (∀ (s : State) (q : PortId) (cw : Codeword), s.Inv → s.elab_.portBuilt q = true → 8 ≤ q.val →
    (s.port q).state = .active → (cwDecode cw).bad = false → cwHeaderGood (bitsOf (cwDecode cw).msg 0 20) = true →
    bitsOf (cwDecode cw).msg 12 4 = 0 → bitAt (cwDecode cw).msg 8 = false →
    ∃ t, exec (.codeword q cw) s = .next t
      ∧ (t.port q).state = .active
      ∧ (t.port q).cwBad = 0
      ∧ (t.port q).slotsIn = (s.port q).slotsIn
          ++ (slotFlit false (bitAt (cwDecode cw).msg 9) (bitsOf (cwDecode cw).msg 20 2048)
          ++ slotFlit false (bitAt (cwDecode cw).msg 10) (bitsOf (cwDecode cw).msg 2068 2048))
      ∧ (∃ sec : BitVec 5120, bitsOf sec.toNat 4096 1024 = bitsOf (cwDecode cw).msg 4116 1024
          ∧ (t.port q).cwHalf = some (sec, false, BitVec.ofNat 3 (bitsOf (cwDecode cw).msg 9 3)))
      ∧ counted64 s t (0x4000 + 256 * (q.val - 8)) 0x08 (cwDecode cw).fixed.length
      ∧ { t with alm := s.alm, ports := s.ports } = s
      ∧ OtherPorts [q.val] s t)
  ∧ (∀ (s : State) (q : PortId) (cw : Codeword) (h : BitVec 5120) (sv : BitVec 3), s.Inv → s.elab_.portBuilt q = true →
    8 ≤ q.val → (s.port q).state = .active → (s.port q).cwHalf = some (h, false, sv) →
    (cwDecode cw).bad = false → cwHeaderGood (bitsOf (cwDecode cw).msg 0 20) = true →
    bitsOf (cwDecode cw).msg 12 4 = 0 → bitAt (cwDecode cw).msg 8 = true →
    sv.getLsbD 2 = bitAt (cwDecode cw).msg 9 →
    ∃ t, exec (.codeword q cw) s = .next t
      ∧ (t.port q).state = .active
      ∧ (t.port q).cwBad = 0
      ∧ (t.port q).cwHalf = none
      ∧ (t.port q).slotsIn = (s.port q).slotsIn
          ++ (slotFlit false (bitAt (cwDecode cw).msg 9)
              (bitsOf h.toNat 4096 1024 + 2 ^ 1024 * bitsOf (cwDecode cw).msg 20 1024)
          ++ slotFlit false (bitAt (cwDecode cw).msg 10) (bitsOf (cwDecode cw).msg 1044 2048)
          ++ slotFlit false (bitAt (cwDecode cw).msg 11) (bitsOf (cwDecode cw).msg 3092 2048))
      ∧ counted64 s t (0x4000 + 256 * (q.val - 8)) 0x08 (cwDecode cw).fixed.length
      ∧ { t with alm := s.alm, ports := s.ports } = s
      ∧ OtherPorts [q.val] s t)

/-- The sleep handshake. A request of the partner in ACTIVE is acknowledged when nothing is to be sent, no calendar
owns slots and no unit refuses, is refused otherwise, and settles with an own request for the shallower target (R87,
R13); a reach port refuses NAP (R108). An acknowledgement of the target asked fixes it. A refusal and a missing answer
end the request, restart the idle count and are counted. Entry leaves ACTIVE for the target, and for DORMANT the
results are retained and the PLL is off (R87, R89). A port whose calendar owns slots by then stays ACTIVE (R13). -/
def Obligations.SleepHandshake : Prop :=
  (∀ (s : State) (q : PortId) (tg : SleepTarget), s.elab_.portBuilt q = true → (s.port q).state = .active →
    (s.port q).sleepReq = none → ¬(8 ≤ q.val ∧ tg = .nap) → ownsSlots (s.port (logical s q)) = false →
    exec (.sleepReq q tg) s = .next
      (if somethingToSend s q = true ∨ unitRefusesSleep s q = true then s.sendCode q none 3 0
      else (s.modPort q fun p => { p with sleepTo := some tg }).sendCode q none 2 (if tg = .nap then 1 else 2)))
  ∧ (∀ (s : State) (q : PortId), s.elab_.portBuilt q = true → (s.port q).state = .active → 8 ≤ q.val →
    exec (.sleepReq q .nap) s = .next (s.sendCode q none 3 0))
  ∧ (∀ (s : State) (q : PortId) (tg : SleepTarget), s.elab_.portBuilt q = true → (s.port q).state = .active →
    ¬(8 ≤ q.val ∧ tg = .nap) → ownsSlots (s.port (logical s q)) = true →
    exec (.sleepReq q tg) s = .next
      ((s.modPort q fun p => { p with sleepReq := none, sleepTo := none, wakeHeld := false, idleAt := s.now }).sendCode
        q none 3 0))
  ∧ (∀ (s : State) (q : PortId) (tg own : SleepTarget), s.elab_.portBuilt q = true → (s.port q).state = .active →
    ¬(8 ≤ q.val ∧ tg = .nap) → ownsSlots (s.port (logical s q)) = false → (s.port q).sleepReq = some own →
    exec (.sleepReq q tg) s = .next (s.modPort q fun p =>
      { p with sleepReq := none, sleepTo := some (if own = .nap ∨ tg = .nap then .nap else .dormant) }))
  ∧ (∀ (s : State) (q : PortId) (tg : SleepTarget), s.elab_.portBuilt q = true → (s.port q).sleepReq = some tg →
    ownsSlots (s.port (logical s q)) = false →
    exec (.sleepAck q tg) s = .next (s.modPort q fun p => { p with sleepReq := none, sleepTo := some tg }))
  ∧ (∀ (s : State) (q : PortId) (c : Instr), c = .sleepNak q ∨ c = .sleepReqTimeout q → s.Inv →
    s.elab_.portBuilt q = true → (s.port q).sleepReq ≠ none →
    ∃ t, exec c s = .next t
      ∧ (t.port q).sleepReq = none
      ∧ (t.port q).idleAt = s.now
      ∧ (t.port q).state = (s.port q).state
      ∧ counted s t (0xD100 + 16 * q) 0x06 1
      ∧ OnlyEntries [(0xD100 + 16 * q.val, 0x06)] s t
      ∧ { t with alm := s.alm, ports := s.ports } = s
      ∧ OtherPorts [q.val] s t)
  ∧ (∀ (s : State) (q : PortId) (tg : SleepTarget), s.Inv → s.elab_.portBuilt q = true → (s.port q).state = .active →
    (s.port q).sleepTo = some tg → ownsSlots (s.port (logical s q)) = false →
    ((s.port q).codes.any fun c => c.code == 2) = false →
    ∃ t, exec (.sleepEntry q) s = .next t
      ∧ { t with alm := s.alm, core := s.core, coreAt := s.coreAt, evtOut := s.evtOut, trace := s.trace,
                  ports := s.ports } = s
      ∧ (t.port q).state = (if tg = .nap then .nap else .dormant)
      ∧ (t.port q).sleepTo = none
      ∧ (t.port q).sleepReq = none
      ∧ (tg = .dormant → (t.port q).retained = some (retain s q) ∧ (t.port q).pll = false))
  ∧ (∀ (s : State) (q : PortId) (tg : SleepTarget), s.elab_.portBuilt q = true → (s.port q).state = .active →
    (s.port q).sleepTo = some tg → ownsSlots (s.port (logical s q)) = true →
    exec (.sleepEntry q) s = .next
      (s.modPort q fun p => { p with sleepReq := none, sleepTo := none, wakeHeld := false, idleAt := s.now }))

/-- Wakes. A wake cause marks the sleeping port as waking and is counted; of the causes a request of this side drives
the wake pattern and the partner's does not (R88, R89, R109, R399). A cause during the handshake is held (R90). The
end of a NAP or DORMANT wake returns the port to ACTIVE without PARAM and writes its duration (R88, R89). A NAP
partner silent on every bundle is lost, one silent on some only loses those bundles, with a LINK_FULL of cause 1
(R88); a failed DORMANT wake trains fast (R89, R142). -/
def Obligations.Wakes : Prop :=
  (∀ (s : State) (q : PortId) (c : Instr), s.Inv → s.elab_.portBuilt q = true → (s.port q).wakeAt = none →
    (c = .portWake q ∧ (s.port q).state ∈ [.nap, .dormant] ∨ c = .napWakePattern q ∧ (s.port q).state = .nap
      ∨ c = .signalDetect q ∧ (s.port q).state = .dormant) →
    ∃ t, exec c s = .next t
      ∧ { t with alm := s.alm, core := s.core, coreAt := s.coreAt, ports := s.ports } = s
      ∧ (t.port q).wakeAt = some s.now
      ∧ (t.port q).waker = (if c = .portWake q then true else false)
      ∧ (t.port q).state = (s.port q).state
      ∧ counted s t (0xD100 + 16 * q) 0x05 1
      ∧ (s.core = .running → t.core = .running)
      ∧ OtherPorts (q.val :: (sibling s q).toList) s t)
  ∧ (∀ (s : State) (q : PortId) (c : Instr), c = .portWake q ∨ c = .napWakePattern q → s.elab_.portBuilt q = true →
    (s.port q).state = .active → (s.port q).sleepTo ≠ none → sibling s q = none →
    exec c s = .next (s.modPort q fun p => { p with wakeHeld := true }))
  ∧ (∀ (s : State) (q : PortId) (at_ : Nat), s.Inv → s.elab_.portBuilt q = true → (s.port q).state = .nap →
    (s.port q).wakeAt = some at_ →
    ∃ t, exec (.napWakeComplete q) s = .next t
      ∧ { t with alm := s.alm, evtOut := s.evtOut, trace := s.trace, ports := s.ports } = s
      ∧ (t.port q).state = .active
      ∧ (t.port q).wakeAt = none
      ∧ t.get (0xD100 + 16 * q) 0x07 0 = min (s.now - at_) 0xFFFFFFFF
      ∧ OtherPorts [q.val] s t)
  ∧ (∀ (s : State) (q : PortId) (silent : List BundleId), s.Inv → s.elab_.portBuilt q = true → q.val < 8 →
    (s.port q).state = .nap → (s.port q).wakeAt ≠ none → siblingMerged s q = false →
    (s.port q).bundles.length ≤ 16 →
    (∀ b : BundleId, bitAt (s.port q).mask b = true → b ∈ silent) →
    ∃ t, exec (.napWakeTimeout q silent) s = .next t
      ∧ { t with alm := s.alm, evtOut := s.evtOut, irqs := s.irqs, ring := s.ring, svc := s.svc, twins := s.twins,
                  trace := s.trace, ports := s.ports } = s
      ∧ (t.port q).state = .hold
      ∧ counted s t (0x3000 + 256 * q) 0x0C 1
      ∧ OtherPorts [q.val, logical s q] s t)
  ∧ (∀ (s : State) (q : PortId) (b b' : BundleId), s.Inv → s.elab_.portBuilt q = true → q.val < 8 →
    (s.port q).state = .nap → (s.port q).wakeAt ≠ none → (s.port q).pllPark = false → outranked s q 4 = false →
    b.val < (s.port q).bundles.length → b'.val < (s.port q).bundles.length → b ≠ b' →
    bitAt (s.port q).mask b = true → bitAt (s.port q).mask b' = true → (s.port q).retained = none →
    ∃ t, exec (.napWakeTimeout q [b]) s = .next t
      ∧ { t with alm := s.alm, evtOut := s.evtOut, irqs := s.irqs, ring := s.ring, svc := s.svc, twins := s.twins,
                  trace := s.trace, ports := s.ports } = s
      ∧ (t.port q).state ∈ [.train, .detect, .fault]
      ∧ t.get (0x5002 + 256 * q) 0x05 0 = 1
      ∧ counted s t (0x5002 + 256 * q) 0x07 1
      ∧ counted s t (0x3000 + 256 * q) 0x0C 1
      ∧ OtherPorts [q.val, logical s q] s t)
  ∧ (∀ (s : State) (q : PortId) (at_ : Nat) (c : Instr), c = .dormantWakeComplete q true ∨ c = .reachWakeComplete q true →
    s.Inv → s.elab_.portBuilt q = true → (s.port q).state = .dormant → (s.port q).wakeAt = some at_ →
    (8 ≤ q.val → wakeDelayOk (s.port q) = true) →
    ∃ t, exec c s = .next t
      ∧ { t with alm := s.alm, evtOut := s.evtOut, irqs := s.irqs, ring := s.ring, svc := s.svc, trace := s.trace,
                  ports := s.ports } = s
      ∧ (t.port q).state = .active
      ∧ (t.port q).pll = true
      ∧ (t.port q).wakeAt = none
      ∧ t.get (0xD100 + 16 * q) 0x07 0 = min (s.now - at_) 0xFFFFFFFF
      ∧ OtherPorts [q.val] s t)
  ∧ (∀ (s : State) (q : PortId) (c : Instr), c = .dormantWakeComplete q false ∨ c = .reachWakeComplete q false →
    s.Inv → s.elab_.portBuilt q = true → (s.port q).state = .dormant → (s.port q).wakeAt ≠ none →
    (s.port q).ta < s.pget 0x5002 q 0x02 4 →
    ∃ t, exec c s = .next t
      ∧ { t with alm := s.alm, evtOut := s.evtOut, irqs := s.irqs, ring := s.ring, svc := s.svc, trace := s.trace,
                  ports := s.ports } = s
      ∧ (t.port q).state = .train
      ∧ (t.port q).fast = true
      ∧ (t.port q).retained = none
      ∧ (t.port q).ta = (s.port q).ta + 1
      ∧ OtherPorts [q.val, logical s q] s t)

/-- The idle timers. A port without activity for its IDLE count refines ACTIVE to IDLE (R396). The NAP and DORMANT
counts ask the partner for sleep; a napping port wakes first to go to DORMANT; a port with activity stays as it is
(R398). `pm_wake_ports` wakes the ports of its mask (R399). -/
def Obligations.IdleTimers : Prop :=
  (∀ (s : State) (q : PortId), s.elab_.portBuilt q = true → (s.port q).state = .active →
    s.get (0xD100 + 16 * q) 0x01 16 ≠ 0 → hasActivity s q = false →
    exec (.idleEntry q) s = .next (s.modPort q fun p => { p with idle := true }))
  ∧ (∀ (s : State) (q : PortId) (c : Instr), c = .idleEntry q ∨ c = .napIdleExpiry q ∨ c = .dormantIdleExpiry q →
    s.elab_.portBuilt q = true → hasActivity s q = true → exec c s = .next s)
  ∧ (∀ (s : State) (q : PortId), s.elab_.portBuilt q = true → q.val < 8 → (s.port q).state = .active →
    s.get (0xD100 + 16 * q) 0x02 2000 ≠ 0 →
    ¬(s.get (0xD100 + 16 * q) 0x03 1000000 ≠ 0
      ∧ s.get (0xD100 + 16 * q) 0x03 1000000 ≤ s.get (0xD100 + 16 * q) 0x02 2000) →
    hasActivity s q = false → (s.port q).sleepReq = none → (s.port q).sleepTo = none → (s.port q).pllPark = false →
    unitRefusesSleep s q = false → sibling s q = none →
    exec (.napIdleExpiry q) s = .next
      ((s.modPort q fun p => { p with sleepReq := some .nap, sleepReqAt := s.now }).sendCode q none 1 1))
  ∧ (∀ (s : State) (q : PortId), s.elab_.portBuilt q = true → (s.port q).state = .active →
    s.get (0xD100 + 16 * q) 0x03 1000000 ≠ 0 → hasActivity s q = false → (s.port q).sleepReq = none →
    (s.port q).sleepTo = none → (s.port q).pllPark = false →
    unitRefusesSleep s q = false → sibling s q = none →
    exec (.dormantIdleExpiry q) s = .next
      ((s.modPort q fun p => { p with sleepReq := some .dormant, sleepReqAt := s.now }).sendCode q none 1 2))
  ∧ (∀ (s : State) (q : PortId), s.Inv → s.elab_.portBuilt q = true → (s.port q).state = .nap →
    (s.port q).wakeAt = none → s.get (0xD100 + 16 * q) 0x03 1000000 ≠ 0 → hasActivity s q = false →
    ∃ t, exec (.dormantIdleExpiry q) s = .next t
      ∧ { t with alm := s.alm, core := s.core, coreAt := s.coreAt, ports := s.ports } = s
      ∧ (t.port q).toDormant = true
      ∧ (t.port q).wakeAt = some s.now
      ∧ (t.port q).state = .nap
      ∧ OtherPorts (q.val :: (sibling s q).toList) s t)
  ∧ (∀ (s : State) (q : PortId) (mask : BitVec 16), s.Inv → s.elab_.portBuilt q = true → Writable s →
    mask.toNat < 1024 → bitAt mask.toNat q = true → (s.port q).state ∈ [.nap, .dormant] → (s.port q).wakeAt = none →
    ∃ t, exec (.pmWakePorts mask) s = .next t
      ∧ { t with alm := s.alm, core := s.core, coreAt := s.coreAt, trace := s.trace, ports := s.ports } = s
      ∧ (t.port q).wakeAt = some s.now
      ∧ (t.port q).state = (s.port q).state
      ∧ t.core ≠ .stopped)

/-- Recovery requests and timers. FULL_REQ begins a LINK_FULL with cause 5 from ACTIVE and RETRAIN, and RETRAIN_REQ a
retrain from ACTIVE within the limit (R142, R146, R148). A retrain that has trained ends in ACTIVE at its last mask
and width (R147). The loss of the own PLL keeps the state, is a LINK_FULL of cause 10 and parks the pins; the end of
the park begins detection with RSTF = 0, with GEN and the replay buffer kept (R154). The fault retry begins detection
with RA and TA at 0 (R150). The stable time clears TA, and RA when no flit is marked (R148, R149). A long stay in HOLD
or FAULT is noticed once and raises its cause (R153). -/
def Obligations.RecoveryTimers : Prop :=
  (∀ (s : State) (q : PortId), s.Inv → s.elab_.portBuilt q = true → (s.port q).state ∈ [.active, .retrain] →
    outranked s q 4 = false → (s.port q).pllPark = false →
    ∃ t, exec (.fullReq q) s = .next t
      ∧ { t with alm := s.alm, evtOut := s.evtOut, irqs := s.irqs, ring := s.ring, svc := s.svc, twins := s.twins,
                  trace := s.trace, ports := s.ports } = s
      ∧ (t.port q).state ∈ [.train, .detect, .fault]
      ∧ t.get (0x5002 + 256 * q) 0x05 0 = 5
      ∧ counted s t (0x5002 + 256 * q) 0x07 1
      ∧ OtherPorts [q.val, logical s q] s t)
  ∧ (∀ (s : State) (q : PortId), s.Inv → s.elab_.portBuilt q = true → (s.port q).state = .active →
    siblingMerged s q = false → outranked s q 5 = false → (s.port q).pllPark = false →
    (s.port q).ra < s.pget 0x5002 q 0x01 3 →
    ∃ t, exec (.retrainReq q) s = .next t
      ∧ { t with alm := s.alm, evtOut := s.evtOut, irqs := s.irqs, ring := s.ring, svc := s.svc, twins := s.twins,
                  trace := s.trace, ports := s.ports } = s
      ∧ (t.port q).state = .retrain
      ∧ (t.port q).ra = (s.port q).ra + 1
      ∧ counted s t (0x5001 + 256 * logical s q) 0x12 1
      ∧ OtherPorts [q.val, logical s q] s t)
  ∧ (∀ (s : State) (q : PortId), s.Inv → s.elab_.portBuilt q = true → (s.port q).state = .retrain →
    (s.port q).step = .idle →
    ∃ t, exec (.retrainComplete q) s = .next t
      ∧ { t with alm := s.alm, evtOut := s.evtOut, twins := s.twins, trace := s.trace, ports := s.ports } = s
      ∧ (t.port q).state = .active
      ∧ (t.port q).mask = (s.port q).lastMask
      ∧ (t.port q).width = (s.port q).lastWidth
      ∧ OtherPorts [q.val, logical s q] s t)
  ∧ (∀ (s : State) (q : PortId), s.Inv → s.elab_.portBuilt q = true →
    (s.port q).state ∈ [.active, .retrain, .detect, .train, .align, .param] →
    ∃ t, exec (.ownPllLoss q) s = .next t
      ∧ { t with alm := s.alm, twins := s.twins, ports := s.ports } = s
      ∧ (t.port q).state = (s.port q).state
      ∧ (t.port q).pll = false
      ∧ (t.port q).pllPark = true
      ∧ t.get (0x5002 + 256 * q) 0x05 0 = 10
      ∧ counted s t (0x5002 + 256 * q) 0x07 1
      ∧ OtherPorts [q.val, logical s q] s t)
  ∧ (∀ (s : State) (q : PortId), s.Inv → s.elab_.portBuilt q = true → (s.port q).pllPark = true →
    (s.port q).state ≠ .off →
    ∃ t, exec (.pllLossParkEnd q) s = .next t
      ∧ { t with alm := s.alm, evtOut := s.evtOut, trace := s.trace, ports := s.ports } = s
      ∧ (t.port q).state = .detect
      ∧ (t.port q).pllPark = false
      ∧ (t.port q).rstf = false
      ∧ (t.port q).gen = (s.port q).gen
      ∧ (t.port q).replay = (s.port q).replay
      ∧ OtherPorts [q.val, logical s q] s t)
  ∧ (∀ (s : State) (q : PortId), s.Inv → s.elab_.portBuilt q = true → (s.port q).state = .fault →
    s.pget 0x5000 q 0x17 100000000 ≠ 0 →
    ∃ t, exec (.faultRetry q) s = .next t
      ∧ { t with alm := s.alm, evtOut := s.evtOut, irqs := s.irqs, ring := s.ring, svc := s.svc, twins := s.twins,
                  trace := s.trace, ports := s.ports } = s
      ∧ (t.port q).state = .detect
      ∧ (t.port q).ra = 0
      ∧ (t.port q).ta = 0
      ∧ t.get (0x5002 + 256 * q) 0x05 0 = 9
      ∧ counted s t (0x5002 + 256 * q) 0x07 1
      ∧ OtherPorts [q.val, logical s q] s t)
  ∧ (∀ (s : State) (q : PortId), s.elab_.portBuilt q = true → (s.port q).state = .active →
    exec (.stableActive q) s = .next
      (s.modPort q fun p => { p with ta := 0, ra := if p.raMark.isNone then 0 else p.ra }))
  ∧ (∀ (s : State) (q : PortId), s.Inv → s.elab_.portBuilt q = true → (s.port q).state ∈ [.hold, .fault] →
    (s.port q).holdNoticed = false → s.pget 0x5002 q 0x0B 10000000 ≠ 0 →
    ∃ t, exec (.longHoldNotice q) s = .next t
      ∧ (t.port q).holdNoticed = true
      ∧ causeSet t 3
      ∧ OnlyEntries [(0x1001, 0x01)] s t
      ∧ { t with ports := s.ports, alm := s.alm, evtOut := s.evtOut, ring := s.ring, irqs := s.irqs } = s
      ∧ OtherPorts [q.val] s t)

/-- Enabling, supplying and resetting a port by management. 0 in `link_port_enable` and the loss of the supply take
the port to OFF with RA and TA at 0; 1, and the return of the supply, let it leave OFF into DETECT when nothing holds
it there (R59, R142, R168). `link_reset_req` starts a retrain or a LINK_FULL with cause 6 in ACTIVE, and leaves FAULT
for DETECT with RA and TA at 0 (R142, R146, R150). A new path delay is asked for while the port is OFF (R104). -/
def Obligations.PortManagement : Prop :=
  (∀ (s : State) (q : PortId), s.Inv → s.elab_.portBuilt q = true → Writable s → (s.port q).state ≠ .off →
    ∃ t, exec (.linkPortEnable q false) s = .next t
      ∧ { t with alm := s.alm, evtOut := s.evtOut, twins := s.twins, trace := s.trace, ports := s.ports } = s
      ∧ (t.port q).state = .off
      ∧ (t.port q).ra = 0 ∧ (t.port q).ta = 0
      ∧ t.get (0x5000 + 256 * q) 0x09 1 = 0
      ∧ OtherPorts [q.val, logical s q] s t)
  ∧ (∀ (s : State) (q : PortId), s.Inv → s.elab_.portBuilt q = true → Writable s → (s.port q).state = .off →
    (s.port q).supply = true → (s.port q).testHeld = false → s.strapRole.toNat < 6 → aliasState s ≠ 1 →
    s.core = .running → supRuns s = true →
    ∃ t, exec (.linkPortEnable q true) s = .next t
      ∧ { t with alm := s.alm, evtOut := s.evtOut, twins := s.twins, trace := s.trace, ports := s.ports } = s
      ∧ (t.port q).state = .detect
      ∧ t.get (0x5000 + 256 * q) 0x09 1 = 1
      ∧ OtherPorts [q.val, logical s q] s t)
  ∧ (∀ (s : State) (q : PortId), s.Inv → s.elab_.portBuilt q = true → (s.port q).state ≠ .off →
    ∃ t, exec (.portSupplyOff q) s = .next t
      ∧ { t with alm := s.alm, evtOut := s.evtOut, twins := s.twins, trace := s.trace, ports := s.ports } = s
      ∧ (t.port q).state = .off
      ∧ (t.port q).supply = false
      ∧ (t.port q).ra = 0 ∧ (t.port q).ta = 0
      ∧ OtherPorts [q.val, logical s q] s t)
  ∧ (∀ (s : State) (q : PortId), s.Inv → s.elab_.portBuilt q = true → (s.port q).state = .off →
    (s.port q).testHeld = false → s.strapRole.toNat < 6 → aliasState s ≠ 1 → inReset s = false →
    s.core = .running → supRuns s = true → s.pget 0x5000 q 0x09 1 = 1 →
    ∃ t, exec (.portSupplyOn q) s = .next t
      ∧ { t with alm := s.alm, evtOut := s.evtOut, trace := s.trace, ports := s.ports } = s
      ∧ (t.port q).state = .detect
      ∧ (t.port q).supply = true
      ∧ OtherPorts [q.val, logical s q] s t)
  ∧ (∀ (s : State) (q : PortId), s.Inv → s.elab_.portBuilt q = true → Writable s → (s.port q).state = .active →
    pairOf s q = none → outranked s q 5 = false → (s.port q).pllPark = false →
    (s.port q).ra < s.pget 0x5002 q 0x01 3 →
    ∃ t, exec (.linkResetReqRetrain q) s = .next t
      ∧ { t with alm := s.alm, core := s.core, coreAt := s.coreAt, evtOut := s.evtOut, irqs := s.irqs,
                  ring := s.ring, svc := s.svc, twins := s.twins, trace := s.trace, ports := s.ports } = s
      ∧ (t.port q).state = .retrain
      ∧ (t.port q).ra = (s.port q).ra + 1
      ∧ counted s t (0x5001 + 256 * q) 0x12 1
      ∧ OtherPorts [q.val] s t)
  ∧ (∀ (s : State) (q : PortId), s.Inv → s.elab_.portBuilt q = true → Writable s → (s.port q).state = .active →
    pairOf s q = none → outranked s q 4 = false → (s.port q).pllPark = false →
    ∃ t, exec (.linkResetReqFull q) s = .next t
      ∧ { t with alm := s.alm, core := s.core, coreAt := s.coreAt, evtOut := s.evtOut, irqs := s.irqs,
                  ring := s.ring, svc := s.svc, twins := s.twins, trace := s.trace, ports := s.ports } = s
      ∧ (t.port q).state ∈ [.train, .detect, .fault]
      ∧ t.get (0x5002 + 256 * q) 0x05 0 = 6
      ∧ counted s t (0x5002 + 256 * q) 0x07 1
      ∧ OtherPorts [q.val] s t)
  ∧ (∀ (s : State) (q : PortId), s.Inv → s.elab_.portBuilt q = true → Writable s → (s.port q).state = .fault →
    ∃ t, exec (.linkResetReqFull q) s = .next t
      ∧ { t with alm := s.alm, core := s.core, coreAt := s.coreAt, evtOut := s.evtOut, irqs := s.irqs,
                  ring := s.ring, svc := s.svc, twins := s.twins, trace := s.trace, ports := s.ports } = s
      ∧ (t.port q).state = .detect
      ∧ (t.port q).ra = 0 ∧ (t.port q).ta = 0
      ∧ t.get (0x5002 + 256 * q) 0x05 0 = 6)
  ∧ (∀ (s : State) (q : PortId), s.Inv → s.elab_.portBuilt q = true → 8 ≤ q.val → Writable s →
    (s.port q).state = .off →
    ∃ t, exec (.xphyPathDelayReset q) s = .next t
      ∧ t.get (0x4000 + 256 * (q.val - 8)) 0x06 0 = 1
      ∧ { t with alm := s.alm, trace := s.trace } = s)

/-- The PARAM exchange. A legal OFFER is kept with the new GEN and the agreed mask and is answered by ECHO; an illegal
one fails the attempt with reason 4 (R157–R160). A wrong ECHO fails it with reason 5, and a matching ECHO is answered
by COMMIT; a matching COMMIT is noted (R157). An ABORT fails the attempt with reason 7 and the time limit with reason
2 (R139, R162). PARAM ends in ACTIVE with the agreed GEN and mask (R157, R160, R161). While the receive buffer drains
the OFFER is repeated, and then the ECHO is sent (R163). -/
def Obligations.ParamExchange : Prop :=
  (∀ (s : State) (q : PortId) (body : BitVec 1920) (m : ParamMsg), m = ParamMsg.ofBody body → s.Inv →
    s.elab_.portBuilt q = true → (s.port q).state = .param → (s.port q).pllPark = false →
    m.pmt = 1 → (s.port q).param.partner ≠ some m → offerIllegal s q m = false →
    siblingMerged s q = false → (s.port q).offer &&& m.mask.toNat ≠ 0 → rxMismatch s q m = false →
    txMismatch s q m = false → mustDrain s q m = false →
    ∃ t, exec (.offer q body) s = .next t
      ∧ { t with alm := s.alm, evtOut := s.evtOut, irqs := s.irqs, ring := s.ring, svc := s.svc, trace := s.trace,
                  ports := s.ports, out := s.out } = s
      ∧ (t.port q).state = .param
      ∧ (t.port q).param.partner = some m
      ∧ (t.port q).param.gen = newGen (s.port (logical s q)).gen m.gen
      ∧ (t.port q).param.mask = (s.port q).offer &&& m.mask.toNat
      ∧ (t.port q).param.echoSent = true
      ∧ OtherPorts [q.val] s t)
  ∧ (∀ (s : State) (q : PortId) (body : BitVec 1920), s.Inv → s.elab_.portBuilt q = true → (s.port q).state = .param →
    (s.port q).pllPark = false → (s.port q).param.partner ≠ some (ParamMsg.ofBody body) →
    (ParamMsg.ofBody body).pmt = 1 → offerIllegal s q (ParamMsg.ofBody body) = true →
    (s.port q).ta < s.pget 0x5002 q 0x02 4 →
    ∃ t, exec (.offer q body) s = .next t
      ∧ { t with alm := s.alm, evtOut := s.evtOut, irqs := s.irqs, ring := s.ring, svc := s.svc, trace := s.trace,
                  ports := s.ports, out := s.out } = s
      ∧ (t.port q).state = .train
      ∧ (t.port q).ta = (s.port q).ta + 1
      ∧ t.get (0x5002 + 256 * q) 0x06 0 = 4
      ∧ OtherPorts [q.val, logical s q] s t)
  ∧ (∀ (s : State) (q : PortId) (body : BitVec 1920) (m off : ParamMsg), m = ParamMsg.ofBody body → s.Inv →
    s.elab_.portBuilt q = true → (s.port q).state = .param → (s.port q).pllPark = false →
    (s.port q).param.commitAt = none → m.pmt = 2 → (s.port q).param.partner = some off →
    m.gen = (s.port q).param.gen → m.mask.toNat = (s.port q).param.mask → siblingMerged s q = false →
    ∃ t, exec (.echo q body) s = .next t
      ∧ (t.port q).param.commitAt = some s.now
      ∧ (t.port q).params = (s.port q).params ++ [agreedParam s q 3]
      ∧ (t.port q).state = .param
      ∧ { t with ports := s.ports, out := s.out } = s
      ∧ OtherPorts [q.val] s t)
  ∧ (∀ (s : State) (q : PortId) (body : BitVec 1920) (m : ParamMsg), m = ParamMsg.ofBody body → s.Inv →
    s.elab_.portBuilt q = true → (s.port q).state = .param → (s.port q).pllPark = false →
    (s.port q).param.commitAt = none → m.pmt = 2 → (s.port q).param.partner ≠ none →
    m.gen ≠ (s.port q).param.gen → (s.port q).ta < s.pget 0x5002 q 0x02 4 →
    ∃ t, exec (.echo q body) s = .next t
      ∧ { t with alm := s.alm, evtOut := s.evtOut, irqs := s.irqs, ring := s.ring, svc := s.svc, trace := s.trace,
                  ports := s.ports, out := s.out } = s
      ∧ (t.port q).state = .train
      ∧ (t.port q).ta = (s.port q).ta + 1
      ∧ t.get (0x5002 + 256 * q) 0x06 0 = 5
      ∧ OtherPorts [q.val, logical s q] s t)
  ∧ (∀ (s : State) (q : PortId) (body : BitVec 1920) (m : ParamMsg), m = ParamMsg.ofBody body →
    s.elab_.portBuilt q = true → (s.port q).state = .param → (s.port q).pllPark = false → m.pmt = 3 → (s.port q).param.partner ≠ none →
    m.gen = (s.port q).param.gen → m.mask.toNat = (s.port q).param.mask →
    exec (.commit q body) s = .next
      (s.modPort q fun p => { p with param := { p.param with commitRcvd := true } }))
  ∧ (∀ (s : State) (q : PortId) (c : Instr) (reason : Nat),
    c = .paramAbort q ∧ reason = 7 ∨ c = .paramTimeout q ∧ reason = 2 →
    s.Inv → s.elab_.portBuilt q = true → (s.port q).state = .param → (s.port q).pllPark = false →
    (s.port q).ta < s.pget 0x5002 q 0x02 4 →
    ∃ t, exec c s = .next t
      ∧ { t with alm := s.alm, evtOut := s.evtOut, irqs := s.irqs, ring := s.ring, svc := s.svc, twins := s.twins,
                  trace := s.trace, ports := s.ports } = s
      ∧ (t.port q).state = .train
      ∧ (t.port q).ta = (s.port q).ta + 1
      ∧ t.get (0x5002 + 256 * q) 0x06 0 = reason
      ∧ OtherPorts [q.val, logical s q] s t)
  ∧ (∀ (s : State) (q : PortId) (m : ParamMsg), s.Inv → s.elab_.portBuilt q = true → (s.port q).state = .param →
    (s.port q).pllPark = false → (s.port q).param.partner = some m → (s.port q).param.commitAt ≠ none → (s.port q).param.commitRcvd = true →
    pairOf s q = none →
    ∃ t, exec (.enterActive q) s = .next t
      ∧ { t with alm := s.alm, tabs := s.tabs, evtOut := s.evtOut, irqs := s.irqs, ring := s.ring, svc := s.svc,
                  twins := s.twins, trace := s.trace, ports := s.ports } = s
      ∧ (t.port q).state = .active
      ∧ (t.port q).gen = (s.port q).param.gen
      ∧ (t.port q).mask = (s.port q).param.mask
      ∧ (t.port q).partnerDie = m.die
      ∧ (t.port q).step = .idle
      ∧ OtherPorts [q.val] s t)
  ∧ (∀ (s : State) (q : PortId) (m : ParamMsg), s.elab_.portBuilt q = true → (s.port q).state = .param →
    (s.port q).pllPark = false → (s.port q).param.partner = some m → (s.port q).param.echoSent = false → mustDrain s q m = true →
    exec (.offerRepeat q) s = .next (s.sendParam q { ownParam s q with pmt := 1 }))
  ∧ (∀ (s : State) (q : PortId) (m : ParamMsg), s.Inv → s.elab_.portBuilt q = true → (s.port q).state = .param →
    (s.port q).pllPark = false → (s.port q).param.partner = some m → (s.port q).param.echoSent = false → mustDrain s q m = false →
    ∃ t, exec (.offerRepeat q) s = .next t
      ∧ (t.port q).param.echoSent = true
      ∧ (t.port q).state = .param
      ∧ { t with ports := s.ports, out := s.out } = s
      ∧ OtherPorts [q.val] s t)

/-- The link timers and the control cells that no other rule names. An acknowledgement is owed at the end of its delay
(R121). The acknowledge time limit is counted and starts a replay from O, or a retrain of the active unit when the
flit has had its limit (R124, R125). The guard of a NAK ends (R120). CREDIT cells are owed at the end of the credit
delay when a return is pending (R132). A VC that lacks only credit for the time limit asks for a LINK_FULL with cause
4 (R139). A CREDIT cell gives back its counts (R132, R136). An unknown cell is counted and dropped (R135). -/
def Obligations.LinkTimers : Prop :=
  (∀ (s : State) (q : PortId), s.elab_.portBuilt q = true → (s.port (logical s q)).ackAt ≠ none →
    exec (.ackDelayExpiry q) s = .next (s.modPort (logical s q) fun p => { p with ackOwed := true }))
  ∧ (∀ (s : State) (q : PortId) (l : Nat), l = logical s q → s.elab_.portBuilt q = true → linkUp s l = true →
    (s.port l).replay ≠ [] → (s.port l).replayAt ≠ some s.now → (s.port l).replayCnt < s.pget 0x5000 l 0x13 4 →
    exec (.ackTimeout q) s = .next
      (((s.modPort l fun p =>
        { p with replayCnt := p.replayCnt + 1, replayPtr := some 0, replayAt := some s.now }).pbump 0x5001 l 0x07 1).pbump
        0x5001 l 0x09 1))
  ∧ (∀ (s : State) (q : PortId) (l u : Nat), l = logical s q → u = activeUnit s l → s.Inv →
    s.elab_.portBuilt q = true → linkUp s l = true → (s.port l).replay ≠ [] →
    s.pget 0x5000 l 0x13 4 ≤ (s.port l).replayCnt → (s.port u).state = .active → siblingMerged s u = false →
    (s.port l).replayAt ≠ some s.now → outranked s u 5 = false → (s.port u).pllPark = false →
    (s.port u).ra < s.pget 0x5002 u 0x01 3 →
    ∃ t, exec (.ackTimeout q) s = .next t
      ∧ { t with alm := s.alm, evtOut := s.evtOut, irqs := s.irqs, ring := s.ring, svc := s.svc, twins := s.twins,
                  trace := s.trace, ports := s.ports } = s
      ∧ (t.port u).state = .retrain
      ∧ counted s t (0x5001 + 256 * l) 0x09 1)
  ∧ (∀ (s : State) (q : PortId), s.elab_.portBuilt q = true → (s.port (logical s q)).nakSent = true →
    exec (.nakGuardExpiry q) s = .next (s.modPort (logical s q) fun p => { p with nakOver := true }))
  ∧ (∀ (s : State) (q : PortId), s.elab_.portBuilt q = true → linkUp s (logical s q) = true →
    (∃ n ∈ (s.port (logical s q)).pend, n ≠ 0) →
    exec (.creditDelayExpiry q) s = .next (s.modPort (logical s q) fun p => { p with credOut := true }))
  ∧ (∀ (s : State) (q : PortId) (l u : Nat), l = logical s q → u = activeUnit s l → s.Inv →
    s.elab_.portBuilt q = true → s.pget 0x5000 l 0x14 1000000 ≠ 0 → (s.port u).state = .active →
    (List.range 15).any (fun i => creditStarved s l (cands s l) (i + 1)) = true →
    outranked s u 4 = false → (s.port u).pllPark = false →
    ∃ t, exec (.creditTimeout q) s = .next t
      ∧ { t with alm := s.alm, evtOut := s.evtOut, irqs := s.irqs, ring := s.ring, svc := s.svc, twins := s.twins,
                  trace := s.trace, ports := s.ports } = s
      ∧ (t.port u).state ∈ [.train, .detect, .fault]
      ∧ t.get (0x5002 + 256 * u) 0x05 0 = 4
      ∧ counted s t (0x5002 + 256 * u) 0x07 1)
  ∧ (∀ (s : State) (q : PortId) (l : Nat) (c : CtrlIn), l = logical s q → s.elab_.portBuilt q = true →
    ctrlHead s l 1 = some c →
    ∃ t, exec (.credit q) s = .next t
      ∧ { t with alm := s.alm, twins := s.twins, ports := s.ports } = s
      ∧ (t.port l).ctrlIn = (s.port l).ctrlIn.drop 1
      ∧ (∀ v, v ≠ 0 → (t.port l).uv.getD v 0
          = (s.port l).uv.getD v 0 - sumNat (((creditEntries c.cell).filter fun x => x.1 == v).map (·.2)))
      ∧ OtherPorts [l] s t)
  ∧ (∀ (s : State) (q : PortId) (l : Nat) (c : CtrlIn) (cs : List CtrlIn), l = logical s q →
    s.elab_.portBuilt q = true → (s.port l).ctrlIn = c :: cs → 10 ≤ (c.cell.extractLsb' 0 8).toNat →
    exec (.unknownCtrl q) s = .next ((s.modPort l fun p => { p with ctrlIn := p.ctrlIn.drop 1 }).pbump 0x5001 l 0x11 1))

/-- What a flit slot carries. Nothing when the port does not send or no slot is free in this cc (R87, R118). The flit
at the replay pointer before everything else, again with its FSEQ and cells (R11, R123). With the replay buffer full
an owed acknowledgement alone, or nothing (R121, R126). A scheduled flit, then control cells, then the credit returns
that are owed, then the cells of transactions, as new sequenced flits, which enter the replay buffer with the next
FSEQ (R11, R119, R129, R132); nothing when nothing waits. -/
def Obligations.FlitSlot : Prop :=
  (∀ (s : State) (q : PortId), s.elab_.portBuilt q = true →
    (linkSends s (logical s q) = false ∨ slotFree s (logical s q) = false) →
    exec (.flitSlotFill q) s = .next s)
  ∧ (∀ (s : State) (q l : PortId) (i : Nat) (f : Flit), s.Inv → s.elab_.portBuilt q = true → logical s q = l →
    linkSends s l = true → slotFree s l = true → (s.port l).replayPtr = some i → (s.port l).replay[i]? = some f →
    i < (s.port l).replay.length - (s.port l).fresh → pairOf s l = none →
    ∃ t b inv g, exec (.flitSlotFill q) s = .next t
      ∧ { t with alm := s.alm, trace := s.trace, ports := s.ports, out := s.out } = s
      ∧ t.out = s.out ++ [.flit l b g inv]
      ∧ g.rply = true ∧ g.fseq = f.fseq ∧ g.cells = f.cells ∧ g.ftype = f.ftype
      ∧ (t.port l).replay = (s.port l).replay
      ∧ (t.port l).replayPtr = (if i + 1 < (s.port l).replay.length then some (i + 1) else none)
      ∧ counted64 s t (0x5001 + 256 * l) 0x08 1
      ∧ OtherPorts [l.val] s t)
  ∧ (∀ (s : State) (q : PortId) (l : Nat), l = logical s q → s.elab_.portBuilt q = true → linkSends s l = true →
    slotFree s l = true → (s.port l).replayPtr = none → replayRoom s l = false → (s.port l).ackOwed = false →
    (s.port l).nakOwed = false →
    exec (.flitSlotFill q) s = .next (s.modPort l (obsAdd 56 1)))
  ∧ (∀ (s : State) (q l : PortId), s.Inv → logical s q = l → s.elab_.portBuilt q = true → linkSends s l = true →
    slotFree s l = true → (s.port l).replayPtr = none → replayRoom s l = false →
    ((s.port l).ackOwed = true ∨ (s.port l).nakOwed = true) → pairOf s l = none →
    ∃ t b g, exec (.flitSlotFill q) s = .next t
      ∧ { t with alm := s.alm, trace := s.trace, ports := s.ports, out := s.out } = s
      ∧ t.out = s.out ++ [.flit l b g false]
      ∧ g.ftype = 4 ∧ g.ackseq = (s.port l).e - 1 ∧ g.ackk = (if (s.port l).nakOwed then 2 else 1)
      ∧ (t.port l).ackOwed = false ∧ (t.port l).nakOwed = false ∧ (t.port l).ackAt = none
      ∧ (t.port l).replay = (s.port l).replay
      ∧ OtherPorts [l.val] s t)
  ∧ (∀ (s : State) (q l : PortId) (x : Flit × Epoch) (xs : List (Flit × Epoch)), s.Inv → logical s q = l →
    s.elab_.portBuilt q = true → linkSends s l = true → slotFree s l = true → (s.port l).replayPtr = none →
    replayRoom s l = true → schedReady (s.port l) = true → (s.port l).schedOut = x :: xs →
    ∃ t g, exec (.flitSlotFill q) s = .next t
      ∧ { t with alm := s.alm, twins := s.twins, trace := s.trace, ports := s.ports, out := s.out } = s
      ∧ (t.port l).schedOut = xs
      ∧ (t.port l).replay = (s.port l).replay ++ [g]
      ∧ g.cells = x.1.cells ∧ g.slot = x.1.slot ∧ g.fseq = (s.port l).o + BitVec.ofNat 12 (s.port l).replay.length
      ∧ counted64 s t (0x5001 + 256 * l) 0x01 1
      ∧ OtherPorts [l.val] (if pairOf s l = none then s else t) t)
  ∧ (∀ (s : State) (q l : PortId), s.Inv → logical s q = l → s.elab_.portBuilt q = true → linkSends s l = true →
    slotFree s l = true → (s.port l).replayPtr = none → replayRoom s l = true → schedReady (s.port l) = false →
    (s.port l).ctrlOut ≠ [] →
    ∃ t g, exec (.flitSlotFill q) s = .next t
      ∧ { t with alm := s.alm, twins := s.twins, trace := s.trace, ports := s.ports, out := s.out } = s
      ∧ (t.port l).ctrlOut = (nextCtrl (s.port l)).2
      ∧ (t.port l).replay = (s.port l).replay ++ [g]
      ∧ g.ftype = 3 ∧ g.fseq = (s.port l).o + BitVec.ofNat 12 (s.port l).replay.length
      ∧ g.cells = pad15 ((nextCtrl (s.port l)).1.map (stampBeacon s l))
      ∧ counted64 s t (0x5001 + 256 * l) 0x01 1)
  ∧ (∀ (s : State) (q l : PortId), s.Inv → logical s q = l → s.elab_.portBuilt q = true → linkSends s l = true →
    slotFree s l = true → (s.port l).replayPtr = none → replayRoom s l = true → (s.port l).schedOut = [] →
    (s.port l).ctrlOut = [] → (s.port l).credOut = true → pairOf s l = none →
    ∃ t g, exec (.flitSlotFill q) s = .next t
      ∧ { t with alm := s.alm, trace := s.trace, ports := s.ports, out := s.out } = s
      ∧ (t.port l).pend = List.replicate 16 0
      ∧ (t.port l).credOut = false
      ∧ (t.port l).replay = (s.port l).replay ++ [g]
      ∧ g.ftype = 3 ∧ g.fseq = (s.port l).o + BitVec.ofNat 12 (s.port l).replay.length
      ∧ counted64 s t (0x5001 + 256 * l) 0x01 1
      ∧ OtherPorts [l.val] s t)
  ∧ (∀ (s : State) (q l : PortId), s.Inv → logical s q = l → s.elab_.portBuilt q = true → linkSends s l = true →
    slotFree s l = true → (s.port l).replayPtr = none → replayRoom s l = true → (s.port l).schedOut = [] →
    (s.port l).ctrlOut = [] → (s.port l).credOut = false → 15 ≤ (s.port l).stream.length → pairOf s l = none →
    ∃ t g, exec (.flitSlotFill q) s = .next t
      ∧ { t with alm := s.alm, trace := s.trace, ports := s.ports, out := s.out } = s
      ∧ (t.port l).stream = (s.port l).stream.drop 15
      ∧ (t.port l).replay = (s.port l).replay ++ [g]
      ∧ g.ftype = 1 ∧ g.cells = (s.port l).stream.take 15
      ∧ g.fseq = (s.port l).o + BitVec.ofNat 12 (s.port l).replay.length
      ∧ counted64 s t (0x5001 + 256 * l) 0x01 1
      ∧ OtherPorts [l.val] s t)
  ∧ (∀ (s : State) (q : PortId) (l : Nat), l = logical s q → s.elab_.portBuilt q = true → linkSends s l = true →
    slotFree s l = true → (s.port l).replayPtr = none → replayRoom s l = true → (s.port l).schedOut = [] →
    (s.port l).ctrlOut = [] → (s.port l).credOut = false → (s.port l).ackOwed = false → (s.port l).nakOwed = false →
    (s.port l).stream = [] → cands s l = [] →
    exec (.flitSlotFill q) s = .next (s.modPort l (obsAdd 56 1)))

/-- The sequence check of one flit. A bad flit is counted and a NAK is owed (R117, R119, R120), and so does a DATA
flit whose framing or credit is broken, of which no acknowledgement is used (R117, R130). The expected scheduled flit
is accepted and E advances, and so does the expected DATA flit, whose whole transactions enter the receive buffer
(R119, R129). A flit from before E is a duplicate, counted and dropped, and is acknowledged (R119). An acknowledgement
frees the flits it names (R122). A flit of another GEN asks for a LINK_FULL with cause 3 (R117, R142). -/
def Obligations.SequenceCheck : Prop :=
  (∀ (s : State) (q : PortId) (r : RxFlit) (c : Checked), s.Inv → s.elab_.portBuilt q = true →
    pairOf s q = none → linkUp s q = true → (s.port q).slotsIn = [] →
    (if Config.isReach q then [checkReach r]
      else (wireFlits s q [r]).map fun x => if ucieMode s q then checkUcie x.bits else checkWire x.bits) = [c] →
    c.bad = true → (s.port q).nakSent = false →
    ∃ t, exec (.flitReceive q [r]) s = .next t
      ∧ { t with alm := s.alm, trace := s.trace, ports := s.ports } = s
      ∧ (t.port q).e = (s.port q).e
      ∧ (t.port q).nakOwed = true
      ∧ (t.port q).rx = (s.port q).rx ∧ (t.port q).schedIn = (s.port q).schedIn
      ∧ counted64 s t (0x5001 + 256 * q) 0x04 1
      ∧ OtherPorts [q.val] s t)
  ∧ (∀ (s : State) (q : PortId) (r : RxFlit) (c : Checked) (er : UnpackErr), s.Inv → s.elab_.portBuilt q = true →
    pairOf s q = none → linkUp s q = true → (s.port q).slotsIn = [] →
    (if Config.isReach q then [checkReach r]
      else (wireFlits s q [r]).map fun x => if ucieMode s q then checkUcie x.bits else checkWire x.bits) = [c] →
    c.bad = false → c.flit.gen = (s.port q).gen → c.flit.ftype = 1 → c.flit.fseq = (s.port q).e →
    unpack (s.port q).rsvA (s.port q).shA c.flit.cells ⟨rxUsed (s.port q), (s.port q).rxOpen, []⟩ = .error er →
    (s.port q).nakSent = false →
    ∃ t, exec (.flitReceive q [r]) s = .next t
      ∧ { t with alm := s.alm, trace := s.trace, ports := s.ports } = s
      ∧ (t.port q).e = (s.port q).e
      ∧ (t.port q).nakOwed = true
      ∧ (t.port q).rx = (s.port q).rx
      ∧ (t.port q).replay = (s.port q).replay
      ∧ counted64 s t (0x5001 + 256 * q) 0x04 1
      ∧ OtherPorts [q.val] s t)
  ∧ (∀ (s : State) (q : PortId) (r : RxFlit) (c : Checked), s.Inv → s.elab_.portBuilt q = true →
    pairOf s q = none → linkUp s q = true → (s.port q).slotsIn = [] →
    (if Config.isReach q then [checkReach r]
      else (wireFlits s q [r]).map fun x => if ucieMode s q then checkUcie x.bits else checkWire x.bits) = [c] →
    c.bad = false → c.flit.gen = (s.port q).gen → c.flit.ftype = 2 → c.flit.fseq = (s.port q).e → c.flit.ackk = 0 →
    c.flit.crcnt = 0 →
    ∃ t, exec (.flitReceive q [r]) s = .next t
      ∧ { t with alm := s.alm, trace := s.trace, ports := s.ports } = s
      ∧ (t.port q).e = (s.port q).e + 1
      ∧ (t.port q).schedIn = (s.port q).schedIn ++ [{ flit := c.flit, epoch := (s.port q).beaconEpoch, at_ := s.now }]
      ∧ (t.port q).nakSent = false
      ∧ (t.port q).ackAt = some ((s.port q).ackAt.getD s.now)
      ∧ counted64 s t (0x5001 + 256 * q) 0x02 1
      ∧ OtherPorts [q.val] s t)
  ∧ (∀ (s : State) (q : PortId) (r : RxFlit) (c : Checked) (u : Unpack), s.Inv → s.elab_.portBuilt q = true →
    pairOf s q = none → linkUp s q = true → (s.port q).slotsIn = [] →
    (if Config.isReach q then [checkReach r]
      else (wireFlits s q [r]).map fun x => if ucieMode s q then checkUcie x.bits else checkWire x.bits) = [c] →
    c.bad = false → c.flit.gen = (s.port q).gen → c.flit.ftype = 1 → c.flit.fseq = (s.port q).e → c.flit.ackk = 0 →
    c.flit.crcnt = 0 →
    unpack (s.port q).rsvA (s.port q).shA c.flit.cells ⟨rxUsed (s.port q), (s.port q).rxOpen, []⟩ = .ok u →
    ∃ t ws, exec (.flitReceive q [r]) s = .next t
      ∧ { t with alm := s.alm, seqNo := s.seqNo, trace := s.trace, ports := s.ports } = s
      ∧ (t.port q).e = (s.port q).e + 1
      ∧ (t.port q).rx = (s.port q).rx ++ ws
      ∧ (∀ x h data, x ∈ u.done → x.2 = h :: data → ∃ w ∈ ws, w.txn = Txn.ofCells h data ∧ w.vc = x.1)
      ∧ ws.length ≤ u.done.length
      ∧ (t.port q).rxOpen = u.open_
      ∧ counted64 s t (0x5001 + 256 * q) 0x02 1
      ∧ OtherPorts [q.val] s t)
  ∧ (∀ (s : State) (q : PortId) (r : RxFlit) (c : Checked), s.Inv → s.elab_.portBuilt q = true →
    pairOf s q = none → linkUp s q = true → (s.port q).slotsIn = [] →
    (if Config.isReach q then [checkReach r]
      else (wireFlits s q [r]).map fun x => if ucieMode s q then checkUcie x.bits else checkWire x.bits) = [c] →
    c.bad = false → c.flit.gen = (s.port q).gen → c.flit.ftype ∈ [(1 : BitVec 4), 2, 3] →
    2048 ≤ (c.flit.fseq - (s.port q).e).toNat → c.flit.ackk = 0 →
    ∃ t, exec (.flitReceive q [r]) s = .next t
      ∧ { t with alm := s.alm, trace := s.trace, ports := s.ports } = s
      ∧ (t.port q).e = (s.port q).e
      ∧ (t.port q).rx = (s.port q).rx ∧ (t.port q).schedIn = (s.port q).schedIn ∧ (t.port q).ctrlIn = (s.port q).ctrlIn
      ∧ (t.port q).ackAt = some ((s.port q).ackAt.getD s.now)
      ∧ counted64 s t (0x5001 + 256 * q) 0x0A 1
      ∧ OtherPorts [q.val] s t)
  ∧ (∀ (s : State) (q : PortId) (r : RxFlit) (c : Checked) (n : Nat), s.Inv → s.elab_.portBuilt q = true →
    pairOf s q = none → linkUp s q = true → (s.port q).slotsIn = [] →
    (if Config.isReach q then [checkReach r]
      else (wireFlits s q [r]).map fun x => if ucieMode s q then checkUcie x.bits else checkWire x.bits) = [c] →
    c.bad = false → c.flit.gen = (s.port q).gen → c.flit.ftype = 4 → c.flit.ackk = 1 →
    n = (c.flit.ackseq - (s.port q).o + 1).toNat → n ≤ (s.port q).replay.length →
    ∃ t, exec (.flitReceive q [r]) s = .next t
      ∧ { t with trace := s.trace, ports := s.ports } = s
      ∧ (t.port q).o = (s.port q).o + BitVec.ofNat 12 n
      ∧ (t.port q).replay = (s.port q).replay.drop n
      ∧ (t.port q).e = (s.port q).e
      ∧ (t.port q).rx = (s.port q).rx
      ∧ OtherPorts [q.val] s t)
  ∧ (∀ (s : State) (q : PortId) (r : RxFlit) (c : Checked), s.Inv → s.elab_.portBuilt q = true →
    pairOf s q = none → linkUp s q = true → (s.port q).slotsIn = [] →
    (if Config.isReach q then [checkReach r]
      else (wireFlits s q [r]).map fun x => if ucieMode s q then checkUcie x.bits else checkWire x.bits) = [c] →
    c.bad = false → c.flit.gen ≠ (s.port q).gen → (s.port q).state = .active → outranked s q 4 = false →
    ∃ t, exec (.flitReceive q [r]) s = .next t
      ∧ { t with alm := s.alm, evtOut := s.evtOut, irqs := s.irqs, ring := s.ring, svc := s.svc, twins := s.twins,
                  trace := s.trace, ports := s.ports } = s
      ∧ (t.port q).state ∈ [.train, .detect, .fault]
      ∧ t.get (0x5002 + 256 * q) 0x05 0 = 3
      ∧ counted s t (0x5001 + 256 * q) 0x0C 1
      ∧ OtherPorts [q.val] s t)

/-- Commitment. The transaction that the arbitration chooses takes the next TAG when it needs one, and its cells in
the link form go out behind those that wait, in a flit sent now (R134, R152, R225); one that waits for a sleeping port
wakes it (R399). -/
def Obligations.Commitment : Prop :=
  (∀ (s : State) (q l : PortId) (c : Cand) (v tag : Nat) (p : Port), s.Inv → s.elab_.portBuilt q = true →
    logical s q = l → mayCommit s l = true →
    (∀ x ∈ cands s l, featuresCover s l x.w.txn = true) → arbitrate s l (cands s l) = some (c, v, p) →
    needsTag c.w = true → nextTag s l = some tag → (∀ x ∈ cands s l, x.w.frees ≠ some (l.val, tag)) →
    ∃ t g rest, exec (.transactionCommit q) s = .next t
      ∧ { t with alm := s.alm, counts := s.counts, ingress := s.ingress, egress := s.egress, icr := s.icr,
                  ownQ := s.ownQ, localTags := s.localTags, ord := s.ord, seqNo := s.seqNo, rlc := s.rlc,
                  twins := s.twins, trace := s.trace, ports := s.ports, out := s.out } = s
      ∧ (t.port l).replay = (s.port l).replay ++ [g]
      ∧ g.ftype = 1
      ∧ g.cells = pad15 (((s.port l).stream ++ (linkForm s l (BitVec.ofNat 12 tag) c.w).linkCells v ++ rest).take 15)
      ∧ (t.port l).stream = ((s.port l).stream ++ (linkForm s l (BitVec.ofNat 12 tag) c.w).linkCells v ++ rest).drop 15
      ∧ mget (t.port l).tags tag = some
          { opc := c.w.txn.opc, ten := c.w.txn.ten, rqid := c.w.txn.rqid, seq := c.w.seq, use_ := tagUse c.w })
  ∧ (∀ (s : State) (q l : PortId) (c : Cand) (v : Nat) (p : Port), s.Inv → s.elab_.portBuilt q = true →
    logical s q = l → mayCommit s l = true →
    (∀ x ∈ cands s l, featuresCover s l x.w.txn = true) → arbitrate s l (cands s l) = some (c, v, p) →
    needsTag c.w = false →
    ∃ t g rest, exec (.transactionCommit q) s = .next t
      ∧ { t with alm := s.alm, counts := s.counts, ingress := s.ingress, egress := s.egress, icr := s.icr,
                  ownQ := s.ownQ, localTags := s.localTags, ord := s.ord, seqNo := s.seqNo, rlc := s.rlc,
                  twins := s.twins, trace := s.trace, ports := s.ports, out := s.out } = s
      ∧ (t.port l).replay = (s.port l).replay ++ [g]
      ∧ g.ftype = 1
      ∧ g.cells = pad15 (((s.port l).stream ++ c.w.txn.linkCells v ++ rest).take 15)
      ∧ (t.port l).stream = ((s.port l).stream ++ c.w.txn.linkCells v ++ rest).drop 15)
  ∧ (∀ (s : State) (q l : PortId), s.Inv → s.elab_.portBuilt q = true → logical s q = l → linkUp s l = false →
    anyWaits s l = true → (s.port l).state ∈ [.nap, .dormant] → (s.port l).wakeAt = none →
    ∃ t, exec (.transactionCommit q) s = .next t
      ∧ { t with alm := s.alm, core := s.core, coreAt := s.coreAt, ports := s.ports } = s
      ∧ (t.port l).wakeAt = some s.now
      ∧ (t.port l).state = (s.port l).state)

/-- The epoch. At F_n of a joined adapter N of the next epoch is frozen from the leap table (R172, R200); a switch
armed for that epoch that passes every check holds its calendars ready, and one that does not pass stops (R177). An
EPOCH head goes to every port whose next calendar is not empty (R187). At T_n the counter, the start and N move on,
and a switching port takes its new calendar (R170, R177). Before joining, and out of turn, nothing happens. -/
def Obligations.EpochTurns : Prop :=
  (∀ s : State, (s.sch.joined = false ∨ s.sch.frozen = true) → exec .epochFreeze s = .next s)
  ∧ (∀ s : State, s.sch.joined = true → s.sch.frozen = false →
    (s.get 0x6F00 0x0C 0 ≠ 1 ∨ s.get 0x6F00 0x0B 0 ≠ (s.sch.epoch + 1).toNat) →
    exec .epochFreeze s = .next
      (s.modSch fun h => { h with nextN := h.lt.getD 0 0, frozen := true, switchOk := false }))
  ∧ (∀ s : State, s.sch.joined = true → s.sch.frozen = false → s.get 0x6F00 0x0C 0 = 1 →
    s.get 0x6F00 0x0B 0 = (s.sch.epoch + 1).toNat → switchPasses s = false →
    exec .epochFreeze s = .next
      ((s.modSch fun h => { h with nextN := h.lt.getD 0 0, frozen := true, switchOk := false }).put 0x6F00 0x0C 0 3))
  ∧ (∀ s : State, s.Inv → s.sch.joined = true → s.sch.frozen = false → s.get 0x6F00 0x0C 0 = 1 →
    s.get 0x6F00 0x0B 0 = (s.sch.epoch + 1).toNat → switchPasses s = true →
    ∃ t, exec .epochFreeze s = .next t
      ∧ { t with alm := s.alm, ingress := s.ingress, egress := s.egress, icr := s.icr, sch := s.sch,
                  ports := s.ports, out := s.out } = s
      ∧ t.sch = { s.sch with nextN := s.sch.lt.getD 0 0, frozen := true, switchOk := true }
      ∧ (∀ q : PortId, (s.port q).calNew = true →
          (t.port q).calSwitch = some (nextRows s q) ∧ (t.port q).calNew = false)
      ∧ (∀ q : PortId, (s.port q).calNew = false → t.port q = s.port q)
      ∧ t.get 0x6F00 0x0C 0 = 1)
  ∧ (∀ s : State, (s.sch.joined = false ∨ s.sch.frozen = false) → exec .epochHeadCell s = .next s)
  ∧ (∀ s : State, s.sch.joined = true → s.sch.frozen = true →
    ∃ t hs, exec .epochHeadCell s = .next t
      ∧ { t with egress := s.egress } = s
      ∧ t.egress = s.egress ++ hs
      ∧ (∀ x ∈ hs, x.1 = EgCh.sch ∧ x.2.at_ = s.now)
      ∧ hs.length = ((List.range 10).filter fun q => !(calFor s q (s.sch.epoch + 1)).isEmpty).length)
  ∧ (∀ s : State, (s.sch.joined = false ∨ s.sch.frozen = false) → exec .epochBoundary s = .next s)
  ∧ (∀ s : State, s.Inv → s.sch.joined = true → s.sch.frozen = true →
    ∃ t, exec .epochBoundary s = .next t
      ∧ { t with alm := s.alm, core := s.core, coreAt := s.coreAt, ingress := s.ingress, egress := s.egress,
                  icr := s.icr, therm := s.therm, sch := s.sch, repair := s.repair, ports := s.ports,
                  out := s.out } = s
      ∧ t.sch.epoch = s.sch.epoch + 1
      ∧ t.sch.tn = s.sch.tn + eplen s + s.sch.n
      ∧ t.sch.n = s.sch.nextN
      ∧ t.sch.frozen = false
      ∧ t.sch.joined = true
      ∧ (∀ (q : PortId) (rows : List Nat), (s.port q).calSwitch = some rows → s.repair.emptyCal.contains q.val = false →
          (t.port q).cal = rows.drop 1 ∧ (t.port q).calSwitch = none)
      ∧ (∀ q : PortId, (s.port q).calSwitch = none → s.repair.emptyCal.contains q.val = false →
          (t.port q).cal = (s.port q).cal))

/-- Scheduled traffic. A payload whose last cell comes before the accept cc is assigned to the next occurrence of its
slot (R178); one that ends at or after it is late, counted and presented as such, and one outside a domain is refused
and counted (R179). At its accept cc the assigned payload becomes a SCHED flit, and a flit held for a TXF slot goes on
(R178, R188). A received SCHED flit is held to its deadline, and an RX flit is presented then (R181, R183, R185,
R186); without a domain a SCHED flit is counted and dropped (R446). Where nothing waits, nothing happens. -/
def Obligations.ScheduledTraffic : Prop :=
  (∀ (s : State) (k : Nat), (∀ w ∈ atPlace s (.ifi .sch k), w.step ≠ 0) → exec (.schPayload k) s = .next s)
  ∧ (∀ (s : State) (k : Nat) (w : Waiting) (q : PortId) (n : Epoch) (r : Nat), s.Inv →
    atPlace s (.ifi .sch k) = some w → w.step = 0 → w.cport.toNat = q.val → domainOn s = true → s.sch.joined = true →
    lacksFeature (s.port (logical s q)) 8 = false → schUp s q = true →
    nextOccurrence s q w.cslot w.at_ = (n, some r) → calKind r = 0 → calTen r = w.txn.ten →
    quiesced s w.txn.ten = false → assignedTo s q w.cslot n = none →
    ((w.endAt : Int) < acceptCc s n (calStart r) ∨ 0 < epochDist s n) →
    ∃ t, exec (.schPayload k) s = .next t
      ∧ (t.port q).assigned
          = (s.port q).assigned ++ [{ slot := w.cslot, epoch := n, ten := w.txn.ten, seq := w.seq }]
      ∧ { t with ports := s.ports, ingress := s.ingress } = s
      ∧ OtherPorts [q.val] s t)
  ∧ (∀ (s : State) (k : Nat) (w : Waiting) (q : PortId) (n : Epoch) (r : Nat), s.Inv →
    atPlace s (.ifi .sch k) = some w → w.step = 0 → w.cport.toNat = q.val → domainOn s = true → s.sch.joined = true →
    lacksFeature (s.port (logical s q)) 8 = false → schUp s q = true →
    nextOccurrence s q w.cslot w.at_ = (n, some r) → calKind r = 0 → calTen r = w.txn.ten →
    quiesced s w.txn.ten = false → assignedTo s q w.cslot n = none →
    acceptCc s n (calStart r) ≤ (w.endAt : Int) → epochDist s n ≤ 0 →
    ∃ t x, exec (.schPayload k) s = .next t
      ∧ { t with alm := s.alm, ingress := s.ingress, egress := s.egress, icr := s.icr, ports := s.ports,
                  out := s.out } = s
      ∧ t.egress = s.egress ++ [(EgCh.sch, x)]
      ∧ x.txn.data = [schHead 4 false false false 0 n (leapsOf s n) w.cslot q.val w.txn.ten 0]
      ∧ (t.port q).assigned = (s.port q).assigned
      ∧ counted s t (0x6001 + 256 * q.val) 0x05 1)
  ∧ (∀ (s : State) (k : Nat) (w : Waiting), atPlace s (.ifi .sch k) = some w → w.step = 0 → domainOn s = false →
    ∃ t, exec (.schPayload k) s = .next t
      ∧ { t with alm := s.alm, ingress := s.ingress, egress := s.egress, icr := s.icr, out := s.out } = s
      ∧ OnlyEntries [(0x6001 + 256 * w.cport.toNat, 0x06)] s t
      ∧ counted s t (0x6001 + 256 * w.cport.toNat) 0x06 1
      ∧ t.egress.length = s.egress.length + 1
      ∧ t.ports = s.ports)
  ∧ (∀ (s : State) (q l : PortId) (slot : SlotId) (r : Nat) (a : Assigned) (x : IngCh × Waiting), s.Inv →
    s.elab_.portBuilt q = true → logical s q = l → s.sch.joined = true →
    calRow s q s.sch.epoch slot = some r → calKind r = 0 → schUp s q = true → quiesced s (calTen r) = false →
    assignedTo s q slot s.sch.epoch = some a → a.cells = [] →
    s.ingress.find? (fun x => x.1 == IngCh.sch && x.2.seq == a.seq) = some x →
    ∃ t, exec (.slotAccept q slot) s = .next t
      ∧ { t with alm := s.alm, ingress := s.ingress, icr := s.icr, ports := s.ports, out := s.out } = s
      ∧ (t.port l).schedOut = (s.port l).schedOut ++ [({ ftype := 2, slot := slot, cells := x.2.txn.data }, s.sch.epoch)]
      ∧ a ∉ (t.port q).assigned
      ∧ counted64 s t (0x6001 + 256 * q) 0x01 1
      ∧ OtherPorts [q.val, l.val] s t)
  ∧ (∀ (s : State) (q l p : PortId) (slot : SlotId) (r : Nat) (h : Held), s.Inv →
    s.elab_.portBuilt q = true → logical s q = l → s.sch.joined = true →
    calRow s q s.sch.epoch slot = some r → calKind r = 2 → handedTo s q slot s.sch.epoch = some (p.val, h) →
    ∃ t, exec (.slotAccept q slot) s = .next t
      ∧ { t with alm := s.alm, ports := s.ports } = s
      ∧ (t.port l).schedOut = (s.port l).schedOut ++ [({ ftype := 2, slot := slot, cells := h.cells }, s.sch.epoch)]
      ∧ h ∉ (t.port p).hold
      ∧ counted64 s t (0x6001 + 256 * q) 0x01 1
      ∧ OtherPorts [p.val, l.val] s t)
  ∧ (∀ (s : State) (q : PortId) (slot : SlotId), s.elab_.portBuilt q = true →
    (s.sch.joined = false ∨ calRow s q s.sch.epoch slot = none) → exec (.slotAccept q slot) s = .next s)
  ∧ (∀ (s : State) (q : PortId), s.elab_.portBuilt q = true → (s.port (logical s q)).schedIn = [] →
    exec (.schedFlit q) s = .next s)
  ∧ (∀ (s : State) (q : PortId) (l : Nat) (x : SchedIn) (xs : List SchedIn), l = logical s q →
    s.elab_.portBuilt q = true → (s.port l).schedIn = x :: xs → domainOn s = false →
    exec (.schedFlit q) s = .next ((s.modPort l fun p => { p with schedIn := xs }).pbump 0x6001 l 0x0B 1))
  ∧ (∀ (s : State) (q l : PortId) (x : SchedIn) (xs : List SchedIn) (n : Epoch) (r : Nat), s.Inv →
    s.elab_.portBuilt q = true → logical s q = l → (s.port l).schedIn = x :: xs → domainOn s = true →
    x.epoch = some n → (s.port l).cal[x.flit.slot.toNat]? = some r → calSends r = false → onArrival s l = none →
    s.sch.joined = true → (x.at_ : Int) + 1 ≤ deadlineOf s l n r → (s.port l).hold.length < holdSize s l →
    ∃ t, exec (.schedFlit q) s = .next t
      ∧ (t.port l).schedIn = xs
      ∧ (t.port l).hold = (s.port l).hold
          ++ [{ slot := x.flit.slot, epoch := n, deadline := (deadlineOf s l n r).toNat, cells := x.flit.cells,
                rpld := x.flit.rply, row := r }]
      ∧ { t with ports := s.ports } = s
      ∧ OtherPorts [l.val] s t)
  ∧ (∀ (s : State) (q l : PortId) (slot : SlotId) (h : Held), s.elab_.portBuilt q = true → logical s q = l →
    (s.port l).hold.find? (fun h => h.slot == slot && !h.handed) = some h → calKind h.row = 1 → h.lost = false →
    calProxy h.row = false →
    exec (.deadline q slot) s = .next
      (presentSch (s.modPort l fun p => { p with hold := p.hold.filter (· != h) }) l h.slot (calTen h.row) h.deadline
        (schHead 1 false false h.rpld 0 h.epoch (leapsOf s h.epoch) h.slot l (calTen h.row) 0 :: h.cells)))
  ∧ (∀ (s : State) (q : PortId) (slot : SlotId), s.elab_.portBuilt q = true →
    (s.port (logical s q)).hold.find? (fun h => h.slot == slot && !h.handed) = none →
    exec (.deadline q slot) s = .next s)

/-- Control cells of the scheduled plane. On a port that is no domain link they are dropped (R191, R446). A live
beacon lets an adapter that has not joined take its epoch and N (R195), and one that a joined adapter finds right in
every check ends the count of bad ones (R194, R196). A leap or tempo cell raises the leap table of its epoch (R199). A
new notice or fault cell is remembered, is presented on every port with a calendar, and raises interrupt cause 4 with
its reason (R202). A VOID of an RX slot is counted and presented (R190), and without a domain it is counted as unknown
(R446). -/
def Obligations.ScheduledCells : Prop :=
  (∀ (s : State) (q : PortId) (l : Nat) (c : Instr) (ctype : Nat) (x : CtrlIn),
    c = .beacon q ∧ ctype = 2 ∨ c = .leapReq q ∧ ctype = 3 ∨ c = .leapNotice q ∧ ctype = 4 ∨ c = .tempo q ∧ ctype = 5
      ∨ c = .dfault q ∧ ctype = 6 →
    l = logical s q → s.elab_.portBuilt q = true → ctrlHead s l ctype = some x → domainLink s l = false →
    exec c s = .next (s.modPort l fun p => { p with ctrlIn := p.ctrlIn.drop 1 }))
  ∧ (∀ (s : State) (q l : PortId) (x : CtrlIn), s.Inv → s.elab_.portBuilt q = true → logical s q = l →
    ctrlHead s l 2 = some x → domainLink s l = true → x.live = true → s.sch.joined = false →
    ∃ t, exec (.beacon q) s = .next t
      ∧ t.sch.joined = true
      ∧ t.sch.epoch = x.cell.extractLsb' 16 48
      ∧ t.sch.n = (x.cell.extractLsb' 80 8).toNat
      ∧ (t.port l).ctrlIn = (s.port l).ctrlIn.drop 1
      ∧ { t with sch := s.sch, ports := s.ports } = s)
  ∧ (∀ (s : State) (q l : PortId) (x : CtrlIn), s.Inv → s.elab_.portBuilt q = true → logical s q = l →
    ctrlHead s l 2 = some x → domainLink s l = true → x.live = true → s.sch.joined = true →
    impliedStart s l x = startOf s (x.cell.extractLsb' 16 48) →
    -16 < epochDist s (x.cell.extractLsb' 16 48) → epochDist s (x.cell.extractLsb' 16 48) ≤ 1 →
    (x.cell.extractLsb' 80 8).toNat = leapsOf s (x.cell.extractLsb' 16 48) →
    (x.cell.extractLsb' 104 4).toNat = leadOf s → (x.cell.extractLsb' 112 13).toNat = eplen s →
    x.cell.extractLsb' 88 16 = 0 →
    exec (.beacon q) s = .next (s.modPort l fun p =>
      { p with ctrlIn := p.ctrlIn.drop 1, desync := 0, schState := if p.schState = 3 then 1 else p.schState }))
  ∧ (∀ (s : State) (q l : PortId) (c : Instr) (ctype k d : Nat) (x : CtrlIn),
    c = .leapReq q ∧ ctype = 3 ∨ c = .tempo q ∧ ctype = 5 →
    s.Inv → s.elab_.portBuilt q = true → logical s q = l → ctrlHead s l ctype = some x → domainLink s l = true →
    usesLeaps s l = true → x.cell.extractLsb' 8 4 = 0 → k = (x.cell.extractLsb' 64 8).toNat →
    epochDist s (x.cell.extractLsb' 16 48) = d → 2 ≤ d → d ≤ 32 → s.sch.lt.getD (d - 1) 0 < k →
    ∃ t, exec c s = .next t
      ∧ { t with alm := s.alm, egress := s.egress, evtOut := s.evtOut, irqs := s.irqs, ring := s.ring, sch := s.sch,
                  ports := s.ports } = s
      ∧ t.sch.lt = setAt (d - 1) k s.sch.lt
      ∧ t.sch.ap = s.sch.ap ∧ t.sch.n = s.sch.n ∧ t.sch.epoch = s.sch.epoch
      ∧ (t.port l).ctrlIn = (s.port l).ctrlIn.drop 1)
  ∧ (∀ (s : State) (q l : PortId) (c : Instr) (reason : Nat) (x : CtrlIn), s.Inv → s.elab_.portBuilt q = true →
    logical s q = l → domainLink s l = true → s.sch.seen.contains x.cell = false →
    (c = .leapNotice q ∧ ctrlHead s l 4 = some x ∧ (s.port l).schState ≠ 2 ∧ reason = 1
      ∨ c = .dfault q ∧ ctrlHead s l 6 = some x ∧ reason = (x.cell.extractLsb' 8 4).toNat) →
    ∃ t hs, exec c s = .next t
      ∧ { t with alm := s.alm, egress := s.egress, evtOut := s.evtOut, irqs := s.irqs, ring := s.ring, sch := s.sch,
                  ports := s.ports } = s
      ∧ x.cell ∈ t.sch.seen
      ∧ causeSet t 4
      ∧ t.get 0x6F00 0x0D 0 = reason
      ∧ t.egress = s.egress ++ hs
      ∧ (∀ y ∈ hs, y.1 = EgCh.sch)
      ∧ hs.length = (calendarPorts s).length
      ∧ (t.port l).ctrlIn = (s.port l).ctrlIn.drop 1
      ∧ t.sch.lt = s.sch.lt)
  ∧ (∀ (s : State) (q : PortId) (l : Nat) (x : CtrlIn), l = logical s q → s.elab_.portBuilt q = true →
    ctrlHead s l 7 = some x → domainOn s = false →
    exec (.voidCell q) s = .next ((s.modPort l fun p => { p with ctrlIn := p.ctrlIn.drop 1 }).pbump 0x6001 l 0x0B 1))
  ∧ (∀ (s : State) (q l : PortId) (x : CtrlIn) (r : Nat), s.Inv → s.elab_.portBuilt q = true → logical s q = l →
    ctrlHead s l 7 = some x → domainOn s = true → (s.port l).beaconEpoch ≠ none →
    (s.port l).cal[(x.cell.extractLsb' 64 12).toNat]? = some r → calKind r = 1 → calProxy r = false →
    ∃ t h, exec (.voidCell q) s = .next t
      ∧ { t with alm := s.alm, egress := s.egress, ports := s.ports } = s
      ∧ counted s t (0x6001 + 256 * l) 0x08 1
      ∧ t.egress = s.egress ++ [(EgCh.sch, h)]
      ∧ h.cslot = x.cell.extractLsb' 64 12 ∧ h.txn.ten = calTen r
      ∧ (t.port l).ctrlIn = (s.port l).ctrlIn.drop 1
      ∧ OtherPorts [l.val] s t)
  ∧ (∀ (s : State) (q : PortId) (c : Instr) (ctype : Nat),
    c = .beacon q ∧ ctype = 2 ∨ c = .leapReq q ∧ ctype = 3 ∨ c = .leapNotice q ∧ ctype = 4 ∨ c = .tempo q ∧ ctype = 5
      ∨ c = .dfault q ∧ ctype = 6 ∨ c = .voidCell q ∧ ctype = 7 →
    s.elab_.portBuilt q = true → ctrlHead s (logical s q) ctype = none → exec c s = .next s)

/-- The calendar domain under management. Enabling at the root starts epoch 0 in the next cc and elsewhere waits for a
beacon (R195, R446); disabling leaves the domain and gives up what was assigned and held (R446); rejoining waits for a
beacon again and gives up what was assigned (R196); a leap request raises the leap table L epochs ahead (R198); the
switch epoch arms the switch (R177). -/
def Obligations.DomainManagement : Prop :=
  (∀ s : State, s.Inv → Writable s → domainOn s = false →
    ∃ t, exec .schDomainEnable s = .next t
      ∧ { t with alm := s.alm, sch := s.sch, trace := s.trace, ports := s.ports } = s
      ∧ domainOn t = true
      ∧ (s.get 0x6F00 0x02 0 = 1 → t.sch.joined = true ∧ t.sch.epoch = 0 ∧ t.sch.tn = s.now + 1)
      ∧ (s.get 0x6F00 0x02 0 ≠ 1 → t.sch.joined = false ∧ t.sch.epoch = s.sch.epoch))
  ∧ (∀ s : State, s.Inv → Writable s → domainOn s = true →
    ∃ t, exec .schDomainDisable s = .next t
      ∧ { t with alm := s.alm, ingress := s.ingress, egress := s.egress, icr := s.icr, sch := s.sch,
                  seqNo := s.seqNo, fw := s.fw, trace := s.trace, ports := s.ports, out := s.out } = s
      ∧ domainOn t = false
      ∧ t.sch.joined = false
      ∧ t.sch.epoch = s.sch.epoch
      ∧ ∀ q : PortId, (t.port q).assigned = [] ∧ (t.port q).hold = [])
  ∧ (∀ s : State, s.Inv → Writable s → domainOn s = true →
    ∃ t, exec .schRejoin s = .next t
      ∧ { t with alm := s.alm, ingress := s.ingress, egress := s.egress, icr := s.icr, sch := s.sch,
                  trace := s.trace, ports := s.ports, out := s.out } = s
      ∧ t.sch.joined = false
      ∧ domainOn t = true
      ∧ t.sch.epoch = s.sch.epoch
      ∧ ∀ q : PortId, (t.port q).assigned = [])
  ∧ (∀ (s : State) (k : BitVec 8), s.Inv → Writable s → domainOn s = true → s.sch.joined = true → 2 ≤ leadOf s →
    leadOf s ≤ 15 →
    ∃ t, exec (.schLeapRequest k) s = .next t
      ∧ { t with alm := s.alm, egress := s.egress, evtOut := s.evtOut, irqs := s.irqs, ring := s.ring, sch := s.sch,
                  trace := s.trace, ports := s.ports } = s
      ∧ t.sch.lt = (if s.sch.lt.getD (leadOf s - 1) 0 < k.toNat then setAt (leadOf s - 1) k.toNat s.sch.lt else s.sch.lt)
      ∧ t.sch.epoch = s.sch.epoch ∧ t.sch.n = s.sch.n)
  ∧ (∀ (s : State) (e : BitVec 64), s.Inv → Writable s → e.toNat < 2 ^ 48 →
    switchTooEarly s (BitVec.ofNat 48 e.toNat) = false →
    ∃ t, exec (.schSwitchEpoch e) s = .next t
      ∧ t.get 0x6F00 0x0B 0 = e.toNat
      ∧ t.get 0x6F00 0x0C 0 = 1
      ∧ { t with alm := s.alm, trace := s.trace } = s)

/-- A memory request, in every opcode. Of the own die: one whose tenancy is not ADMITTED, which R215 or R217 refuses,
or which has no route off the die is completed at once with its status and leaves the buffer and the order (R219). Any
other that is not for the RLC is given the ports of its route, unless it must wait behind an earlier one (R219, R237);
a CA = 1 one that passes by the RLC is ordered by its line as well (R249). Over a link: one for another die goes on
toward it, and at its target it is presented on IFI-INB and waits for its answer (R218, R219), or is answered
TARGET_ABSENT (R223). -/
def Obligations.MemoryRequests : Prop :=
  (∀ (s : State) (pl : Place) (w : Waiting) (c : Instr) (opc k : Nat) (st : BitVec 8), (c, opc) ∈ memCmds pl →
    pl = .ifi .req k → Waits s pl w opc →
    (quiesced s w.txn.ten = true ∧ st = 0x04 ∨ quiesced s w.txn.ten = false ∧ memStatus w.txn = some st
      ∨ quiesced s w.txn.ten = false ∧ memStatus w.txn = none ∧ heldBack s w = false
        ∧ (destOf s (withGpa w.txn (rewrite s w.txn.gpa)) = .bad st
          ∨ destOf s (withGpa w.txn (rewrite s w.txn.gpa)) = .self ∧ st = 0x14)) →
    ∃ t, exec c s = .next t
      ∧ t.egress = s.egress ++ [ownCpl w st 0 []]
      ∧ t.ord = s.ord.filter (fun r => r.seq != w.seq)
      ∧ (w.parked = false → t.icr = addAt 0 w.txn.size s.icr)
      ∧ { t with egress := s.egress, ord := s.ord, icr := s.icr, ingress := s.ingress, counts := s.counts, out := s.out } = s)
  ∧ (∀ (s : State) (pl : Place) (w : Waiting) (c : Instr) (opc k : Nat) (ports : List Nat), (c, opc) ∈ memCmds pl →
    pl = .ifi .req k → Waits s pl w opc → quiesced s w.txn.ten = false → memStatus w.txn = none →
    heldBack s w = false → destOf s (withGpa w.txn (rewrite s w.txn.gpa)) = .via ports →
    (w.txn.ca = false ∨ waysEnabled s = []) →
    exec c s = .next (putAt s pl { w with step := 9, gpa := rewrite s w.txn.gpa, route := ports }))
  ∧ (∀ (s : State) (pl : Place) (w : Waiting) (c : Instr) (opc k : Nat) (ports : List Nat), (c, opc) ∈ memCmds pl →
    pl = .ifi .req k → Waits s pl w opc → quiesced s w.txn.ten = false → memStatus w.txn = none →
    heldBack s w = false → destOf s (withGpa w.txn (rewrite s w.txn.gpa)) = .via ports →
    w.txn.ca = true → waysEnabled s ≠ [] → behindLine s pl w (lineOf (rewrite s w.txn.gpa)) = false →
    useRlc s w.txn (rewrite s w.txn.gpa) = false →
    exec c s = .next (putAt (keyLine s w.seq (lineOf (rewrite s w.txn.gpa))) pl
      { w with step := 9, gpa := rewrite s w.txn.gpa, route := ports }))
  ∧ (∀ (s : State) (pl : Place) (w : Waiting) (c : Instr) (opc k : Nat), (c, opc) ∈ memCmds pl →
    pl = .ifi .req k → Waits s pl w opc → quiesced s w.txn.ten = false → memStatus w.txn = none →
    heldBack s w = true →
    exec c s = .next (putAt s pl { w with step := 6, gpa := rewrite s w.txn.gpa }))
  ∧ (∀ (s : State) (pl : Place) (w : Waiting) (c : Instr) (opc : Nat), (c, opc) ∈ memCmds pl →
    placeIsIfi pl = false → Waits s pl w opc → destOf s w.txn = .self → absentHit s w.txn.gpa w.txn.len = false →
    egressRoom s .inb w.txn.size = true →
    ∃ t, exec c s = .next t
      ∧ t.egress = s.egress ++ [(.inb, { txn := w.txn })]
      ∧ t.inbOut = s.inbOut ++ [w.txn]
      ∧ { t with egress := s.egress, inbOut := s.inbOut, ports := s.ports, ownQ := s.ownQ } = s)
  ∧ (∀ (s : State) (pl : Place) (w : Waiting) (c : Instr) (opc : Nat), (c, opc) ∈ memCmds pl →
    placeIsIfi pl = false → Waits s pl w opc → destOf s w.txn = .self → absentHit s w.txn.gpa w.txn.len = true →
    exec c s = .next (answerRemote (takeAt s pl) w.txn 0x11 0 []))
  ∧ (∀ (s : State) (q : PortId) (k : Nat) (w : Waiting) (c : Instr) (opc : Nat) (ports : List Nat),
    (c, opc) ∈ memCmds (.rx q k) → Waits s (.rx q k) w opc → destOf s w.txn = .via ports →
    exec c s = .next (putAt s (.rx q k) { w with step := 9, route := ports }))

/-- The ends of requests. The target die's answer on IFI-INR becomes the completion of its request and waits in its
place for a port toward the requester; an answer to nothing is counted (R152, R218). A completion at its requester
marks its TAG as done and is presented to the die, with which the TAG will be free, and the request is at its end
(R225, R226); one that fits no TAG is counted and dropped (R226). The answer to a message goes on from its place as a
completion (R231). A handed-over transaction enters the receive path (R444). -/
def Obligations.Completions : Prop :=
  (∀ (s : State) (k i : Nat) (w : Waiting) (x : Txn) (ports : List Nat),
    atPlace s (.ifi .inr k) = some w → w.txn.opc = 0x80 → w.step = 0 → findIdx (inrMatch w.txn) s.inbOut = some i →
    s.inbOut[i]? = some x → w.txn.status = 0 → w.txn.len = answerLen x → w.txn.ropc = x.opc →
    destOf s (mkCpl x 0 0 (cellsToBytes w.txn.len w.txn.data)) = .via ports →
    ∃ t, exec (.inrCpl k) s = .next t
      ∧ t.inbOut = dropAt i s.inbOut
      ∧ atPlace t (.ifi .inr k)
          = some { w with txn := mkCpl x 0 0 (cellsToBytes w.txn.len w.txn.data), step := 9, route := ports }
      ∧ { t with inbOut := s.inbOut, ingress := s.ingress, icr := s.icr, out := s.out, counts := s.counts } = s)
  ∧ (∀ (s : State) (k : Nat) (w : Waiting), s.Inv → atPlace s (.ifi .inr k) = some w → w.txn.opc = 0x80 → w.step = 0 →
    findIdx (inrMatch w.txn) s.inbOut = none →
    ∃ t, exec (.inrCpl k) s = .next t
      ∧ counted s t 0x7001 0x05 1
      ∧ OnlyEntries [(0x7001, 0x05)] s t
      ∧ { t with alm := s.alm, ingress := s.ingress, icr := s.icr, out := s.out } = s)
  ∧ (∀ (s : State) (pl : Place) (w : Waiting) (i : TagInfo), s.Inv → placeIsIfi pl = false → Waits s pl w 0x80 →
    destOf s w.txn = .self → cplUse s w.txn = some i → i.use_ = .die →
    egressRoom s (cplChannel i.opc) w.txn.size = true →
    ∃ t, exec (.cpl pl) s = .next t
      ∧ { t with egress := s.egress, ownQ := s.ownQ, localTags := s.localTags, ord := s.ord, ports := s.ports } = s
      ∧ tagsOf t w.txn.sport.toNat
          = mset (tagsOf s w.txn.sport.toNat) w.txn.tag.toNat { i with done := true }
      ∧ t.egress = s.egress ++ [(cplChannel i.opc,
          { txn := sourceForm w.txn i.rqid, frees := some (w.txn.sport.toNat, w.txn.tag.toNat) })]
      ∧ t.ord = s.ord.filter (fun r => r.seq != i.seq))
  ∧ (∀ (s : State) (pl : Place) (w : Waiting), placeIsIfi pl = false → Waits s pl w 0x80 → destOf s w.txn = .self →
    cplUse s w.txn = none →
    ∃ t, exec (.cpl pl) s = .next t
      ∧ { t with alm := s.alm, ownQ := s.ownQ, ports := s.ports } = s
      ∧ OnlyEntries [(0x7001, 0x01)] s t
      ∧ counted s t 0x7001 0x01 1
      ∧ t.egress = s.egress ∧ t.ord = s.ord)
  ∧ (∀ (s : State) (k : Nat) (w : Waiting) (st : BitVec 8) (ports : List Nat), s.Inv →
    Waits s (.ifi .msg k) w 0x21 → st = (if w.txn.status ∈ [(0 : BitVec 8), 0x05, 0x12] then w.txn.status else 0x18) →
    destOf s (withStatus w.txn st) = .via ports →
    ∃ t, exec (.msgc (.ifi .msg k)) s = .next t
      ∧ atPlace t (.ifi .msg k) = some { w with txn := withStatus w.txn st, step := 9, route := ports }
      ∧ (w.txn.status ∉ [(0 : BitVec 8), 0x05, 0x12] → counted s t 0x7001 0x05 1)
      ∧ { t with ingress := s.ingress, icr := s.icr, out := s.out, counts := s.counts, alm := s.alm } = s)
  ∧ (∀ (s : State) (k : Nat) (w : Waiting), s.ownQ[k]? = some w → w.step = 13 →
    exec (.localHandover k) s = .next { s with ownQ := setAt k { w with step := 0 } s.ownQ })

/-- Fences, messages, unknown opcodes and the own package. A fence completes when nothing earlier of its tenancy is
open and otherwise waits (R237). A message of the die is given the ports of its route, or is presented to the own die
with an identifier of the local pool (R224, R230); one over a link is presented on IFI-MSG at its home and is
forwarded elsewhere (R219, R230). An unknown opcode is counted (R214), and one on IFI-REQ is answered BAD_ARG (R214).
The own package number is written (R220). -/
def Obligations.FencesAndMessages : Prop :=
  (∀ (s : State) (k : Nat) (w : Waiting), Waits s (.ifi .req k) w 0x0F → quiesced s w.txn.ten = false →
    earlierOpen s w = false →
    ∃ t, exec (.fence (.ifi .req k)) s = .next t
      ∧ t.egress = s.egress ++ [ownCpl w 0 0 []]
      ∧ t.ord = s.ord.filter (fun r => r.seq != w.seq)
      ∧ { t with egress := s.egress, ord := s.ord, icr := s.icr, ingress := s.ingress, counts := s.counts, out := s.out } = s)
  ∧ (∀ (s : State) (k : Nat) (w : Waiting), Waits s (.ifi .req k) w 0x0F → quiesced s w.txn.ten = false →
    earlierOpen s w = true →
    exec (.fence (.ifi .req k)) s = .next (putAt s (.ifi .req k) { w with step := 6 }))
  ∧ (∀ (s : State) (k : Nat) (w : Waiting) (ports : List Nat), Waits s (.ifi .msg k) w 0x20 →
    quiesced s w.txn.ten = false → msgLen w.txn ≠ 0 → msgLen w.txn ≤ 240 → heldBack s w = false →
    destOf s w.txn = .via ports →
    exec (.msg (.ifi .msg k)) s = .next (putAt s (.ifi .msg k) { w with step := 9, gpa := 0, route := ports }))
  ∧ (∀ (s : State) (k tag : Nat) (w : Waiting), Waits s (.ifi .msg k) w 0x20 →
    quiesced s w.txn.ten = false → msgLen w.txn ≠ 0 → msgLen w.txn ≤ 240 → heldBack s w = false →
    destOf s w.txn = .self → nextTag s 15 = some tag → msgCredit s w.txn.size = true →
    ∃ t, exec (.msg (.ifi .msg k)) s = .next t
      ∧ { t with alm := s.alm, ingress := s.ingress, egress := s.egress, icr := s.icr, localTags := s.localTags,
                  out := s.out } = s
      ∧ t.localTags = mset s.localTags tag { opc := 0x20, ten := w.txn.ten, rqid := w.txn.rqid, seq := w.seq, use_ := .die }
      ∧ t.egress = s.egress ++ [(.msg, { txn := { w.txn with tag := BitVec.ofNat 12 tag, sport := 15,
                                                             spkg := BitVec.ofNat 12 (ownPkg s), sdie := s.die } })])
  ∧ (∀ (s : State) (q : PortId) (k : Nat) (w : Waiting), Waits s (.rx q k) w 0x20 → destOf s w.txn = .self →
    msgCredit s w.txn.size = true →
    ∃ t, exec (.msg (.rx q k)) s = .next t
      ∧ t.egress = s.egress ++ [(.msg, { txn := w.txn })]
      ∧ { t with egress := s.egress, ports := s.ports } = s)
  ∧ (∀ (s : State) (q : PortId) (k : Nat) (w : Waiting) (ports : List Nat), Waits s (.rx q k) w 0x20 →
    destOf s w.txn = .via ports →
    exec (.msg (.rx q k)) s = .next (putAt s (.rx q k) { w with step := 9, route := ports }))
  ∧ (∀ (s : State) (pl : Place) (w : Waiting), Undecided s pl w → legalAt pl w.txn.opc = false →
    ∃ t, exec (.unknownOpcode pl) s = .next t
      ∧ { t with alm := s.alm, counts := s.counts, ingress := s.ingress, egress := s.egress, icr := s.icr,
                  ownQ := s.ownQ, ord := s.ord, seqNo := s.seqNo, ports := s.ports, out := s.out } = s
      ∧ OnlyEntries [(0x7001, 0x04)] s t
      ∧ counted s t 0x7001 0x04 1)
  ∧ (∀ (s : State) (k : Nat) (w : Waiting), Undecided s (.ifi .req k) w →
    legalAt (.ifi .req k) w.txn.opc = false → w.txn.opc ≠ 0x20 →
    ∃ t, exec (.unknownOpcode (.ifi .req k)) s = .next t
      ∧ { t with alm := s.alm, counts := s.counts, ingress := s.ingress, egress := s.egress, icr := s.icr,
                  ord := s.ord, out := s.out } = s
      ∧ OnlyEntries [(0x7001, 0x04)] s t
      ∧ t.egress = s.egress ++ [ownCpl w 0x14 0 []])
  ∧ (∀ (s : State) (pkg : BitVec 16), s.Inv → Writable s → pkg.toNat < 4096 →
    ∃ t, exec (.txnOwnPkgWrite pkg) s = .next t
      ∧ ownPkg t = pkg.toNat
      ∧ { t with alm := s.alm, tabs := s.tabs, trace := s.trace } = s)

/-- The semaphore unit at the home: what each operation leaves of the semaphore, and the value that its completion
returns when the request is of the own die (R233, R234). A request of the own die for a semaphore homed elsewhere is
given the ports of its route (R219, R232). -/
def Obligations.Semaphores : Prop :=
  (∀ (s : State) (pl : Place) (w : Waiting), AtHome s pl w 0x30 →
    (mget s.sems (syncSid w.txn) = none
      ∨ ∃ m, mget s.sems (syncSid w.txn) = some m ∧ m.owner = w.txn.ten ∧ m.fifo = []) →
    ∃ t, exec (.semInit pl) s = .next t
      ∧ { t with counts := s.counts, ingress := s.ingress, egress := s.egress, icr := s.icr, sems := s.sems,
                  ownQ := s.ownQ, ord := s.ord, seqNo := s.seqNo, ports := s.ports, out := s.out } = s
      ∧ t.sems = mset s.sems (syncSid w.txn) { barrier := false, value := syncArg w.txn, owner := w.txn.ten }
      ∧ ∀ k, pl = .ifi .req k → t.egress = s.egress ++ [ownCpl w 0 (syncArg w.txn) []])
  ∧ (∀ (s : State) (pl : Place) (w : Waiting) (m : Sem), AtHome s pl w 0x31 → mget s.sems (syncSid w.txn) = some m →
    m.barrier = false → syncArg w.txn ≠ 0 → m.value + syncArg w.txn ≤ 0xFFFFFFFF →
    ∃ t, exec (.semSignal pl) s = .next t
      ∧ { t with counts := s.counts, ingress := s.ingress, egress := s.egress, icr := s.icr, sems := s.sems,
                  ownQ := s.ownQ, ord := s.ord, seqNo := s.seqNo, ports := s.ports, out := s.out } = s
      ∧ t.sems = mset s.sems (syncSid w.txn)
          { m with value := (grantFifo m.fifo (m.value + syncArg w.txn)).2.2,
                   fifo := (grantFifo m.fifo (m.value + syncArg w.txn)).2.1 }
      ∧ (m.fifo = [] → ∀ k, pl = .ifi .req k →
          t.egress = s.egress ++ [ownCpl w 0 (m.value + syncArg w.txn) []]))
  ∧ (∀ (s : State) (pl : Place) (w : Waiting) (m : Sem) (c : Instr) (opc : Nat),
    c = .semWait pl ∧ opc = 0x32 ∨ c = .semTry pl ∧ opc = 0x33 →
    AtHome s pl w opc → mget s.sems (syncSid w.txn) = some m → m.barrier = false → m.fifo = [] →
    syncArg w.txn ≠ 0 → syncArg w.txn ≤ m.value → (m.owner = w.txn.ten ∨ quiesced s m.owner = false) →
    ∃ t, exec c s = .next t
      ∧ { t with counts := s.counts, ingress := s.ingress, egress := s.egress, icr := s.icr, sems := s.sems,
                  ownQ := s.ownQ, ord := s.ord, seqNo := s.seqNo, ports := s.ports, out := s.out } = s
      ∧ t.sems = mset s.sems (syncSid w.txn) { m with value := m.value - syncArg w.txn }
      ∧ ∀ k, pl = .ifi .req k → t.egress = s.egress ++ [ownCpl w 0 (m.value - syncArg w.txn) []])
  ∧ (∀ (s : State) (pl : Place) (w : Waiting) (m : Sem),
    AtHome s pl w 0x32 → mget s.sems (syncSid w.txn) = some m → m.barrier = false →
    syncArg w.txn ≠ 0 → (m.fifo ≠ [] ∨ m.value < syncArg w.txn) → (m.owner = w.txn.ten ∨ quiesced s m.owner = false) →
    waitersUsed s < 2 * s.elab_.semHome →
    ∃ t x, exec (.semWait pl) s = .next t
      ∧ { t with ingress := s.ingress, icr := s.icr, sems := s.sems, ownQ := s.ownQ, ports := s.ports,
                  out := s.out } = s
      ∧ t.sems = mset s.sems (syncSid w.txn) { m with fifo := m.fifo ++ [x] }
      ∧ x.txn = w.txn ∧ x.count = syncArg w.txn
      ∧ t.egress = s.egress)
  ∧ (∀ (s : State) (pl : Place) (w : Waiting) (m : Sem),
    AtHome s pl w 0x33 → mget s.sems (syncSid w.txn) = some m → m.barrier = false →
    syncArg w.txn ≠ 0 → (m.fifo ≠ [] ∨ m.value < syncArg w.txn) → (m.owner = w.txn.ten ∨ quiesced s m.owner = false) →
    ∃ t, exec (.semTry pl) s = .next t
      ∧ { t with counts := s.counts, ingress := s.ingress, egress := s.egress, icr := s.icr, ownQ := s.ownQ,
                  ord := s.ord, seqNo := s.seqNo, ports := s.ports, out := s.out } = s
      ∧ t.sems = s.sems
      ∧ ∀ k, pl = .ifi .req k → t.egress = s.egress ++ [ownCpl w 0x02 m.value []])
  ∧ (∀ (s : State) (pl : Place) (w : Waiting) (m : Sem), AtHome s pl w 0x34 → mget s.sems (syncSid w.txn) = some m →
    ∃ t, exec (.semRead pl) s = .next t
      ∧ { t with counts := s.counts, ingress := s.ingress, egress := s.egress, icr := s.icr, ownQ := s.ownQ,
                  ord := s.ord, seqNo := s.seqNo, ports := s.ports, out := s.out } = s
      ∧ t.sems = s.sems
      ∧ ∀ k, pl = .ifi .req k → t.egress = s.egress ++ [ownCpl w 0 m.value []])
  ∧ (∀ (s : State) (pl : Place) (w : Waiting), AtHome s pl w 0x35 →
    (mget s.sems (syncSid w.txn) = none
      ∨ ∃ m, mget s.sems (syncSid w.txn) = some m ∧ m.owner = w.txn.ten ∧ m.fifo = []) →
    syncArg w.txn ≠ 0 →
    ∃ t, exec (.barInit pl) s = .next t
      ∧ { t with counts := s.counts, ingress := s.ingress, egress := s.egress, icr := s.icr, sems := s.sems,
                  ownQ := s.ownQ, ord := s.ord, seqNo := s.seqNo, ports := s.ports, out := s.out } = s
      ∧ t.sems = mset s.sems (syncSid w.txn) { barrier := true, owner := w.txn.ten, expected := syncArg w.txn }
      ∧ ∀ k, pl = .ifi .req k → t.egress = s.egress ++ [ownCpl w 0 0 []])
  ∧ (∀ (s : State) (pl : Place) (w : Waiting) (m : Sem), AtHome s pl w 0x36 → mget s.sems (syncSid w.txn) = some m →
    m.barrier = true → (m.owner = w.txn.ten ∨ quiesced s m.owner = false) → m.arrived + 1 = m.expected →
    ∃ t, exec (.barArrive pl) s = .next t
      ∧ { t with counts := s.counts, ingress := s.ingress, egress := s.egress, icr := s.icr, sems := s.sems,
                  ownQ := s.ownQ, ord := s.ord, seqNo := s.seqNo, ports := s.ports, out := s.out } = s
      ∧ t.sems = mset s.sems (syncSid w.txn) { m with arrived := 0, bgen := m.bgen + 1, fifo := [] }
      ∧ (m.fifo = [] → ∀ k, pl = .ifi .req k → t.egress = s.egress ++ [ownCpl w 0 m.bgen.toNat []]))
  ∧ (∀ (s : State) (pl : Place) (w : Waiting) (m : Sem), AtHome s pl w 0x36 → mget s.sems (syncSid w.txn) = some m →
    m.barrier = true → (m.owner = w.txn.ten ∨ quiesced s m.owner = false) → m.arrived + 1 ≠ m.expected →
    waitersUsed s < 2 * s.elab_.semHome →
    ∃ t x, exec (.barArrive pl) s = .next t
      ∧ { t with ingress := s.ingress, icr := s.icr, sems := s.sems, ownQ := s.ownQ, ports := s.ports,
                  out := s.out } = s
      ∧ t.sems = mset s.sems (syncSid w.txn) { m with arrived := m.arrived + 1, fifo := m.fifo ++ [x] }
      ∧ x.txn = w.txn ∧ t.egress = s.egress)
  ∧ (∀ (s : State) (pl : Place) (w : Waiting) (m : Sem), AtHome s pl w 0x37 → mget s.sems (syncSid w.txn) = some m →
    m.owner = w.txn.ten →
    ∃ t, exec (.semFree pl) s = .next t
      ∧ { t with counts := s.counts, ingress := s.ingress, egress := s.egress, icr := s.icr, sems := s.sems,
                  ownQ := s.ownQ, ord := s.ord, seqNo := s.seqNo, ports := s.ports, out := s.out } = s
      ∧ t.sems = mdel s.sems (syncSid w.txn)
      ∧ (m.fifo = [] → ∀ k, pl = .ifi .req k → t.egress = s.egress ++ [ownCpl w 0 0 []]))
  ∧ (∀ (s : State) (k : Nat) (w : Waiting) (ports : List Nat) (c : Instr) (opc : Nat), (c, opc) ∈
      [(Instr.semInit (.ifi .req k), 0x30), (.semSignal (.ifi .req k), 0x31), (.semWait (.ifi .req k), 0x32),
       (.semTry (.ifi .req k), 0x33), (.semRead (.ifi .req k), 0x34), (.barInit (.ifi .req k), 0x35),
       (.barArrive (.ifi .req k), 0x36), (.semFree (.ifi .req k), 0x37)] →
    Waits s (.ifi .req k) w opc → quiesced s w.txn.ten = false → syncArg w.txn ≠ 0 → heldBack s w = false →
    destOf s w.txn = .via ports →
    exec c s = .next (putAt s (.ifi .req k) { w with step := 9, gpa := 0, route := ports }))

/-- The Remote Line Cache at its die. A CA = 1 request that hits completes from its line, and a write leaves it in M
with the written bytes (R241, R248); one that misses opens a miss-tracker entry, and the request that its state calls
for goes to the home (R243, R248). FWD, IACK and GNT are kept until all has come, and the last one installs the line,
frees the TAG and sends CACK (R261). An answer whose TAG is not held is counted (R262). WBACK frees the victim entry
and its TAG (R259). -/
def Obligations.CacheRequests : Prop :=
  (∀ (s : State) (k : Nat) (w : Waiting) (c : Instr) (opc : Nat) (ports : List Nat) (t : Txn) (l : RlcLine),
    c = .rd (.ifi .req k) ∧ opc = 1 ∨ c = .wr (.ifi .req k) ∧ opc = 2 ∨ c = .wrp (.ifi .req k) ∧ opc = 3 →
    Waits s (.ifi .req k) w opc → w.txn.ca = true → quiesced s w.txn.ten = false → memStatus w.txn = none →
    heldBack s w = false → destOf s (withGpa w.txn (rewrite s w.txn.gpa)) = .via ports →
    useRlc s w.txn (rewrite s w.txn.gpa) = true → earlierSameLine s w (lineOf (rewrite s w.txn.gpa)) = false →
    s.rlc.victims = [] → outstanding s (lineOf (rewrite s w.txn.gpa)) = false →
    rlcLine s (lineOf (rewrite s w.txn.gpa)) = some l →
    t = { w.txn with head := .mem w.txn.fen false (BitVec.ofNat 8 w.txn.len) (rewrite s w.txn.gpa) } →
    needs t l.st = none →
    ∃ u, exec c s = .next u
      ∧ { u with alm := s.alm, counts := s.counts, ingress := s.ingress, egress := s.egress, icr := s.icr,
                  ord := s.ord, rlc := s.rlc, out := s.out } = s
      ∧ OnlyEntries [(0x8001, 0x01)] s u
      ∧ u.rlc.lines = mset s.rlc.lines (lineOf (rewrite s w.txn.gpa)).toNat
          (if opc = 1 then l else { l with st := .m, data := applyWrite l.data t })
      ∧ u.egress = s.egress ++ [ownCpl { w with txn := t } 0 0 (if opc = 1 then readLine l.data t else [])]
      ∧ u.ord = s.ord.filter (fun r => r.seq != w.seq)
      ∧ counted64 s u 0x8001 0x01 1)
  ∧ (∀ (s : State) (k : Nat) (w : Waiting) (c : Instr) (opc : Nat) (need : BitVec 8) (ports : List Nat) (t : Txn)
    (p : PortId),
    c = .rd (.ifi .req k) ∧ opc = 1 ∨ c = .wr (.ifi .req k) ∧ opc = 2 ∨ c = .wrp (.ifi .req k) ∧ opc = 3 →
    Waits s (.ifi .req k) w opc → w.txn.ca = true → quiesced s w.txn.ten = false → memStatus w.txn = none →
    heldBack s w = false → destOf s (withGpa w.txn (rewrite s w.txn.gpa)) = .via ports →
    useRlc s w.txn (rewrite s w.txn.gpa) = true → earlierSameLine s w (lineOf (rewrite s w.txn.gpa)) = false →
    s.rlc.victims = [] → s.rlc.miss = [] → s.Inv → logical s (ports.headD 0) = p →
    t = { w.txn with head := .mem w.txn.fen false (BitVec.ofNat 8 w.txn.len) (rewrite s w.txn.gpa) } →
    needs t (((rlcLine s (lineOf (rewrite s w.txn.gpa))).map (·.st)).getD .i) = some need →
    ∃ u m, exec c s = .next u
      ∧ { u with ingress := s.ingress, icr := s.icr, ord := s.ord, seqNo := s.seqNo, rlc := s.rlc, ports := s.ports,
                  out := s.out } = s
      ∧ OtherPorts [p.val] s u
      ∧ u.rlc.miss = [m]
      ∧ m.la = lineOf (rewrite s w.txn.gpa) ∧ m.opc = need ∧ m.gnt = none ∧ m.acks = 0
      ∧ m.waiting = [{ txn := t, seq := w.seq, proxy := none }]
      ∧ lastSent u p = some need
      ∧ u.rlc.lines = s.rlc.lines ∧ u.egress = s.egress)
  ∧ (∀ (s : State) (q : PortId) (k : Nat) (w : Waiting) (c : Instr) (opc : Nat) (m m' : Miss),
    c = .gnt (.rx q k) ∧ opc = 0x48
        ∧ m' = { m with gnt := some (lineSt w.txn.cst, w.txn.ackcnt),
                        data := if w.txn.cdata ∧ m.data = none then some (cellsToLine w.txn.data) else m.data }
      ∨ c = .fwd (.rx q k) ∧ opc = 0x5C
        ∧ m' = { m with fwd := some (lineSt w.txn.cst), data := some (cellsToLine w.txn.data), dirty := w.txn.dty }
      ∨ c = .iack (.rx q k) ∧ opc = 0x5D ∧ m' = { m with acks := m.acks + 1 } →
    Waits s (.rx q k) w opc → destOf s w.txn = .self → cohTagOk s w.txn = true → s.rlc.miss = [m] →
    m.la = w.txn.la → m.evict = none → missReady s m' = false →
    ∃ u, exec c s = .next u
      ∧ u.rlc.miss = [m']
      ∧ { u with rlc := s.rlc, ports := s.ports } = s)
  ∧ (∀ (s : State) (q : PortId) (k way : Nat) (w : Waiting) (m : Miss) (p : PortId), s.Inv →
    Waits s (.rx q k) w 0x48 → destOf s w.txn = .self → cohTagOk s w.txn = true → s.rlc.miss = [m] →
    m.la = w.txn.la → m.evict = none → m.port = some p.val → m.lost = none → m.fwd = none → m.data = none → m.waiting = [] → w.txn.cdata = true →
    w.txn.ackcnt ≤ m.acks → rlcLine s m.la = none → fillWay s (rlcSet s m.la) = .free way →
    ∃ u l, exec (.gnt (.rx q k)) s = .next u
      ∧ { u with ownQ := s.ownQ, seqNo := s.seqNo, rlc := s.rlc, ports := s.ports } = s
      ∧ u.rlc.miss = []
      ∧ rlcLine u m.la = some l
      ∧ (u.port p).tags = mdel (s.port p).tags m.tag.toNat
      ∧ (∀ h : PortId, Reaches s (laPkg m.la) (laDie m.la) h → lastSent u h = some 0x46)
      ∧ l.set_ = rlcSet s m.la ∧ l.way = way ∧ l.st = lineSt w.txn.cst ∧ l.data = cellsToLine w.txn.data)
  ∧ (∀ (s : State) (q : PortId) (k : Nat) (w : Waiting) (c : Instr) (opc : Nat),
    c = .gnt (.rx q k) ∧ opc = 0x48 ∨ c = .fwd (.rx q k) ∧ opc = 0x5C ∨ c = .iack (.rx q k) ∧ opc = 0x5D →
    Waits s (.rx q k) w opc → destOf s w.txn = .self → cohTagOk s w.txn = false →
    ∃ u, exec c s = .next u
      ∧ { u with alm := s.alm, ownQ := s.ownQ, seqNo := s.seqNo, ports := s.ports } = s
      ∧ OnlyEntries [(0x8001, 0x0B)] s u
      ∧ counted s u 0x8001 0x0B 1
      ∧ u.rlc = s.rlc)
  ∧ (∀ (s : State) (q p : PortId) (k : Nat) (w : Waiting) (i : TagInfo), s.Inv →
    Waits s (.rx q k) w 0x49 → destOf s w.txn = .self → w.txn.sport.toNat = p.val →
    mget (s.port p).tags w.txn.tag.toNat = some i → i.use_ = .victim w.txn.la → s.rlc.miss = [] →
    ∃ u, exec (.wback (.rx q k)) s = .next u
      ∧ { u with alm := s.alm, counts := s.counts, egress := s.egress, ownQ := s.ownQ, localTags := s.localTags,
                  ord := s.ord, seqNo := s.seqNo, rlc := s.rlc, ports := s.ports } = s
      ∧ u.rlc.victims = s.rlc.victims.filter (fun v => v.la != w.txn.la)
      ∧ (u.port p).tags = mdel (s.port p).tags w.txn.tag.toNat
      ∧ u.rlc.lines = s.rlc.lines)

/-- Snoops at a holder. SNPS with MODE 0 leaves M and O in O and E in S, with MODE 1 it leaves S; SNPX, SNPI and SNPF
leave the line Invalid; each snoop and each line found is counted, and the answer SRSP goes to the home, also from a
die that does not hold the line. SNPR leaves every line of its region Invalid, and SRSPR goes to the home (R260). -/
def Obligations.Snoops : Prop :=
  (∀ (s : State) (q : PortId) (k : Nat) (w : Waiting) (l : RlcLine), s.Inv → Waits s (.rx q k) w 0x50 →
    destOf s w.txn = .self → s.rlc.victims = [] → rlcLine s w.txn.la = some l → l.st ≠ .i →
    ∃ u, exec (.snps (.rx q k)) s = .next u
      ∧ { u with alm := s.alm, ownQ := s.ownQ, seqNo := s.seqNo, rlc := s.rlc, ports := s.ports } = s
      ∧ OnlyEntries [(0x8001, 0x06), (0x8001, 0x07), (0x8001, 0x08)] s u
      ∧ u.rlc.lines = mset s.rlc.lines w.txn.la.toNat
          { l with st := if (w.txn.data.getD 0 0).getLsbD 20 = true ∨ l.st = .e ∨ l.st = .s then .s else .o }
      ∧ counted64 s u 0x8001 0x06 1 ∧ counted64 s u 0x8001 0x07 1
      ∧ ∀ h : PortId, Reaches s (laPkg w.txn.la) (laDie w.txn.la) h → lastSent u h = some 0x58)
  ∧ (∀ (s : State) (q : PortId) (k : Nat) (w : Waiting) (l : RlcLine) (c : Instr) (opc : Nat),
    s.Inv → c = .snpx (.rx q k) ∧ opc = 0x51 ∨ c = .snpi (.rx q k) ∧ opc = 0x52 ∨ c = .snpf (.rx q k) ∧ opc = 0x53 →
    Waits s (.rx q k) w opc → destOf s w.txn = .self → s.rlc.victims = [] → rlcLine s w.txn.la = some l →
    ∃ u, exec c s = .next u
      ∧ { u with alm := s.alm, ownQ := s.ownQ, seqNo := s.seqNo, rlc := s.rlc, ports := s.ports } = s
      ∧ OnlyEntries [(0x8001, 0x06), (0x8001, 0x07), (0x8001, 0x08)] s u
      ∧ u.rlc.lines = mdel s.rlc.lines w.txn.la.toNat
      ∧ counted64 s u 0x8001 0x06 1 ∧ counted64 s u 0x8001 0x07 1
      ∧ ∀ h : PortId, Reaches s (laPkg w.txn.la) (laDie w.txn.la) h → lastSent u h = some 0x58)
  ∧ (∀ (s : State) (q : PortId) (k : Nat) (w : Waiting) (c : Instr) (opc : Nat), s.Inv →
    (c = .snps (.rx q k) ∧ opc = 0x50 ∨ c = .snpx (.rx q k) ∧ opc = 0x51 ∨ c = .snpi (.rx q k) ∧ opc = 0x52
      ∨ c = .snpf (.rx q k) ∧ opc = 0x53) →
    Waits s (.rx q k) w opc → destOf s w.txn = .self → s.rlc.victims = [] → s.rlc.miss = [] →
    rlcLine s w.txn.la = none →
    ∃ u, exec c s = .next u
      ∧ { u with alm := s.alm, ownQ := s.ownQ, seqNo := s.seqNo, ports := s.ports } = s
      ∧ OnlyEntries [(0x8001, 0x06), (0x8001, 0x07), (0x8001, 0x08)] s u
      ∧ u.rlc = s.rlc
      ∧ counted64 s u 0x8001 0x06 1
      ∧ ∀ h : PortId, Reaches s (laPkg w.txn.la) (laDie w.txn.la) h → lastSent u h = some 0x58)
  ∧ (∀ (s : State) (q : PortId) (k : Nat) (w : Waiting), s.Inv → Waits s (.rx q k) w 0x54 → destOf s w.txn = .self →
    s.rlc.victims = [] → (∀ m ∈ s.rlc.miss, m.evict = none) →
    ∃ u, exec (.snpr (.rx q k)) s = .next u
      ∧ { u with alm := s.alm, ownQ := s.ownQ, seqNo := s.seqNo, rlc := s.rlc, ports := s.ports } = s
      ∧ OnlyEntries [(0x8001, 0x06), (0x8001, 0x07), (0x8001, 0x08)] s u
      ∧ u.rlc.lines = (List.range 32).foldl
          (fun ls i => mdel ls ((w.txn.la &&& ~~~31#51) + BitVec.ofNat 51 i).toNat) s.rlc.lines
      ∧ u.rlc.miss = s.rlc.miss ∧ u.egress = s.egress
      ∧ ∀ h : PortId, Reaches s (laPkg w.txn.la) (laDie w.txn.la) h → lastSent u h = some 0x59)

/-- The Remote Line Cache under management. Disabling it, taking ways out and a flush owe an eviction to every line
concerned, a flush and the disabling also to every line whose transaction is outstanding; enabling it stores the
value; one at a time an owed line goes to the victim buffer, and with nothing owed nothing happens (R244). The absent
map is installed (R223, R269). -/
def Obligations.CacheManagement : Prop :=
  (∀ s : State, s.Inv → Writable s → s.rlc.busy = false →
    ∃ t, exec (.rlcEnable false) s = .next t
      ∧ { t with alm := s.alm, rlc := s.rlc, trace := s.trace } = s
      ∧ OnlyEntries [(0x8000, 0x01)] s t
      ∧ waysEnabled t = []
      ∧ t.rlc.lines = s.rlc.lines
      ∧ (∀ x ∈ s.rlc.lines, BitVec.ofNat 51 x.1 ∈ t.rlc.owed)
      ∧ ∀ m ∈ s.rlc.miss, m.la ∈ t.rlc.owed)
  ∧ (∀ s : State, s.Inv → Writable s → s.rlc.busy = false →
    ∃ t, exec (.rlcEnable true) s = .next t
      ∧ t.get 0x8000 0x01 1 = 1
      ∧ { t with alm := s.alm, trace := s.trace } = s)
  ∧ (∀ (s : State) (mask : BitVec 16), s.Inv → Writable s → s.rlc.busy = false → mask.toNat &&& waysRemoved s = 0 →
    ∃ t, exec (.rlcWaysEnabled mask) s = .next t
      ∧ { t with alm := s.alm, rlc := s.rlc, trace := s.trace } = s
      ∧ OnlyEntries [(0x8000, 0x03)] s t
      ∧ t.get 0x8000 0x03 0xFFFF = mask.toNat
      ∧ ∀ x ∈ s.rlc.lines, bitAt (s.get 0x8000 0x03 0xFFFF) x.2.way = true → bitAt mask.toNat x.2.way = false →
          BitVec.ofNat 51 x.1 ∈ t.rlc.owed)
  ∧ (∀ s : State, s.Inv → Writable s → s.rlc.busy = false →
    ∃ t, exec .rlcFlush s = .next t
      ∧ { t with rlc := s.rlc, trace := s.trace } = s
      ∧ t.rlc.lines = s.rlc.lines
      ∧ (∀ x ∈ s.rlc.lines, BitVec.ofNat 51 x.1 ∈ t.rlc.owed)
      ∧ (∀ m ∈ s.rlc.miss, m.la ∈ t.rlc.owed)
      ∧ (s.rlc.lines ≠ [] → t.rlc.busy = true))
  ∧ (∀ (s : State) (la : LineAddr) (l : RlcLine), s.rlc.victims.length < 32 →
    (∀ x ∈ s.rlc.owed, (rlcLine s x).isSome = true) →
    s.rlc.owed.find? (fun la => !outstanding s la) = some la → rlcLine s la = some l →
    ∃ t v, exec .rlcEviction s = .next t
      ∧ { t with seqNo := s.seqNo, rlc := s.rlc, ports := s.ports } = s
      ∧ t.rlc.victims = s.rlc.victims ++ [v]
      ∧ v.la = la ∧ v.st = l.st ∧ v.dirty = l.st.dirty ∧ v.flush = true ∧ (l.st.dirty = true → v.data = l.data)
      ∧ t.rlc.lines = mdel s.rlc.lines la.toNat
      ∧ t.rlc.owed = s.rlc.owed.filter (· != la))
  ∧ (∀ s : State, s.rlc.owed = [] → s.rlc.busy = false → exec .rlcEviction s = .next s)
  ∧ (∀ (s : State) (rows : List (BitVec 64)) (rs : List Nat), s.Inv → Writable s → supReady s = true →
    rs = rowsOf 0x7000 0x05 (packBytes 8 ((List.range 64).map fun i => (rows.getD i 0).toNat)) →
    absentOk rs = true → s.home.filter = [] → s.home.track = [] →
    ∃ t, exec (.txnAbsentMapWrite rows) s = .next t
      ∧ t.rows 0x7000 0x05 = rs
      ∧ { t with tabs := s.tabs, trace := s.trace } = s)

/-- Requests and writebacks at the home. With an empty directory a request becomes busy and is presented on IFI-INB
with XPRE 0, CUPG of an unrecorded die as CRDX (R254, R257); on a line that another die may own it is presented with
XPRE 2 and without data (R250, R257). One for an absent range ends with 0x11 (R223). A writeback of an unrecorded die
is answered STALE at once; one of the only recorded holder removes its entry and is presented (R259). A directory
snoop of a line without a record is answered at once, and one of a line with an owner snoops the owner (R255). -/
def Obligations.HomeRequests : Prop :=
  (∀ (s : State) (pl : Place) (w : Waiting) (c : Instr) (opc : Nat),
    (c, opc) ∈ [(.crd pl, 0x40), (.crdx pl, 0x41), (.cupg pl, 0x42), (.cwrl pl, 0x43)] →
    Waits s pl w opc → destOf s w.txn = .self → absentHit s (lineGpa w.txn.la) 128 = false → s.home.track = [] →
    s.home.filter = [] → filterWays s ≠ 0 →
    ∃ u tr, exec c s = .next u
      ∧ { u with egress := s.egress, ownQ := s.ownQ, inbOut := s.inbOut, home := s.home, ports := s.ports } = s
      ∧ u.home.track = [tr]
      ∧ tr.busy = true ∧ tr.presented = true ∧ tr.inrDone = false ∧ tr.la = w.txn.la ∧ tr.kind = .request
      ∧ u.egress = s.egress ++ [(.inb, { txn := { w.txn with
            opc := if opc = 0x42 then 0x41 else w.txn.opc,
            head := .coh (if opc = 0x43 then 4 else 0) false false false false 0 w.txn.la,
            data := [] } })]
      ∧ u.inbOut.length = s.inbOut.length + 1
      ∧ u.home.filter = [])
  ∧ (∀ (s : State) (pl : Place) (w : Waiting) (c : Instr) (opc : Nat) (e : FilterEntry) (h : Holder),
    (c, opc) ∈ [(.crd pl, 0x40), (.crdx pl, 0x41), (.cupg pl, 0x42), (.cwrl pl, 0x43)] →
    Waits s pl w opc → destOf s w.txn = .self → absentHit s (lineGpa w.txn.la) 128 = false → s.home.track = [] →
    s.home.filter = [e] → e.region = false → e.la = w.txn.la → e.owner = some h → h ≠ holderOf w.txn →
    e.holders = [h] →
    ∃ u tr, exec c s = .next u
      ∧ { u with egress := s.egress, ownQ := s.ownQ, inbOut := s.inbOut, home := s.home, ports := s.ports } = s
      ∧ u.home.track = [tr]
      ∧ tr.busy = true ∧ tr.presented = true ∧ tr.nodata = true ∧ tr.la = w.txn.la ∧ tr.kind = .request
      ∧ u.egress = s.egress ++ [(.inb, { txn := { w.txn with
            opc := if opc = 0x42 then 0x41 else w.txn.opc,
            head := .coh 6 false false false false 0 w.txn.la,
            data := [] } })]
      ∧ u.inbOut.length = s.inbOut.length + 1)
  ∧ (∀ (s : State) (pl : Place) (w : Waiting) (c : Instr) (opc : Nat) (ports : List Nat) (l : PortId), s.Inv →
    (c, opc) ∈ [(.crd pl, 0x40), (.crdx pl, 0x41), (.cupg pl, 0x42), (.cwrl pl, 0x43)] →
    Waits s pl w opc → destOf s w.txn = .self → absentHit s (lineGpa w.txn.la) 128 = true →
    placeIsIfi pl = false → destOf s (mkCpl w.txn 0x11 0 []) = .via ports → logical s (ports.headD 0) = l →
    ∃ u w', exec c s = .next u
      ∧ { u with counts := s.counts, ownQ := s.ownQ, seqNo := s.seqNo, ports := s.ports } = s
      ∧ (u.port l).waitq = (s.port l).waitq ++ [w']
      ∧ w'.txn = mkCpl w.txn 0x11 0 []
      ∧ u.home = s.home)
  ∧ (∀ (s : State) (pl : Place) (w : Waiting) (c : Instr) (opc : Nat), s.Inv →
    (c, opc) ∈ [(.cwb pl, 0x44), (.cevc pl, 0x45)] →
    Waits s pl w opc → destOf s w.txn = .self → s.home.track = [] → s.home.filter = [] →
    ∃ u, exec c s = .next u
      ∧ { u with ownQ := s.ownQ, seqNo := s.seqNo, home := s.home, ports := s.ports } = s
      ∧ u.home.track = [] ∧ u.home.filter = []
      ∧ u.egress = s.egress ∧ u.inbOut = s.inbOut
      ∧ ∀ h : PortId, Reaches s w.txn.spkg w.txn.sdie h →
          ((u.port h).waitq.getLast?.map fun x => (x.txn.opc, x.txn.stale)) = some (0x49, true))
  ∧ (∀ (s : State) (pl : Place) (w : Waiting) (c : Instr) (opc : Nat) (e : FilterEntry),
    (c, opc) ∈ [(.cwb pl, 0x44), (.cevc pl, 0x45)] →
    Waits s pl w opc → destOf s w.txn = .self → s.home.track = [] → s.home.filter = [e] → e.region = false →
    e.la = w.txn.la → e.holders = [holderOf w.txn] →
    ∃ u tr, exec c s = .next u
      ∧ { u with egress := s.egress, ownQ := s.ownQ, inbOut := s.inbOut, home := s.home, ports := s.ports } = s
      ∧ u.home.track = [tr] ∧ tr.busy = true ∧ tr.presented = true ∧ tr.kind = .writeback
      ∧ u.home.filter = []
      ∧ u.egress = s.egress ++ [(.inb, { txn := { w.txn with
            head := .coh 0 (opc == 0x44) (opc == 0x44) false false 0 w.txn.la,
            data := if opc = 0x44 then w.txn.data else [] } })]
      ∧ u.inbOut.length = s.inbOut.length + 1)
  ∧ (∀ (s : State) (k : Nat) (w : Waiting), atPlace s (.ifi .snp k) = some w → w.txn.opc = 0x50 ∨ w.txn.opc = 0x53 →
    s.home.track = [] → s.home.filter = [] →
    ∃ u, exec (.directorySnoop k) s = .next u
      ∧ { u with ingress := s.ingress, egress := s.egress, icr := s.icr, home := s.home, out := s.out } = s
      ∧ u.home.track = []
      ∧ u.egress = s.egress ++ [(.snp, { txn := { w.txn with
            opc := 0x58, head := .coh 0 false false false false 0 w.txn.la, data := [] } })])
  ∧ (∀ (s : State) (k : Nat) (w : Waiting) (e : FilterEntry) (h : Holder), s.Inv →
    atPlace s (.ifi .snp k) = some w → w.txn.opc = 0x50 → s.home.track = [] → s.home.filter = [e] →
    e.region = false → e.la = w.txn.la → e.owner = some h →
    ∃ u tr, exec (.directorySnoop k) s = .next u
      ∧ { u with ingress := s.ingress, icr := s.icr, ownQ := s.ownQ, seqNo := s.seqNo, home := s.home,
                  ports := s.ports, out := s.out } = s
      ∧ u.home.track = [tr] ∧ tr.busy = true ∧ tr.kind = .snoop ∧ tr.awaiting = [h] ∧ tr.target = some h
      ∧ u.home.filter = [e] ∧ u.egress = s.egress
      ∧ ∀ l : PortId, Reaches s h.pkg h.die l → lastSent u l = some 0x50)

/-- Answers at the home. The directory's GNT records the grant and goes to the requester (R254, R257); its WBACK ends
a writeback and goes to the evicting die (R259); CFETCH asks the directory for data and is counted, and without a need
for it nothing happens (R258). A snoop answer takes its holder from the awaited ones (R257), and SRSPR ends its
holder's part in a region recall (R266). CACK ends a request that waits for nothing else (R256, R262). -/
def Obligations.HomeAnswers : Prop :=
  (∀ (s : State) (k : Nat) (w : Waiting) (tr : Track), s.Inv → Waits s (.ifi .inr k) w 0x48 →
    s.inbOut.any (inbMatch w.txn) = true → s.home.track = [tr] → busyTrack s .request w.txn = some tr →
    tr.presented = true → tr.inrDone = false → tr.ackDone = false → s.home.filter = [] → tr.txn.opc = 0x40 →
    lineSt w.txn.cst = .e ∨ lineSt w.txn.cst = .s →
    ∃ u tr' e, exec (.gnt (.ifi .inr k)) s = .next u
      ∧ { u with ingress := s.ingress, icr := s.icr, ownQ := s.ownQ, inbOut := s.inbOut, seqNo := s.seqNo,
                  home := s.home, ports := s.ports, out := s.out } = s
      ∧ u.home.track = [tr'] ∧ tr'.inrDone = true ∧ tr'.grant = some (lineSt w.txn.cst) ∧ tr'.awaiting = []
      ∧ u.home.filter = [e] ∧ e.region = false ∧ e.la = tr.la ∧ e.holders = [holderOf tr.txn]
      ∧ e.owner = (if lineSt w.txn.cst = .e then some (holderOf tr.txn) else none)
      ∧ u.inbOut.length + 1 = s.inbOut.length
      ∧ ∀ h : PortId, Reaches s tr.txn.spkg tr.txn.sdie h → lastSent u h = some 0x48)
  ∧ (∀ (s : State) (k : Nat) (w : Waiting) (tr : Track), s.Inv → Waits s (.ifi .inr k) w 0x49 →
    s.inbOut.any (inbMatch w.txn) = true → s.home.track = [tr] → busyTrack s .writeback w.txn = some tr →
    tr.presented = true →
    ∃ u, exec (.wback (.ifi .inr k)) s = .next u
      ∧ { u with ingress := s.ingress, icr := s.icr, ownQ := s.ownQ, inbOut := s.inbOut, seqNo := s.seqNo,
                  home := s.home, ports := s.ports, out := s.out } = s
      ∧ u.home.track = []
      ∧ u.home.filter = s.home.filter
      ∧ u.inbOut.length + 1 = s.inbOut.length
      ∧ ∀ h : PortId, Reaches s tr.txn.spkg tr.txn.sdie h → lastSent u h = some 0x49)
  ∧ (∀ (s : State) (la : LineAddr) (tr : Track), s.home.track = [tr] → tr.busy = true → tr.la = la →
    tr.needFetch = true →
    ∃ u, exec (.cfetch la) s = .next u
      ∧ { u with alm := s.alm, egress := s.egress, inbOut := s.inbOut, home := s.home } = s
      ∧ OnlyEntries [(0x8100, 0x06)] s u
      ∧ u.home.track = [{ tr with needFetch := false, fetching := true }]
      ∧ u.egress = s.egress ++ [(.inb, { txn := { tr.txn with
            opc := 0x47, head := .coh 0 false false false false 0 tr.txn.la, data := [] } })]
      ∧ counted s u 0x8100 0x06 1)
  ∧ (∀ (s : State) (la : LineAddr), (s.home.track.any fun t => t.busy && t.la == la && t.needFetch) = false →
    exec (.cfetch la) s = .next s)
  ∧ (∀ (s : State) (pl : Place) (w : Waiting) (x : Track), Waits s pl w 0x58 → destOf s w.txn = .self →
    s.home.track = [x] → awaitingTrack s w.txn (targetHolder w.txn) = some x → x.recalling = false →
    x.kind = .request → x.target ≠ some (targetHolder w.txn) → w.txn.cdata = false → x.ackDone = false →
    ∃ u, exec (.srsp pl) s = .next u
      ∧ { u with ownQ := s.ownQ, home := s.home, ports := s.ports } = s
      ∧ u.home.track = [{ x with awaiting := x.awaiting.erase (targetHolder w.txn) }]
      ∧ u.home.filter = s.home.filter)
  ∧ (∀ (s : State) (pl : Place) (w : Waiting) (x : Track), Waits s pl w 0x59 → destOf s w.txn = .self →
    s.home.track = [x] → awaitingTrack s w.txn (targetHolder w.txn) = some x → x.recalling = true → x.region = true →
    x.awaiting.filter (· != targetHolder w.txn) ≠ [] →
    ∃ u, exec (.srspr pl) s = .next u
      ∧ { u with ownQ := s.ownQ, home := s.home, ports := s.ports } = s
      ∧ u.home.track = [{ x with awaiting := x.awaiting.filter (· != targetHolder w.txn) }]
      ∧ u.home.filter = s.home.filter)
  ∧ (∀ (s : State) (pl : Place) (w : Waiting) (x : Track), Waits s pl w 0x46 → destOf s w.txn = .self →
    s.home.track = [x] → busyTrack s .request w.txn = some x → x.inrDone = true → w.txn.stale = false →
    w.txn.cdata = false → x.needFetch = false → x.fetching = false → x.awaiting = [] →
    (x.staleAck = false ∨ x.dirtyFwd = false ∨ x.dataAck = true) →
    ∃ u, exec (.cack pl) s = .next u
      ∧ { u with ownQ := s.ownQ, home := s.home, ports := s.ports } = s
      ∧ u.home.track = []
      ∧ u.home.filter = s.home.filter)

/-- Reduction commands of the die and of management. A legal ROPEN opens its RID with its descriptor and tenancy, no
block started or staged, and the window of `ifr_window`, on the engine it names or, when that is not in service, on
the one with the fewest open RIDs; the RSTAT says OPENED with status 0, and the pooled block of the RID moves into its
reservation (R279). A refused ROPEN leaves the RIDs alone, is counted, and its RSTAT carries the status of the first
failed check and the engine that holds the RID, if any (R278, R279). A legal RCONT of one block within the window is
staged in slot 0, beyond the window it goes to the orphan pool, and with the pool full it waits in its place (R281,
R282); a refused one leaves the RIDs alone, is counted, and its RSTAT says CONT_REFUSED with BLK (R291). RABORT and
`ifr_abort_rid` leave the RID ABORTED without stored or pooled blocks and present RSTAT ABORTED (R290). A buffer place
without such a command changes nothing. The engines in service are those of a legal mask; a mask that names a missing
engine changes none (R294). An engine that fails its residue check leaves service, counted, with a service record; one
that has already failed changes nothing (R294). A RID of an engine that left service begins to move; when the move
ends a peer holds it, counted, with RSTAT MOVED; without a need to move, or without a peer, nothing happens (R294). -/
def Obligations.ReductionControl : Prop :=
  (∀ (s : State) (k : Nat) (w : Waiting) (d : Desc), atPlace s (.ifi .red k) = some w → w.txn.opc = 0x62 →
    d = parseDesc w.txn.data → openStatus s w.txn.ten d = 0 → s.ifr.orphans = [] →
    ∃ t r, exec (.ropen k) s = .next t
      ∧ { t with ingress := s.ingress, egress := s.egress, icr := s.icr, ifr := s.ifr, out := s.out } = s
      ∧ ridOf t d.rid = some r ∧ r.aborted = false ∧ r.desc = d ∧ r.ten = w.txn.ten ∧ r.klo = 0 ∧ r.staged = []
      ∧ r.window = ifrWindow s ∧ r.got = [] ∧ r.moving = none
      ∧ ((inService s).contains d.eng = true → r.eng = d.eng)
      ∧ ((inService s).contains d.eng = false → leastLoaded s = some r.eng)
      ∧ PresentsRstat s t w.txn.ten w.txn.rqid 0 1 d.rid 0 {} r.eng)
  ∧ (∀ (s : State) (k src : Nat) (w : Waiting) (d : Desc) (o : Orphan), atPlace s (.ifi .red k) = some w →
    w.txn.opc = 0x62 → d = parseDesc w.txn.data → openStatus s w.txn.ten d = 0 → s.ifr.orphans = [o] → o.rid = d.rid →
    o.blk < ifrWindow s → o.blk < d.nblk → o.res = false → sourceOf d o.holder = some src → src ≠ 0 →
    o.fmt.toNat = carryCode d.cfmt →
    ∃ t r x, exec (.ropen k) s = .next t
      ∧ { t with ingress := s.ingress, egress := s.egress, icr := s.icr, ifr := s.ifr, out := s.out } = s
      ∧ ridOf t d.rid = some r ∧ r.aborted = false ∧ r.desc = d ∧ r.staged = [x]
      ∧ x.blk = o.blk ∧ x.src = src ∧ x.carry = decodeCarry d.cfmt o.bytes ∧ x.flags = o.flags
      ∧ t.ifr.orphans = [])
  ∧ (∀ (s : State) (k : Nat) (w : Waiting) (st : BitVec 8), atPlace s (.ifi .red k) = some w → w.txn.opc = 0x62 →
    openStatus s w.txn.ten (parseDesc w.txn.data) = st → st ≠ 0 →
    ∃ t, exec (.ropen k) s = .next t
      ∧ { t with alm := s.alm, ingress := s.ingress, egress := s.egress, icr := s.icr, out := s.out } = s
      ∧ OnlyEntries [(0x9001, 0x06)] s t
      ∧ t.ifr = s.ifr
      ∧ counted s t 0x9001 0x06 1
      ∧ PresentsRstat s t w.txn.ten w.txn.rqid st 1 (parseDesc w.txn.data).rid 0 {}
          (((ridOf s (parseDesc w.txn.data).rid).map fun r => if r.aborted then 0 else r.eng).getD 0))
  ∧ (∀ (s : State) (k : Nat) (w : Waiting) (r : RidState), atPlace s (.ifi .red k) = some w → w.txn.opc = 0x65 →
    w.step ≠ 8 → w.taken = 0 → contStatus s w.txn = 0 → (blkHead w.txn).nb = 1 →
    ridOf s (blkHead w.txn).rid = some r → (blkHead w.txn).blk < r.klo + r.window →
    ∃ t x, exec (.rcont k) s = .next t
      ∧ { t with ingress := s.ingress, icr := s.icr, ifr := s.ifr, out := s.out } = s
      ∧ ridOf t (blkHead w.txn).rid = some { r with staged := r.staged ++ [x] }
      ∧ x.blk = (blkHead w.txn).blk ∧ x.src = 0
      ∧ (x.carry, x.flags) = toCarry r.desc (blockAt w none 0).bytes
      ∧ t.egress = s.egress ∧ t.ifr.orphans = s.ifr.orphans ∧ t.ingress.length + 1 = s.ingress.length)
  ∧ (∀ (s : State) (k : Nat) (w : Waiting) (r : RidState), atPlace s (.ifi .red k) = some w → w.txn.opc = 0x65 →
    w.step ≠ 8 → w.taken = 0 → contStatus s w.txn = 0 → (blkHead w.txn).nb = 1 →
    ridOf s (blkHead w.txn).rid = some r → r.klo + r.window ≤ (blkHead w.txn).blk → orphanRoom s = true →
    ∃ t o, exec (.rcont k) s = .next t
      ∧ { t with ingress := s.ingress, icr := s.icr, ifr := s.ifr, out := s.out } = s
      ∧ t.ifr = { s.ifr with orphans := s.ifr.orphans ++ [o] }
      ∧ o.rid = (blkHead w.txn).rid ∧ o.blk = (blkHead w.txn).blk ∧ o.holder = none ∧ o.res = false
      ∧ t.egress = s.egress)
  ∧ (∀ (s : State) (k : Nat) (w : Waiting) (r : RidState), atPlace s (.ifi .red k) = some w → w.txn.opc = 0x65 →
    w.step ≠ 8 → w.taken = 0 → contStatus s w.txn = 0 → (blkHead w.txn).nb = 1 →
    ridOf s (blkHead w.txn).rid = some r → r.klo + r.window ≤ (blkHead w.txn).blk → orphanRoom s = false →
    ∃ t, exec (.rcont k) s = .next t
      ∧ { t with ingress := s.ingress } = s
      ∧ t.ifr = s.ifr ∧ t.egress = s.egress
      ∧ atPlace t (.ifi .red k) = some { w with step := 8 })
  ∧ (∀ (s : State) (k eng : Nat) (w : Waiting) (st : BitVec 8), atPlace s (.ifi .red k) = some w → w.txn.opc = 0x65 →
    w.step ≠ 8 → contStatus s w.txn = st → st ≠ 0 →
    eng = ((ridOf s (blkHead w.txn).rid).map fun r => if r.aborted then 0 else r.eng).getD 0 →
    ∃ t, exec (.rcont k) s = .next t
      ∧ { t with alm := s.alm, ingress := s.ingress, egress := s.egress, icr := s.icr, out := s.out } = s
      ∧ OnlyEntries [(0x9001, 0x06)] s t
      ∧ t.ifr = s.ifr
      ∧ counted s t 0x9001 0x06 1
      ∧ PresentsRstat s t w.txn.ten w.txn.rqid st 2 (blkHead w.txn).rid (blkHead w.txn).blk {} eng)
  ∧ (∀ (s : State) (k : Nat) (w : Waiting) (rid : Rid), atPlace s (.ifi .red k) = some w → w.txn.opc = 0x63 →
    w.txn.head = .rabort rid →
    ∃ t r, exec (.rabort k) s = .next t
      ∧ { t with ingress := s.ingress, egress := s.egress, icr := s.icr, ifr := s.ifr, out := s.out } = s
      ∧ ridOf t rid = some r ∧ r.aborted = true ∧ r.staged = []
      ∧ (∀ o ∈ t.ifr.orphans, o.rid ≠ rid)
      ∧ PresentsRstat s t w.txn.ten w.txn.rqid 0 4 rid 0 {} (((ridOf s rid).map (·.eng)).getD 0))
  ∧ (∀ (s : State) (v : BitVec 16) (rid : Rid), s.Inv → Writable s → rid = v.setWidth 12 →
    ∃ t r, exec (.ifrAbortRid v) s = .next t
      ∧ { t with egress := s.egress, ifr := s.ifr, trace := s.trace } = s
      ∧ ridOf t rid = some r ∧ r.aborted = true ∧ r.staged = []
      ∧ (∀ o ∈ t.ifr.orphans, o.rid ≠ rid)
      ∧ PresentsRstat s t (((ridOf s rid).map (·.ten)).getD 0) 0 0 4 rid 0 {} (((ridOf s rid).map (·.eng)).getD 0))
  ∧ (∀ (s : State) (k : Nat) (c : Instr) (opc : BitVec 8),
    (c, opc) ∈ [(Instr.ropen k, 0x62), (.rcont k, 0x65), (.rabort k, 0x63)] →
    (∀ w ∈ atPlace s (.ifi .red k), w.txn.opc ≠ opc) →
    exec c s = .next s)
  ∧ (∀ (s : State) (mask : BitVec 8), s.Inv → Writable s → enginesMaskBad s mask.toNat = false →
    ∃ t, exec (.ifrEnginesEnabled mask) s = .next t
      ∧ t.get 0x9000 0x02 (2 ^ s.elab_.ifr - 1) = mask.toNat
      ∧ { t with alm := s.alm, trace := s.trace } = s
      ∧ OnlyEntries [(0x9000, 0x02)] s t)
  ∧ (∀ (s : State) (mask : BitVec 8), s.Inv → Writable s → enginesMaskBad s mask.toNat = true →
    ∃ t, exec (.ifrEnginesEnabled mask) s = .next t
      ∧ mget t.alm (ekey 0x9000 0x02) = mget s.alm (ekey 0x9000 0x02)
      ∧ { t with alm := s.alm, trace := s.trace } = s)
  ∧ (∀ (s : State) (e : EngineId) (residue : BitVec 2), s.Inv → e.val < s.elab_.ifr →
    s.ifr.failed.contains e.val = false →
    ∃ t, exec (.residueError e residue) s = .next t
      ∧ { t with alm := s.alm, evtOut := s.evtOut, irqs := s.irqs, ring := s.ring, svc := s.svc, ifr := s.ifr } = s
      ∧ t.ifr.failed = s.ifr.failed ++ [e.val]
      ∧ e.val ∉ inService t
      ∧ counted s t 0x9001 0x08 1
      ∧ ((svcSlot s.svc).isSome = true → Recorded t 0x40 5 e.val 0))
  ∧ (∀ (s : State) (e : EngineId) (residue : BitVec 2), e.val < s.elab_.ifr → s.ifr.failed.contains e.val = true →
    exec (.residueError e residue) s = .next s)
  ∧ (∀ (s : State) (rid : Rid) (r : RidState), ridOf s rid = some r → mustMove s r = true → r.moving = none →
    exec (.ridMove rid) s = .next (setRid s rid { r with moving := some s.now }))
  ∧ (∀ (s : State) (rid : Rid), (∀ r ∈ ridOf s rid, mustMove s r = false ∨ r.moving.isSome = true) →
    exec (.ridMove rid) s = .next s)
  ∧ (∀ (s : State) (rid : Rid) (r : RidState) (e : Nat), ridOf s rid = some r → r.moving ≠ none →
    leastLoaded s = some e →
    ∃ t, exec (.ridMoveEnd rid) s = .next t
      ∧ { t with alm := s.alm, egress := s.egress, ifr := s.ifr } = s
      ∧ OnlyEntries [(0x9001, 0x07)] s t
      ∧ ridOf t rid = some { r with eng := e, moving := none }
      ∧ counted s t 0x9001 0x07 1
      ∧ PresentsRstat s t r.ten 0 0 6 rid 0 {} e)
  ∧ (∀ (s : State) (rid : Rid), leastLoaded s = none ∨ (∀ r ∈ ridOf s rid, r.moving = none) →
    exec (.ridMoveEnd rid) s = .next s)

/-- Reduction blocks. An RBLK of one block for a FREE RID goes to the orphan pool, and with the pool full it waits in
its place (R281); one within the window of an OPEN RID is staged in the slot of its sender (R281); a bad RBLK or RRES
is discarded and counted, and RSTAT BAD_BLOCK is presented with the first block concerned (R291); one for an ABORTED
RID is discarded and its blocks are counted (R281). An RRES of the parent is noted and presented, and with the last
block the RID becomes FREE and RSTAT DONE is presented (R284, R289); one for a FREE RID goes to the orphan pool
(R281). The complete blocks at the lower end of the window start together, as many as R280 allows, and are counted
(R280, R287); where none can start, where the RID moves, or where its engine is out of service, nothing happens (R280,
R294). Waiting contributions go on as the window moves (R281). -/
def Obligations.ReductionBlocks : Prop :=
  (∀ (s : State) (q : PortId) (k : Nat) (w : Waiting), Waits s (.rx q k) w 0x60 → destOf s w.txn = .self →
    ridOf s (blkHead w.txn).rid = none → (blkHead w.txn).nb = 1 → w.taken = 0 → orphanRoom s = true →
    ∃ t o, exec (.rblk (.rx q k)) s = .next t
      ∧ { t with ifr := s.ifr, ports := s.ports } = s
      ∧ OtherPorts [logical s q] s t
      ∧ t.ifr.orphans = s.ifr.orphans ++ [o]
      ∧ o.rid = (blkHead w.txn).rid ∧ o.blk = (blkHead w.txn).blk ∧ o.res = false
      ∧ o.holder = some ⟨w.txn.spkg, w.txn.sdie⟩
      ∧ t.ifr.rids = s.ifr.rids ∧ t.egress = s.egress)
  ∧ (∀ (s : State) (q : PortId) (k : Nat) (w : Waiting), s.Inv → Waits s (.rx q k) w 0x60 → destOf s w.txn = .self →
    ridOf s (blkHead w.txn).rid = none → (blkHead w.txn).nb = 1 → w.taken = 0 → orphanRoom s = false →
    ∃ t, exec (.rblk (.rx q k)) s = .next t
      ∧ { t with ports := s.ports } = s
      ∧ OtherPorts [logical s q] s t
      ∧ t.ifr = s.ifr ∧ t.egress = s.egress
      ∧ atPlace t (.rx q k) = some { w with step := 8 })
  ∧ (∀ (s : State) (q : PortId) (k src : Nat) (w : Waiting) (r : RidState), Waits s (.rx q k) w 0x60 →
    destOf s w.txn = .self → ridOf s (blkHead w.txn).rid = some r → r.aborted = false → w.step ≠ 8 → w.taken = 0 →
    rblkBad s w.txn r = none → (blkHead w.txn).nb = 1 → (blkHead w.txn).blk < r.klo + r.window →
    sourceOf r.desc (some ⟨w.txn.spkg, w.txn.sdie⟩) = some src →
    ∃ t x, exec (.rblk (.rx q k)) s = .next t
      ∧ { t with ifr := s.ifr, ports := s.ports } = s
      ∧ OtherPorts [logical s q] s t
      ∧ ridOf t (blkHead w.txn).rid = some { r with staged := r.staged ++ [x] }
      ∧ x.blk = (blkHead w.txn).blk ∧ x.src = src ∧ x.flags = (blkHead w.txn).flags
      ∧ t.egress = s.egress ∧ t.ifr.orphans = s.ifr.orphans)
  ∧ (∀ (s : State) (q : PortId) (k bad : Nat) (w : Waiting) (r : RidState), Waits s (.rx q k) w 0x60 →
    destOf s w.txn = .self → ridOf s (blkHead w.txn).rid = some r → r.aborted = false → w.step ≠ 8 →
    rblkBad s w.txn r = some bad →
    ∃ t, exec (.rblk (.rx q k)) s = .next t
      ∧ { t with alm := s.alm, egress := s.egress, ports := s.ports } = s
      ∧ OtherPorts [logical s q] s t
      ∧ OnlyEntries [(0x9001, 0x05)] s t
      ∧ counted s t 0x9001 0x05 1
      ∧ PresentsRstat s t r.ten 0 0x14 5 (blkHead w.txn).rid bad {} r.eng
      ∧ t.ifr = s.ifr)
  ∧ (∀ (s : State) (q : PortId) (k bad : Nat) (w : Waiting) (r : RidState), Waits s (.rx q k) w 0x61 →
    destOf s w.txn = .self → ridOf s (blkHead w.txn).rid = some r → r.aborted = false → rresBad w.txn r = some bad →
    ∃ t, exec (.rres (.rx q k)) s = .next t
      ∧ { t with alm := s.alm, egress := s.egress, ports := s.ports } = s
      ∧ OtherPorts [logical s q] s t
      ∧ OnlyEntries [(0x9001, 0x05)] s t
      ∧ counted s t 0x9001 0x05 1
      ∧ PresentsRstat s t r.ten 0 0x14 5 (blkHead w.txn).rid bad {} r.eng
      ∧ t.ifr = s.ifr)
  ∧ (∀ (s : State) (q : PortId) (k : Nat) (w : Waiting) (c : Instr) (opc : Nat) (r : RidState),
    c = .rblk (.rx q k) ∧ opc = 0x60 ∨ c = .rres (.rx q k) ∧ opc = 0x61 → Waits s (.rx q k) w opc →
    destOf s w.txn = .self → ridOf s (blkHead w.txn).rid = some r → r.aborted = true → w.taken = 0 →
    ∃ t, exec c s = .next t
      ∧ { t with alm := s.alm, ports := s.ports } = s
      ∧ OtherPorts [logical s q] s t
      ∧ OnlyEntries [(0x9001, 0x09)] s t
      ∧ counted s t 0x9001 0x09 (blkHead w.txn).nb
      ∧ t.ifr = s.ifr ∧ t.egress = s.egress)
  ∧ (∀ (s : State) (q : PortId) (k : Nat) (w : Waiting) (r : RidState), Waits s (.rx q k) w 0x61 →
    destOf s w.txn = .self → ridOf s (blkHead w.txn).rid = some r → r.aborted = false → rresBad w.txn r = none →
    (blkHead w.txn).blk + (blkHead w.txn).nb ≠ r.desc.nblk →
    ∃ t r' x, exec (.rres (.rx q k)) s = .next t
      ∧ { t with egress := s.egress, ownQ := s.ownQ, seqNo := s.seqNo, ifr := s.ifr, ports := s.ports } = s
      ∧ ridOf t (blkHead w.txn).rid = some r'
      ∧ r'.got = r.got ++ (List.range (blkHead w.txn).nb).map ((blkHead w.txn).blk + ·)
      ∧ r'.klo = r.klo ∧ r'.staged = r.staged
      ∧ t.egress = s.egress ++ [(.red, x)] ∧ x.txn.opc = 0x61 ∧ x.txn.ten = r.ten
      ∧ (blkHead x.txn).blk = (blkHead w.txn).blk % 2 ^ 24 ∧ (blkHead x.txn).nb = (blkHead w.txn).nb % 16)
  ∧ (∀ (s : State) (q : PortId) (k : Nat) (w : Waiting) (r : RidState), Waits s (.rx q k) w 0x61 →
    destOf s w.txn = .self → ridOf s (blkHead w.txn).rid = some r → r.aborted = false → rresBad w.txn r = none →
    (blkHead w.txn).blk + (blkHead w.txn).nb = r.desc.nblk →
    ∃ t x y f, exec (.rres (.rx q k)) s = .next t
      ∧ { t with egress := s.egress, ownQ := s.ownQ, seqNo := s.seqNo, ifr := s.ifr, ports := s.ports } = s
      ∧ ridOf t (blkHead w.txn).rid = none
      ∧ t.egress = s.egress ++ [(.red, x), (.red, y)] ∧ x.txn.opc = 0x61
      ∧ y.txn.head = .rstat 0 3 (blkHead w.txn).rid (BitVec.ofNat 24 r.desc.nblk) (f : BlkFlags).resc f.sat f.nan
          (BitVec.ofNat 4 r.eng)
      ∧ f = r.flags.or (blkHead w.txn).flags)
  ∧ (∀ (s : State) (q : PortId) (k : Nat) (w : Waiting), Waits s (.rx q k) w 0x61 → destOf s w.txn = .self →
    ridOf s (blkHead w.txn).rid = none → s.ifr.orphans.length + (blkHead w.txn).nb ≤ 256 →
    ∃ t, exec (.rres (.rx q k)) s = .next t
      ∧ { t with ifr := s.ifr, ports := s.ports } = s
      ∧ OtherPorts [logical s q] s t
      ∧ t.ifr.orphans.length = s.ifr.orphans.length + (blkHead w.txn).nb
      ∧ (∀ o ∈ t.ifr.orphans, o ∈ s.ifr.orphans ∨ o.rid = (blkHead w.txn).rid ∧ o.res = true)
      ∧ t.ifr.rids = s.ifr.rids ∧ t.egress = s.egress)
  ∧ (∀ (s : State) (rid : Rid) (r : RidState) (n : Nat), ridOf s rid = some r → r.aborted = false → r.moving = none →
    (inService s).contains r.eng = true → n = groupSize s r → n ≠ 0 →
    r.klo + n < r.desc.nblk → s.ifr.orphans = [] →
    ∃ t r', exec (.blockStart rid) s = .next t
      ∧ { t with alm := s.alm, egress := s.egress, ownQ := s.ownQ, seqNo := s.seqNo, ifr := s.ifr,
                  ports := s.ports } = s
      ∧ OnlyEntries [(0x9001, 0x01)] s t
      ∧ ridOf t rid = some r'
      ∧ r'.klo = r.klo + n
      ∧ r'.staged = r.staged.filter (fun x => decide (r.klo + n ≤ x.blk))
      ∧ r'.groupAt = some s.now ∧ groupSize t r' = 0
      ∧ mgetD t.ifr.starts r.eng 0 = mgetD s.ifr.starts r.eng 0 + n
      ∧ counted64 s t 0x9001 0x01 n)
  ∧ (∀ (s : State) (rid : Rid),
    (∀ r ∈ ridOf s rid, r.aborted = true ∨ r.moving ≠ none ∨ (inService s).contains r.eng = false
      ∨ groupSize s r = 0) →
    exec (.blockStart rid) s = .next s)
  ∧ (∀ (s : State) (w : Waiting) (r : RidState), (∀ p ∈ s.ports, p.rx = []) → s.ingress = [(.red, w)] → w.step = 8 →
    w.txn.opc = 0x65 → (blkHead w.txn).nb = w.taken + 1 → ridOf s (blkHead w.txn).rid = some r → r.aborted = false →
    r.desc.local_ = true → (blkHead w.txn).blk + w.taken < r.klo + r.window →
    ∃ t x, exec .blockStageResume s = .next t
      ∧ { t with ingress := s.ingress, icr := s.icr, ifr := s.ifr, out := s.out } = s
      ∧ ridOf t (blkHead w.txn).rid = some { r with staged := r.staged ++ [x] }
      ∧ x.blk = (blkHead w.txn).blk + w.taken ∧ x.src = 0
      ∧ t.ingress = [])

/-- Twin pairs. TCREDIT returns for each VC the credits that its running count says have not been applied yet; an
entry that brings nothing new is counted as a duplicate (R321, R322). At a port of no pair TCREDIT and TOUT count as
unknown cells (the model's choice, log entry 38). TOUT takes the merged unit it names out of the pair, which then
trains on its own (R319, R323); a unit that is OUT already stays as it is, and a name outside the pair is ignored. A
retrain request at a unit with a merged sibling takes it out of the pair too, and counts as a retrain (R319). A unit
OUT for `twin_out_notice` is reported, and not with a notice time of 0 (R319). A unit in CATCHUP that has copied is
ready, one whose read point cannot be aligned stays OUT with a record (R320); when ready it joins as STANDBY, counted,
with a window of 16 cc, and without a merged sibling it goes back to copying (R320, R324); the end of the window puts
TCREDIT cells for every VC ahead of the control cells that wait (R321). A unit that comes back to a pair with a merged
sibling is ACTIVE with its agreed mask, keeps the pair's GEN, and is in CATCHUP when twins are agreed and width and
facing die are those of the working unit, else OUT (R320). -/
def Obligations.TwinPairs : Prop :=
  (∀ (s : State) (q l : PortId) (k v rc n : Nat) (c : CtrlIn) (a b e : Nat), s.Inv → s.elab_.portBuilt q = true →
    logical s q = l → ctrlHead s l 8 = some c → pairOf s l = some k →
    tcreditEntries c.cell = [(v, rc), (0, a), (0, b), (0, e)] → v ≠ 0 →
    n = (rc + 65536 - (s.twins.getD k {}).av.getD v 0) % 65536 → 1 ≤ n → n ≤ 32767 →
    ∃ t, exec (.tcredit q) s = .next t
      ∧ { t with alm := s.alm, twins := s.twins, ports := s.ports } = s
      ∧ (t.port l).uv.getD v 0 = (s.port l).uv.getD v 0 - n
      ∧ (t.port l).ctrlIn = (s.port l).ctrlIn.drop 1
      ∧ OtherPorts [l.val] s t)
  ∧ (∀ (s : State) (q l : PortId) (k v rc : Nat) (c : CtrlIn) (a b e : Nat), s.Inv → s.elab_.portBuilt q = true →
    logical s q = l → ctrlHead s l 8 = some c → pairOf s l = some k →
    tcreditEntries c.cell = [(v, rc), (0, a), (0, b), (0, e)] → v ≠ 0 →
    (rc + 65536 - (s.twins.getD k {}).av.getD v 0) % 65536 = 0 →
    ∃ t, exec (.tcredit q) s = .next t
      ∧ { t with alm := s.alm, twins := s.twins, ports := s.ports } = s
      ∧ counted s t (0xB300 + 16 * k) 0x0A 1
      ∧ (t.port l).uv = (s.port l).uv
      ∧ (t.port l).ctrlIn = (s.port l).ctrlIn.drop 1
      ∧ t.twins = s.twins
      ∧ OtherPorts [l.val] s t)
  ∧ (∀ (s : State) (q : PortId) (l : Nat) (c : Instr) (ctype : Nat) (x : CtrlIn),
    c = .tcredit q ∧ ctype = 8 ∨ c = .tout q ∧ ctype = 9 →
    l = logical s q → s.elab_.portBuilt q = true → ctrlHead s l ctype = some x → pairOf s l = none →
    exec c s = .next ((s.modPort l fun p => { p with ctrlIn := p.ctrlIn.drop 1 }).pbump 0x5001 l 0x11 1))
  ∧ (∀ (s : State) (q : PortId) (c : Instr) (ctype : Nat),
    c = .tcredit q ∧ ctype = 8 ∨ c = .tout q ∧ ctype = 9 →
    s.elab_.portBuilt q = true → ctrlHead s (logical s q) ctype = none →
    exec c s = .next s)
  ∧ (∀ (s : State) (q l u : PortId) (k : Nat) (c : CtrlIn), s.Inv → s.elab_.portBuilt q = true → logical s q = l →
    ctrlHead s l 9 = some c → pairOf s l = some k → pairOf s u = some k → (c.cell.extractLsb' 8 4).toNat = u.val →
    (roleOf s k u).merged = true → siblingMerged s u = true →
    ∃ t, exec (.tout q) s = .next t
      ∧ { t with alm := s.alm, evtOut := s.evtOut, irqs := s.irqs, ring := s.ring, svc := s.svc, twins := s.twins,
                  trace := s.trace, ports := s.ports } = s
      ∧ (t.port u).state ∈ [.train, .detect, .fault]
      ∧ roleOf { s with twins := t.twins } k u = .out
      ∧ (t.port l).ctrlIn = (s.port l).ctrlIn.drop 1
      ∧ OtherPorts [l.val, u.val] s t)
  ∧ (∀ (s : State) (q l : PortId) (u k : Nat) (c : CtrlIn), s.Inv → s.elab_.portBuilt q = true → logical s q = l →
    ctrlHead s l 9 = some c → pairOf s l = some k → (c.cell.extractLsb' 8 4).toNat = u →
    (pairOf s u = some k ∧ roleOf s k u = .out) ∨ (u ≠ pairA s k ∧ u ≠ pairB s k) →
    exec (.tout q) s = .next (dropCtrl s l))
  ∧ (∀ (s : State) (q : PortId) (k : Nat), s.Inv → s.elab_.portBuilt q = true → (s.port q).state = .active →
    pairOf s q = some k → siblingMerged s q = true → outranked s q 5 = false → (s.port q).pllPark = false →
    ∃ t, exec (.retrainReq q) s = .next t
      ∧ { t with alm := s.alm, evtOut := s.evtOut, irqs := s.irqs, ring := s.ring, svc := s.svc, twins := s.twins,
                  trace := s.trace, ports := s.ports } = s
      ∧ (t.port q).state ∈ [.train, .detect, .fault]
      ∧ roleOf { s with twins := t.twins } k q = .out
      ∧ counted s t (0x5001 + 256 * logical s q) 0x12 1
      ∧ OtherPorts [q.val] s t)
  ∧ (∀ (s : State) (k : PairId) (unitB : Bool), s.Inv → s.elab_.twin = true → pairValid s k = true →
    roleOf s k (unitPort s k unitB) = .out → s.get (0xB300 + 16 * k) 0x09 10000000 ≠ 0 →
    ∃ t, exec (.twinOutNotice k unitB) s = .next t
      ∧ ((∃ r ∈ t.svc, r.open_ = true ∧ r.reason = 0x21 ∧ r.ukind = 7 ∧ r.unit_ = k.val)
          ∨ counted s t 0x0100 0x04 1)
      ∧ { t with svc := s.svc, alm := s.alm, evtOut := s.evtOut, ring := s.ring, irqs := s.irqs } = s)
  ∧ (∀ (s : State) (k : PairId) (unitB : Bool), s.elab_.twin = true →
    roleOf s k (unitPort s k unitB) ≠ .out ∨ s.get (0xB300 + 16 * k) 0x09 10000000 = 0 →
    exec (.twinOutNotice k unitB) s = .next s)
  ∧ (∀ (s : State) (k : PairId) (unitB : Bool), s.elab_.twin = true → pairValid s k = true →
    roleOf s k (unitPort s k unitB) = .catchup →
    exec (.bulkCopyDone k unitB true) s = .next
      (s.modPair k fun pr => if unitB then { pr with readyB := true } else { pr with readyA := true }))
  ∧ (∀ (s : State) (k : PairId) (unitB : Bool), s.Inv → s.elab_.twin = true → pairValid s k = true →
    roleOf s k (unitPort s k unitB) = .catchup → pairOf s (unitPort s k unitB) = some k.val →
    (svcSlot s.svc).isSome = true →
    ∃ t, exec (.bulkCopyDone k unitB false) s = .next t
      ∧ { t with alm := s.alm, evtOut := s.evtOut, irqs := s.irqs, ring := s.ring, svc := s.svc,
                  twins := s.twins } = s
      ∧ roleOf { s with twins := t.twins } k (unitPort s k unitB) = .out
      ∧ Recorded t 0x20 7 k.val (unitPort s k unitB)
      ∧ t.ports = s.ports)
  ∧ (∀ (s : State) (k : PairId) (unitB : Bool), s.Inv → s.elab_.twin = true → pairValid s k = true →
    roleOf s k (unitPort s k unitB) = .catchup → copyReady s k unitB = true →
    siblingMerged s (unitPort s k unitB) = true → pairOf s (unitPort s k unitB) = some k.val →
    ∃ t, exec (.twinJoin k unitB) s = .next t
      ∧ t.twins = setAt k
          (if pairA s k = unitPort s k unitB then
            { s.twins.getD k {} with
                readyA := if unitB then (s.twins.getD k {}).readyA else false,
                readyB := if unitB then false else (s.twins.getD k {}).readyB,
                roleA := .standby, window := some (s.now + 16) }
           else
            { s.twins.getD k {} with
                readyA := if unitB then (s.twins.getD k {}).readyA else false,
                readyB := if unitB then false else (s.twins.getD k {}).readyB,
                roleB := .standby, window := some (s.now + 16) }) s.twins
      ∧ counted s t (0xB300 + 16 * k) 0x08 1
      ∧ { t with twins := s.twins, alm := s.alm } = s)
  ∧ (∀ (s : State) (k : PairId) (unitB : Bool), s.elab_.twin = true → pairValid s k = true →
    roleOf s k (unitPort s k unitB) = .catchup → copyReady s k unitB = true →
    siblingMerged s (unitPort s k unitB) = false →
    exec (.twinJoin k unitB) s = .next
      (s.modPair k fun pr => if unitB then { pr with readyB := false } else { pr with readyA := false }))
  ∧ (∀ (s : State) (k : PairId), s.elab_.twin = true → pairValid s k = true → (s.twins.getD k {}).window ≠ none →
    exec (.dualActionEnd k) s = .next
      ((s.modPair k fun pr => { pr with window := none }).modPort (pairA s k)
        fun p => { p with ctrlOut := tcreditCells s k ++ p.ctrlOut }))
  ∧ (∀ (s : State) (k : PairId) (unitB aligned : Bool) (c : Instr), s.elab_.twin = true →
    pairValid s k = false ∨ roleOf s k (unitPort s k unitB) ≠ .catchup ∧ (s.twins.getD k {}).window = none →
    c ∈ [Instr.bulkCopyDone k unitB aligned, .twinJoin k unitB, .dualActionEnd k] →
    exec c s = .next s)
  ∧ (∀ (s : State) (q : PortId) (k : Nat) (m : ParamMsg), s.Inv → s.elab_.portBuilt q = true →
    (s.port q).state = .param → (s.port q).pllPark = false → (s.port q).param.partner = some m →
    (s.port q).param.commitAt ≠ none → (s.port q).param.commitRcvd = true →
    pairOf s q = some k → siblingMerged s q = true → activeUnit s q ≠ q →
    ∃ t, exec (.enterActive q) s = .next t
      ∧ { t with alm := s.alm, tabs := s.tabs, evtOut := s.evtOut, irqs := s.irqs, ring := s.ring, svc := s.svc,
                  twins := s.twins, trace := s.trace, ports := s.ports } = s
      ∧ (t.port q).state = .active
      ∧ (t.port q).mask = (s.port q).param.mask
      ∧ (t.port (logical s q)).gen = (s.port (logical s q)).gen
      ∧ roleOf { s with twins := t.twins } k q =
          (if bitAt (t.port q).feat 10 = true
              ∧ maskCount (s.port q).param.mask = maskCount (s.port (activeUnit s q)).mask
              ∧ m.die = (s.port (activeUnit s q)).partnerDie then .catchup else .out)
      ∧ OtherPorts [q.val, logical s q] s t)

/-- Field repair and containment. A failed row goes to a spare row while one is left; the corrected words and the
remap are counted and nothing else changes (R331). With no spare left the structure loses one bank, and a record opens
(R331): the replay depth, the hold buffer, the calendar capacity and the IFR staging fall by R332's figure, a larger
active calendar is to be emptied at the next boundary, a receive buffer asks for LINK_FULL with cause 6, a way of the
RLC is removed and its lines are owed to eviction, a way of the filter is removed and the entry that no longer fits is
recalled (R332). An uncorrectable word is contained (R333): a replay copy without a sibling's is to go out with its
CRC inverted, with a record, and changes nothing where both units of a pair hold it; a completion in a receive buffer
becomes TARGET_ERROR, and a request there ends with TARGET_ERROR toward its source; a CWB passing through goes on as
CEVC without its data; a reduction block is discarded; a held flit that was not yet handed over is marked lost; an RLC
line becomes Invalid, and a request that waits for a dirty one ends with TARGET_ERROR; one bad copy of the filter is
covered by the other, and with both gone a record and cause 5 stand and the region is recalled from every die of R333;
a calendar is to be emptied at the next boundary, with a record; a staged RID is ABORTED with STATUS TARGET_ERROR. -/
def Obligations.FieldRepair : Prop :=
  (∀ (s : State) (st : Structure) (unit words : Nat), s.Inv → unitExists s st unit = true →
    mgetD s.repair.used (repairKey (structCode st) unit) 0 < spareRows st →
    ∃ t, exec (.sramRowFailed st unit words) s = .next t
      ∧ t.repair = { s.repair with used := raise s.repair.used (repairKey (structCode st) unit) }
      ∧ counted64 s t 0xB200 0x02 words
      ∧ counted s t 0xB200 0x03 1
      ∧ { t with repair := s.repair, alm := s.alm } = s)
  ∧ (∀ (s : State) (st : Structure) (unit words : Nat), s.Inv → unitExists s st unit = true →
    spareRows st ≤ mgetD s.repair.used (repairKey (structCode st) unit) 0 →
    st = .replay ∨ st = .hold ∨ st = .calendar ∨ st = .staging →
    ∃ t, exec (.sramRowFailed st unit words) s = .next t
      ∧ { t with alm := s.alm, evtOut := s.evtOut, irqs := s.irqs, ring := s.ring, svc := s.svc, ifr := s.ifr,
                  repair := s.repair } = s
      ∧ banksGone t (structCode st) unit = banksGone s (structCode st) unit + 1
      ∧ counted64 s t 0xB200 0x02 words
      ∧ ((∃ r ∈ t.svc, r.open_ = true ∧ r.reason = 0x30 ∧ r.ukind = 6 ∧ r.unit_ = structCode st)
          ∨ counted s t 0x0100 0x04 1)
      ∧ (st = .replay → replayLimit t unit = replayLimit s unit - Config.replayDepth unit / 16)
      ∧ (st = .hold → holdSize t unit = holdSize s unit - s.elab_.holdFlits unit / 16)
      ∧ (st = .calendar → calCapacity t unit = calCapacity s unit - 256
          ∧ (calCapacity s unit - 256 < (s.port unit).cal.length → unit ∈ t.repair.emptyCal))
      ∧ (st = .staging → stagingTotal t = stagingTotal s - 128)
      ∧ t.ports = s.ports)
  ∧ (∀ (s : State) (q : PortId) (words : Nat), s.Inv → s.elab_.portBuilt q = true → pairOf s q = none →
    spareRows .receive ≤ mgetD s.repair.used (repairKey 2 q) 0 → (s.port q).state = .active →
    outranked s q 4 = false → (s.port q).pllPark = false →
    ∃ t, exec (.sramRowFailed .receive q words) s = .next t
      ∧ { t with alm := s.alm, evtOut := s.evtOut, irqs := s.irqs, ring := s.ring, svc := s.svc, twins := s.twins,
                  repair := s.repair, trace := s.trace, ports := s.ports } = s
      ∧ banksGone t 2 q = banksGone s 2 q + 1
      ∧ (t.port q).state ∈ [.train, .detect, .fault]
      ∧ t.get (0x5002 + 256 * q) 0x05 0 = 6
      ∧ OtherPorts [q.val] s t)
  ∧ (∀ (s : State) (unit words : Nat), s.Inv → unitExists s .rlc unit = true →
    spareRows .rlc ≤ mgetD s.repair.used (repairKey 4 unit) 0 →
    ∃ t, exec (.sramRowFailed .rlc unit words) s = .next t
      ∧ { t with alm := s.alm, evtOut := s.evtOut, irqs := s.irqs, ring := s.ring, svc := s.svc, rlc := s.rlc,
                  repair := s.repair } = s
      ∧ waysRemoved t = waysRemoved s ||| 2 ^ unit
      ∧ unit ∉ waysEnabled t
      ∧ t.rlc.lines = s.rlc.lines
      ∧ ∀ x ∈ s.rlc.lines, x.2.way = unit → BitVec.ofNat 51 x.1 ∈ t.rlc.owed)
  ∧ (∀ (s : State) (words : Nat) (e : FilterEntry) (h : Holder), s.Inv →
    spareRows .filter ≤ mgetD s.repair.used (repairKey 5 0) 0 →
    filterWays s = 1 → s.home.track = [] → s.home.filter = [e] → e.holders = [h] →
    ∃ t x, exec (.sramRowFailed .filter 0 words) s = .next t
      ∧ { t with alm := s.alm, evtOut := s.evtOut, irqs := s.irqs, ring := s.ring, svc := s.svc, ownQ := s.ownQ,
                  seqNo := s.seqNo, home := s.home, repair := s.repair, ports := s.ports } = s
      ∧ filterWays t = 0
      ∧ t.home.track = [x] ∧ x.kind = .recall ∧ x.rla = e.la ∧ x.region = e.region ∧ x.awaiting = [h])
  ∧ (∀ (s : State) (q : PortId) (i : Nat) (f : Flit), s.Inv → s.elab_.portBuilt q = true → pairOf s q = none →
    (s.port q).replay[i]? = some f →
    ∃ t, exec (.uncorrectableError (.replay q i)) s = .next t
      ∧ { t with alm := s.alm, evtOut := s.evtOut, irqs := s.irqs, ring := s.ring, svc := s.svc,
                  ports := s.ports } = s
      ∧ (t.port q).replayLost = (s.port q).replayLost ++ [f.fseq]
      ∧ (t.port q).replay = (s.port q).replay
      ∧ ((∃ r ∈ t.svc, r.open_ = true ∧ r.reason = 0x15 ∧ r.unit_ = q.val) ∨ counted s t 0x0100 0x04 1)
      ∧ OtherPorts [q.val] s t)
  ∧ (∀ (s : State) (q : PortId) (i k : Nat), s.elab_.portBuilt q = true → pairOf s q = some k →
    (roleOf s k (pairA s k)).merged = true → (roleOf s k (pairB s k)).merged = true →
    exec (.uncorrectableError (.replay q i)) s = .next s)
  ∧ (∀ (s : State) (q l : PortId) (i : Nat) (w : Waiting), s.Inv → s.elab_.portBuilt q = true → logical s q = l →
    atPlace s (.rx q i) = some w → w.txn.opc = 0x80 →
    ∃ t, exec (.uncorrectableError (.receive q i)) s = .next t
      ∧ { t with ports := s.ports } = s
      ∧ (t.port l).rx = setAt i { w with txn := { withStatus w.txn 0x18 with opc := 0x80 } } (s.port l).rx
      ∧ OtherPorts [l.val] s t)
  ∧ (∀ (s : State) (q l h : PortId) (i : Nat) (w : Waiting) (ports : List Nat), s.Inv → s.elab_.portBuilt q = true →
    logical s q = l → atPlace s (.rx q i) = some w → isMem w.txn.opc = true →
    destOf s (mkCpl w.txn 0x18 0 []) = .via ports → logical s (ports.headD 0) = h →
    ∃ t x, exec (.uncorrectableError (.receive q i)) s = .next t
      ∧ { t with counts := s.counts, seqNo := s.seqNo, ports := s.ports } = s
      ∧ (t.port l).rx = dropAt i (s.port l).rx
      ∧ (t.port h).waitq = (s.port h).waitq ++ [x]
      ∧ x.txn = mkCpl w.txn 0x18 0 []
      ∧ OtherPorts [l.val, h.val] s t)
  ∧ (∀ (s : State) (q l : PortId) (i : Nat) (w w' : Waiting), s.Inv → s.elab_.portBuilt q = true → logical s q = l →
    atPlace s (.rx q i) = some w → w.txn.opc = 0x44 → w.txn.cdata = true → destOf s w.txn ≠ .self →
    ∃ t, exec (.uncorrectableError (.receive q i)) s = .next t
      ∧ (w' = { w with txn := { w.txn with opc := 0x45,
                                           head := .coh 0 false false w.txn.stale false (BitVec.ofNat 4 w.txn.ackcnt) w.txn.la,
                                           data := [] } } →
          (t.port l).rx = setAt i w' (s.port l).rx)
      ∧ { t with ports := s.ports } = s
      ∧ OtherPorts [l.val] s t)
  ∧ (∀ (s : State) (q l : PortId) (i : Nat) (w : Waiting), s.Inv → s.elab_.portBuilt q = true → logical s q = l →
    atPlace s (.rx q i) = some w → isRed w.txn.opc = true →
    ∃ t, exec (.uncorrectableError (.receive q i)) s = .next t
      ∧ (t.port l).rx = dropAt i (s.port l).rx
      ∧ { t with ports := s.ports } = s
      ∧ OtherPorts [l.val] s t)
  ∧ (∀ (s : State) (q l : PortId) (i : Nat) (h : Held), s.Inv → s.elab_.portBuilt q = true → logical s q = l →
    (s.port l).hold[i]? = some h → h.handed = false →
    ∃ t, exec (.uncorrectableError (.hold q i)) s = .next t
      ∧ (t.port l).hold = setAt i { h with lost := true } (s.port l).hold
      ∧ { t with ports := s.ports } = s
      ∧ OtherPorts [l.val] s t)
  ∧ (∀ (s : State) (la : LineAddr) (ln : RlcLine) (waiting : Bool), s.elab_.rlcKib ≠ 0 → rlcLine s la = some ln →
    outstanding s la = false → waiting = false ∨ ln.st.dirty = false →
    exec (.uncorrectableError (.rlc la waiting)) s
      = .next { s with rlc := { s.rlc with lines := mdel s.rlc.lines la.toNat } })
  ∧ (∀ (s : State) (la : LineAddr) (ln : RlcLine) (k : Nat) (w : Waiting), s.elab_.rlcKib ≠ 0 →
    rlcLine s la = some ln → outstanding s la = false → ln.st.dirty = true → readerOf s la = some k →
    atPlace s (.ifi .req k) = some w →
    ∃ t, exec (.uncorrectableError (.rlc la true)) s = .next t
      ∧ { t with counts := s.counts, ingress := s.ingress, egress := s.egress, icr := s.icr, ord := s.ord,
                  rlc := s.rlc, out := s.out } = s
      ∧ t.rlc = { s.rlc with lines := mdel s.rlc.lines la.toNat }
      ∧ t.egress = s.egress ++ [ownCpl w 0x18 0 []]
      ∧ t.ingress.length + 1 = s.ingress.length)
  ∧ (∀ (s : State) (la : LineAddr), exec (.uncorrectableError (.filter la false)) s = .next s)
  ∧ (∀ (s : State) (la : LineAddr), s.Inv → s.home.track = [] → lostTargets s (filterSet s la) ≠ [] →
    ∃ t x, exec (.uncorrectableError (.filter la true)) s = .next t
      ∧ { t with alm := s.alm, evtOut := s.evtOut, irqs := s.irqs, ring := s.ring, svc := s.svc, ownQ := s.ownQ,
                  seqNo := s.seqNo, home := s.home, ports := s.ports } = s
      ∧ t.home.track = [x] ∧ x.kind = .recall ∧ x.region = true ∧ x.rla = regionOf la
      ∧ x.awaiting = lostTargets s (filterSet s la)
      ∧ causeSet t 5
      ∧ ((svcSlot s.svc).isSome = true → Recorded t 0x31 6 5 0))
  ∧ (∀ (s : State) (q l : PortId) (slot : SlotId) (r : Nat), s.Inv → s.elab_.portBuilt q = true → logical s q = l →
    (s.port l).cal[slot.toNat]? = some r →
    calKind r = 0 ∧ assignedTo s l slot s.sch.epoch = none ∨ calKind r ≠ 0 ∧ handedTo s l slot s.sch.epoch = none →
    ∃ t, exec (.uncorrectableError (.calendar q slot)) s = .next t
      ∧ { t with alm := s.alm, evtOut := s.evtOut, irqs := s.irqs, ring := s.ring, svc := s.svc,
                  repair := s.repair } = s
      ∧ l.val ∈ t.repair.emptyCal
      ∧ ((∃ r ∈ t.svc, r.open_ = true ∧ r.reason = 0x32 ∧ r.unit_ = q.val) ∨ counted s t 0x0100 0x04 1)
      ∧ t.ports = s.ports)
  ∧ (∀ (s : State) (rid : Rid), s.elab_.ifr ≠ 0 →
    ∃ t r, exec (.uncorrectableError (.staging rid)) s = .next t
      ∧ { t with egress := s.egress, ifr := s.ifr } = s
      ∧ ridOf t rid = some r ∧ r.aborted = true ∧ r.staged = []
      ∧ (∀ o ∈ t.ifr.orphans, o.rid ≠ rid)
      ∧ PresentsRstat s t (((ridOf s rid).map (·.ten)).getD 0) 0 0x18 4 rid 0 {} (((ridOf s rid).map (·.eng)).getD 0))

/-- DIE_ALIAS rows are burnt once, with their reserved bits masked; a second write of a row, FROLE above 3, SROLE
other than 4, and a spare site that an earlier valid row names are refused with the range error (R328). A service
record is closed by its number, or all by 0xFF; another number is refused and changes no record (R336). -/
def Obligations.AliasAndRecords : Prop :=
  (∀ (s : State) (i : Fin 16) (v : BitVec 64), Writable s → aliasBad s i v.toNat = false →
    ∃ t, exec (.aliasRowWrite i v) s = .next t
      ∧ mget t.fuses.alias_ i = some
          (bitsOf v.toNat 0 3 + field (bitsOf v.toNat 8 6) 8 6 + field (bitsOf v.toNat 16 3) 16 3
            + field (bitsOf v.toNat 24 6) 24 6 + field (bitsOf v.toNat 32 9) 32 9)
      ∧ { t with fuses := s.fuses, trace := s.trace } = s)
  ∧ (∀ (s : State) (i : Fin 16) (v : BitVec 64), s.Inv → Writable s →
    (mget s.fuses.alias_ i).isSome = true ∨ 3 < (v.extractLsb' 0 3).toNat ∨ v.extractLsb' 16 3 ≠ 4
      ∨ (∃ j : Fin 16, j < i ∧ bitAt (mgetD s.fuses.alias_ j 0) 40 = true
          ∧ bitsOf (mgetD s.fuses.alias_ j 0) 16 3 = (v.extractLsb' 16 3).toNat
          ∧ bitsOf (mgetD s.fuses.alias_ j 0) 24 6 = (v.extractLsb' 24 6).toNat) →
    ∃ t, exec (.aliasRowWrite i v) s = .next t
      ∧ t.fuses = s.fuses
      ∧ counted s t 0x1000 0x05 1
      ∧ { t with alm := s.alm, trace := s.trace } = s)
  ∧ (∀ (s : State) (v : BitVec 8), Writable s → v.toNat < 32 →
    ∃ t, exec (.svcClose v) s = .next t
      ∧ t.svc = setAt v.toNat { s.svc.getD v.toNat {} with open_ := false } s.svc
      ∧ { t with svc := s.svc, trace := s.trace } = s)
  ∧ (∀ s : State, Writable s →
    ∃ t, exec (.svcClose 0xFF) s = .next t
      ∧ svcOpenCount t = 0
      ∧ t.svc.length = s.svc.length
      ∧ { t with svc := s.svc, trace := s.trace } = s)
  ∧ (∀ (s : State) (v : BitVec 8), s.Inv → Writable s → 32 ≤ v.toNat → v ≠ 0xFF →
    ∃ t, exec (.svcClose v) s = .next t
      ∧ counted s t 0x1000 0x05 1
      ∧ { t with alm := s.alm, trace := s.trace } = s)

/-- Hub and firewall ports. `fw_port_mode` is stored while the port is OFF, and a write that R346 or its class refuses
is counted and changes nothing (R346); `cap_compat_level` takes 0x40 to 0x42 (R344). A request at a firewall port
whose bucket holds its units takes them, raises the hits of its rule, and goes on toward the port of its route (R353,
R355, R356); while the bucket does not hold them it waits in its place (R356); one that no check admits ends with its
status and is counted, with the hits of a matching rule whose ACTION denies (R353, R355); behind one of its VC that
waits at a bucket nothing happens (R356). FIREWALL_ADMIT lets the waiting request go on once its bucket holds its
units, refuses it when the checks now do, and otherwise leaves it (R356, R361). Both losses of a UCIe PHY take an
ACTIVE port to HOLD, and change nothing on a port in another mode (R352). -/
def Obligations.FirewallPorts : Prop :=
  (∀ (s : State) (q : PortId) (mode : BitVec 8), s.Inv → Writable s → q.val < 8 → s.elab_.portBuilt q = true →
    (s.port q).state = .off → mode.toNat ≤ 2 → modeBad s q mode.toNat = false →
    ∃ t, exec (.fwPortMode q mode) s = .next t
      ∧ t.get (0xC200 + 16 * q) 0x01 0 = mode.toNat
      ∧ { t with alm := s.alm, trace := s.trace } = s)
  ∧ (∀ (s : State) (q : PortId) (mode : BitVec 8), s.Inv → Writable s →
    8 ≤ q.val ∨ s.elab_.portBuilt q = false ∨ (s.port q).state ≠ .off ∨ 2 < mode.toNat ∨ modeBad s q mode.toNat = true →
    ∃ t, exec (.fwPortMode q mode) s = .next t
      ∧ counted s t 0x1000 0x05 1
      ∧ OnlyEntries [(0x1000, 0x05)] s t
      ∧ { t with alm := s.alm } = s)
  ∧ (∀ (s : State) (level : BitVec 8), s.Inv → Writable s → 0x40 ≤ level.toNat → level.toNat ≤ 0x42 →
    ∃ t, exec (.capCompatLevel level) s = .next t
      ∧ t.get 0xC000 0x02 0x42 = level.toNat
      ∧ { t with alm := s.alm, trace := s.trace } = s)
  ∧ (∀ (s : State) (level : BitVec 8), s.Inv → Writable s → level.toNat < 0x40 ∨ 0x42 < level.toNat →
    ∃ t, exec (.capCompatLevel level) s = .next t
      ∧ counted s t 0x1000 0x05 1
      ∧ OnlyEntries [(0x1000, 0x05)] s t
      ∧ { t with alm := s.alm } = s)
  ∧ (∀ (s : State) (q l : PortId) (k i left r : Nat) (w : Waiting) (ports : List Nat) (c : Instr) (opc : Nat), s.Inv →
    (c, opc) ∈ memCmds (.rx q k) → logical s q = l → atPlace s (.rx q k) = some w → w.txn.opc.toNat = opc →
    w.step = 0 → inTurn s (.rx q k) w = true → isFwPort s q = true → behindBucket s q k w.vc = false →
    fwRule s q w.txn = some (i, r) → fwCheck s q w.txn = .pass i left → bitAt r 3 = false →
    destOf s w.txn = .via ports →
    ∃ t, exec c s = .next t
      ∧ atPlace t (.rx q k) = some { w with step := 9, route := ports }
      ∧ mgetD t.fw.bucket i 0 = left
      ∧ mgetD t.fw.hits i 0 = satAdd 64 (mgetD s.fw.hits i 0) 1
      ∧ { t with ports := s.ports, fw := s.fw } = s)
  ∧ (∀ (s : State) (q l : PortId) (k i j : Nat) (w : Waiting) (r : Nat) (c : Instr) (opc : Nat), s.Inv →
    (c, opc) ∈ memCmds (.rx q k) → logical s q = l → atPlace s (.rx q k) = some w → w.txn.opc.toNat = opc →
    w.step = 0 → inTurn s (.rx q k) w = true → isFwPort s q = true → behindBucket s q k w.vc = false →
    fwRule s q w.txn = some (i, r) → fwCheck s q w.txn = .wait j →
    ∃ t, exec c s = .next t
      ∧ atPlace t (.rx q k) = some { w with step := 10 }
      ∧ t.fw.bucket = s.fw.bucket
      ∧ mgetD t.fw.hits i 0 = satAdd 64 (mgetD s.fw.hits i 0) 1
      ∧ { t with ports := s.ports, fw := s.fw } = s)
  ∧ (∀ (s : State) (q l : PortId) (k : Nat) (w : Waiting) (st : BitVec 8) (c : Instr) (opc : Nat) (ports : List Nat),
    s.Inv → (c, opc) ∈ memCmds (.rx q k) → atPlace s (.rx q k) = some w → w.txn.opc.toNat = opc → w.step = 0 →
    inTurn s (.rx q k) w = true → isFwPort s q = true → behindBucket s q k w.vc = false →
    fwCheck s q w.txn = .deny st →
    destOf s (mkCpl w.txn st 0 []) = .via ports → logical s (ports.headD 0) = l →
    ∃ t x, exec c s = .next t
      ∧ { t with alm := s.alm, counts := s.counts, ownQ := s.ownQ, seqNo := s.seqNo, fw := s.fw,
                  ports := s.ports } = s
      ∧ OtherPorts [logical s q, l.val] s t
      ∧ OnlyEntries [(0xC002, 0x01)] s t
      ∧ counted64 s t 0xC002 0x01 1
      ∧ (t.port l).waitq = (s.port l).waitq ++ [x]
      ∧ x.txn = mkCpl w.txn st 0 []
      ∧ t.fw.bucket = s.fw.bucket
      ∧ (∀ i r, fwStatus s q w.txn = none → fwRule s q w.txn = some (i, r) →
          mgetD t.fw.hits i 0 = satAdd 64 (mgetD s.fw.hits i 0) 1)
      ∧ (fwStatus s q w.txn ≠ none ∨ fwRule s q w.txn = none → t.fw = s.fw))
  ∧ (∀ (s : State) (q : PortId) (k : Nat) (w : Waiting) (c : Instr) (opc : Nat), (c, opc) ∈ memCmds (.rx q k) →
    atPlace s (.rx q k) = some w → w.txn.opc.toNat = opc → w.step = 0 → isFwPort s q = true →
    behindBucket s q k w.vc = true →
    exec c s = .next s)
  ∧ (∀ (s : State) (q l : PortId) (k i left : Nat) (w : Waiting), s.Inv → s.elab_.portBuilt q = true →
    logical s q = l → atPlace s (.rx q k) = some w → w.step = 10 → behindBucket s q k w.vc = false →
    fwCheck s q w.txn = .pass i left →
    ∃ t, exec (.firewallAdmit q k) s = .next t
      ∧ atPlace t (.rx q k) = some { w with step := 11 }
      ∧ mgetD t.fw.bucket i 0 = left
      ∧ t.fw.hits = s.fw.hits
      ∧ { t with ports := s.ports, fw := s.fw } = s)
  ∧ (∀ (s : State) (q l : PortId) (k : Nat) (w : Waiting) (st : BitVec 8) (ports : List Nat), s.Inv →
    s.elab_.portBuilt q = true → atPlace s (.rx q k) = some w → w.step = 10 → behindBucket s q k w.vc = false →
    fwCheck s q w.txn = .deny st → isPosted w.txn.opc = false →
    destOf s (mkCpl w.txn st 0 []) = .via ports → logical s (ports.headD 0) = l →
    ∃ t x, exec (.firewallAdmit q k) s = .next t
      ∧ { t with alm := s.alm, counts := s.counts, ownQ := s.ownQ, seqNo := s.seqNo, ports := s.ports } = s
      ∧ OtherPorts [logical s q, l.val] s t
      ∧ OnlyEntries [(0xC002, 0x01)] s t
      ∧ counted64 s t 0xC002 0x01 1
      ∧ (t.port l).waitq = (s.port l).waitq ++ [x]
      ∧ x.txn = mkCpl w.txn st 0 []
      ∧ t.fw = s.fw)
  ∧ (∀ (s : State) (q : PortId) (k : Nat), s.elab_.portBuilt q = true →
    (∀ w ∈ atPlace s (.rx q k),
      w.step ≠ 10 ∨ behindBucket s q k w.vc = true ∨ ∃ i, fwCheck s q w.txn = .wait i) →
    exec (.firewallAdmit q k) s = .next s)
  ∧ (∀ (s : State) (q : PortId) (c : Instr), s.Inv → c = .ucieSidebandLoss q ∨ c = .ucieLinkerror q →
    s.elab_.portBuilt q = true → ucieMode s q = true → (s.port q).state = .active → pairOf s q = none →
    ∃ t, exec c s = .next t
      ∧ { t with alm := s.alm, evtOut := s.evtOut, irqs := s.irqs, ring := s.ring, svc := s.svc, twins := s.twins,
                  trace := s.trace, ports := s.ports } = s
      ∧ (t.port q).state = .hold
      ∧ OtherPorts [q.val] s t)
  ∧ (∀ (s : State) (q : PortId) (c : Instr), c = .ucieSidebandLoss q ∨ c = .ucieLinkerror q →
    s.elab_.portBuilt q = true → ucieMode s q = false →
    exec c s = .next s)

/-- The CFG window. Every access is to be acknowledged two AON cycles later (R41). Words 0x04, 0x0C and the data words
are stored while no command runs, the other words ignore a write, and while a command runs no word changes (R42, R43).
A write of OP that names no command starts nothing, and under a reset leaves RESET_ABORT (R42, R443). READ gives the
value, its length and OK (R366, R369); READ_SEG gives the first and each later segment of the snapshot, and with the
last one drops it (R371); WRITE_SEG takes the first segment and opens a transfer (R370); ABORT drops the transfer of
its path, counted, and with none open ends with OK (R43, R372). An index without an entry ends with NO_ENTRY (R366). A
command that names a BLOB or TABLE waits for the supervisor (R368); under a reset READ, WRITE and the segment commands
end with RESET_ABORT (R48). An open transfer that times out is dropped (R44). -/
def Obligations.CfgWindow : Prop :=
  (∀ (s : State) (op : BitVec 4), inReset s = false →
    exec (.cfgNoOperation op) s
      = .next { s with cfg := { s.cfg with acks := s.cfg.acks ++ [(s.now + 80, true)] } })
  ∧ (∀ (s : State) (op : BitVec 4), inReset s = true → s.held.porst = false → s.held.aonLost = false →
    exec (.cfgNoOperation op) s
      = .next { s with cfg := { s.cfg with status := 8, acks := s.cfg.acks ++ [(s.now + 80, true)] } })
  ∧ (∀ (s : State) (d : BitVec 32), s.held.porst = false → s.held.aonLost = false → s.cfg.busy = false →
    exec (.cfgWordWrite 1 d) s
        = .next { s with cfg := { s.cfg with index := d.extractLsb' 8 16, sub := d.extractLsb' 0 8,
                                             acks := s.cfg.acks ++ [(s.now + 80, false)] } }
      ∧ exec (.cfgWordWrite 3 d) s
        = .next { s with cfg := { s.cfg with segoff := d.extractLsb' 0 16, seglen := d.extractLsb' 16 6,
                                             acks := s.cfg.acks ++ [(s.now + 80, false)] } })
  ∧ (∀ (s : State) (word : BitVec 4) (d : BitVec 32), s.held.porst = false → s.held.aonLost = false →
    s.cfg.busy = false → 8 ≤ word.toNat →
    exec (.cfgWordWrite word d) s
      = .next { s with cfg := { s.cfg with data := setAt (word.toNat - 8) d s.cfg.data,
                                           acks := s.cfg.acks ++ [(s.now + 80, false)] } })
  ∧ (∀ (s : State) (word : BitVec 4) (d : BitVec 32), s.held.porst = false → s.held.aonLost = false →
    s.cfg.busy = true ∨ word ∈ [0, 2, 4, 5, 6, 7] →
    exec (.cfgWordWrite word d) s
      = .next { s with cfg := { s.cfg with acks := s.cfg.acks ++ [(s.now + 80, false)] } })
  ∧ (∀ (s : State) (e : Entry) (w : Nat), Writable s → s.cfg.busy = false →
    entryAt s s.cfg.index.toNat s.cfg.sub.toNat = some e → e.ty.width = some w → w ≤ 32 → e.acc ≠ .wo →
    s.cfg.index.toNat < 0xF000 →
    ∃ t, exec .cfgRead s = .next t
      ∧ t.cfg.status = 0 ∧ t.cfg.busy = false ∧ t.cfg.op = 0
      ∧ t.cfg.size = BitVec.ofNat 32 w
      ∧ t.cfg.data = cfgData s.cfg (toBytes w (scalarValue s e s.cfg.index.toNat s.cfg.sub.toNat))
      ∧ t.cfg.acks = s.cfg.acks ++ [(s.now + 80, true)]
      ∧ { t with cfg := s.cfg } = s)
  ∧ (∀ (s : State) (e : Entry) (v : List Byte), Writable s → s.cfg.busy = false → supReady s = true →
    entryAt s s.cfg.index.toNat s.cfg.sub.toNat = some e → e.ty = .table → e.acc ≠ .wo →
    s.cfg.index.toNat < 0xF000 → s.cfg.segoff = 0 → s.cfg.seglen = 32 →
    v = tableBytes s (locate s.cfg.index.toNat) s.cfg.sub.toNat → 32 < v.length →
    ∃ t, exec .cfgReadSeg s = .next t
      ∧ t.cfg.status = 0 ∧ t.cfg.busy = false
      ∧ t.cfg.size = BitVec.ofNat 32 v.length
      ∧ t.cfg.data = cfgData s.cfg (v.take 32)
      ∧ t.xfers = [(Path.cfg, { key := ekey s.cfg.index.toNat s.cfg.sub.toNat, write := false, bytes := v, next := 1 })]
      ∧ { t with cfg := s.cfg, xfers := s.xfers } = s)
  ∧ (∀ (s : State) (e : Entry) (x : Transfer) (n : Nat), inReset s = false → s.cfg.busy = false → supReady s = true →
    entryAt s s.cfg.index.toNat s.cfg.sub.toNat = some e → e.ty = .table → e.acc ≠ .wo →
    s.cfg.index.toNat < 0xF000 → s.xfers = [(Path.cfg, x)] → x.write = false →
    x.key = ekey s.cfg.index.toNat s.cfg.sub.toNat → n = s.cfg.segoff.toNat → 0 < n → s.cfg.seglen = 32 →
    32 * n < x.bytes.length →
    ∃ t, exec .cfgReadSeg s = .next t
      ∧ t.cfg.status = 0 ∧ t.cfg.busy = false
      ∧ t.cfg.size = BitVec.ofNat 32 x.bytes.length
      ∧ t.cfg.data = cfgData s.cfg ((x.bytes.drop (32 * n)).take 32)
      ∧ t.xfers = (if x.bytes.length ≤ 32 * n + 32 then [] else [(Path.cfg, { x with next := n + 1 })])
      ∧ { t with cfg := s.cfg, xfers := s.xfers } = s)
  ∧ (∀ (s : State) (e : Entry) (b : List Byte), Writable s → s.cfg.busy = false → supReady s = true →
    entryAt s s.cfg.index.toNat s.cfg.sub.toNat = some e → e.ty = .table →
    writeRefused s (some .cfg) s.cfg.index.toNat s.cfg.sub.toNat = none →
    s.cfg.segoff = 0 → s.cfg.seglen = 32 → b = cfgBytes s.cfg → b.length = 32 →
    32 < writeSize s e s.cfg.index.toNat s.cfg.sub.toNat b →
    ∃ t, exec .cfgWriteSeg s = .next t
      ∧ t.cfg.status = 0 ∧ t.cfg.busy = false
      ∧ t.xfers = [(Path.cfg, { key := ekey s.cfg.index.toNat s.cfg.sub.toNat, write := true, bytes := b, next := 1 })]
      ∧ { t with cfg := s.cfg, xfers := s.xfers } = s)
  ∧ (∀ (s : State) (x : Transfer), s.Inv → inReset s = false → s.cfg.busy = false → transferOf s .cfg = some x →
    ∃ t, exec .cfgAbort s = .next t
      ∧ t.cfg.status = 7
      ∧ t.xfers = s.xfers.filter (·.1 != Path.cfg)
      ∧ counted s t 0x1000 0x05 1
      ∧ { t with cfg := s.cfg, xfers := s.xfers, alm := s.alm } = s)
  ∧ (∀ s : State, inReset s = false → s.cfg.busy = false → transferOf s .cfg = none →
    ∃ t, exec .cfgAbort s = .next t ∧ t.cfg.status = 0 ∧ { t with cfg := s.cfg } = s)
  ∧ (∀ (s : State) (c : Instr), c ∈ [Instr.cfgRead, .cfgWrite, .cfgReadSeg, .cfgWriteSeg] → s.Inv → inReset s = false →
    s.cfg.busy = false → entryAt s s.cfg.index.toNat s.cfg.sub.toNat = none →
    ∃ t, exec c s = .next t ∧ t.cfg.status = 1 ∧ t.cfg.busy = false ∧ counted s t 0x1000 0x05 1
      ∧ { t with cfg := s.cfg, alm := s.alm } = s)
  ∧ (∀ (s : State) (c : Instr), c ∈ [Instr.cfgRead, .cfgWrite, .cfgReadSeg, .cfgWriteSeg] → s.Inv → inReset s = true →
    s.held.porst = false → s.held.aonLost = false →
    ∃ t, exec c s = .next t ∧ t.cfg.status = 8 ∧ t.cfg.busy = false ∧ counted s t 0x1000 0x05 1
      ∧ { t with cfg := s.cfg, alm := s.alm } = s)
  ∧ (∀ (s : State) (c : Instr) (op : Nat),
    (c, op) ∈ [(Instr.cfgRead, 1), (.cfgWrite, 2), (.cfgReadSeg, 3), (.cfgWriteSeg, 4)] → inReset s = false →
    s.cfg.busy = false → s.core = .running → supReady s = false →
    needsSup s op s.cfg.index.toNat s.cfg.sub.toNat = true →
    exec c s = .next { s with cfg := { s.cfg with busy := true, op := op, since := s.now,
                                                  acks := s.cfg.acks ++ [(s.now + 80, true)] } })
  ∧ (∀ (s : State) (path : Path),
    exec (.segmentTransferTimeout path) s = .next { s with xfers := s.xfers.filter (·.1 != path) })

/-- Almanac writes. A whole scalar value that passes the checks is in force and nothing else of the Almanac changes,
whether it came through the CFG window or on a path of its own (R363, R364, R369). A write to an index without an
entry, to a read-only entry, of a wrong size, or of a value outside its range is refused and counted, and changes
nothing else (R365, R366, R367); an empty one changes nothing (R369). Under a reset a write is counted as refused
(R48), and one that needs the supervisor starts CORE and waits for it (R368). -/
def Obligations.AlmanacWrites : Prop :=
  (∀ (s : State) (e : Entry) (idx : BitVec 16) (sub : BitVec 8) (bytes : List Byte), s.Inv → Writable s →
    PlainWrite s none e idx.toNat sub.toNat bytes →
    ∃ t, exec (.almanacWrite idx sub bytes) s = .next t
      ∧ t.get idx.toNat sub.toNat (dfltOf s e idx.toNat sub.toNat) = ofBytes bytes
      ∧ OnlyEntries [(idx.toNat, sub.toNat)] s t
      ∧ { t with alm := s.alm, trace := s.trace } = s)
  ∧ (∀ (s : State) (e : Entry), s.Inv → Writable s → s.cfg.busy = false → s.cfg.seglen.toNat ≤ 32 →
    PlainWrite s (some .cfg) e s.cfg.index.toNat s.cfg.sub.toNat ((cfgBytes s.cfg).take s.cfg.seglen.toNat) →
    ∃ t, exec .cfgWrite s = .next t
      ∧ t.cfg.status = 0 ∧ t.cfg.busy = false ∧ t.cfg.op = 0
      ∧ t.get s.cfg.index.toNat s.cfg.sub.toNat (dfltOf s e s.cfg.index.toNat s.cfg.sub.toNat)
          = ofBytes ((cfgBytes s.cfg).take s.cfg.seglen.toNat)
      ∧ OnlyEntries [(s.cfg.index.toNat, s.cfg.sub.toNat)] s t
      ∧ { t with cfg := s.cfg, alm := s.alm, trace := s.trace } = s)
  ∧ (∀ (s : State) (e : Entry) (idx : BitVec 16) (sub : BitVec 8) (bytes : List Byte), s.Inv → Writable s →
    entryAt s idx.toNat sub.toNat = some e → e.ty.width ≠ none → e.acc = .ro →
    ∃ t, exec (.almanacWrite idx sub bytes) s = .next t
      ∧ counted s t 0x1000 0x05 1
      ∧ OnlyEntries [(0x1000, 0x05)] s t
      ∧ { t with alm := s.alm } = s)
  ∧ (∀ (s : State) (idx : BitVec 16) (sub : BitVec 8) (bytes : List Byte), s.Inv → Writable s →
    entryAt s idx.toNat sub.toNat = none →
    ∃ t, exec (.almanacWrite idx sub bytes) s = .next t
      ∧ counted s t 0x1000 0x05 1
      ∧ OnlyEntries [(0x1000, 0x05)] s t
      ∧ { t with alm := s.alm } = s)
  ∧ (∀ (s : State) (e : Entry) (idx : BitVec 16) (sub : BitVec 8) (bytes : List Byte) (n : Nat), s.Inv → Writable s →
    entryAt s idx.toNat sub.toNat = some e → e.ty.width = some n → writeRefused s none idx.toNat sub.toNat = none →
    bytes ≠ [] → (bytes.length ≠ n ∨ inLegal e (ofBytes bytes) = false
      ∨ ownerRefuses s idx.toNat sub.toNat (ofBytes bytes) = true) →
    ∃ t, exec (.almanacWrite idx sub bytes) s = .next t
      ∧ counted s t 0x1000 0x05 1
      ∧ OnlyEntries [(0x1000, 0x05)] s t
      ∧ { t with alm := s.alm } = s)
  ∧ (∀ (s : State) (e : Entry) (idx : BitVec 16) (sub : BitVec 8), Writable s →
    entryAt s idx.toNat sub.toNat = some e → e.ty.width ≠ none → writeRefused s none idx.toNat sub.toNat = none →
    exec (.almanacWrite idx sub []) s = .next s)
  ∧ (∀ (s : State) (idx : BitVec 16) (sub : BitVec 8) (bytes : List Byte), s.Inv → inReset s = true →
    aonStopped s = false →
    ∃ t, exec (.almanacWrite idx sub bytes) s = .next t
      ∧ counted s t 0x1000 0x05 1
      ∧ { t with alm := s.alm } = s)
  ∧ (∀ (s : State) (idx : BitVec 16) (sub : BitVec 8) (bytes : List Byte), inReset s = false →
    needsSup s 2 idx.toNat sub.toNat = true → supReady s = false →
    exec (.almanacWrite idx sub bytes) s = .next (startCore s))

/-- Ring frames. A working agent forwards every frame, with its TTL lowered, or emptied from the TTL on when that is 0
(R377); a bad CRC is counted (R376), and so are an expired TTL (R377) and a good frame for this agent of a kind that
no rule serves (R375). An agent that does not work forwards nothing, and one on a powered AON joins (R382). An owed
NOTICE leaves with the interrupt status, at most once per 1 ms; otherwise nothing is sent (R381). -/
def Obligations.RingFrames : Prop :=
  (∀ (s : State) (frame : List Byte), ringOn s = true → frameGood frame = true → frameTtl frame ≠ 0 →
    frameForMe s (frameOf frame) = false ∨ (frameOf frame).fkind ∈ [1, 2, 3, 4, 5, 8, 9] →
    exec (.ringFrameForward frame) s
      = .next { s with out := s.out ++ [.ring (toBytes frame.length (ofBytes frame - 2 ^ 34))] })
  ∧ (∀ (s : State) (frame : List Byte), s.Inv → ringOn s = true → frameGood frame = true → frameTtl frame = 0 →
    frameForMe s (frameOf frame) = false ∨ (frameOf frame).fkind ∈ [1, 2, 3, 4, 5, 8, 9] →
    ∃ t, exec (.ringFrameForward frame) s = .next t
      ∧ t.out = s.out ++ [.ring (toBytes frame.length (ofBytes frame % 2 ^ 34))]
      ∧ counted s t 0x1003 0x03 1
      ∧ OnlyEntries [(0x1003, 0x03)] s t
      ∧ { t with out := s.out, alm := s.alm } = s)
  ∧ (∀ (s : State) (frame : List Byte), s.Inv → ringOn s = true → frameGood frame = false → frameTtl frame ≠ 0 →
    ∃ t, exec (.ringFrameForward frame) s = .next t
      ∧ t.out = s.out ++ [.ring (toBytes frame.length (ofBytes frame - 2 ^ 34))]
      ∧ counted s t 0x1003 0x02 1
      ∧ OnlyEntries [(0x1003, 0x02)] s t
      ∧ { t with out := s.out, alm := s.alm } = s)
  ∧ (∀ (s : State) (frame : List Byte), s.Inv → ringOn s = true → frameGood frame = false → frameTtl frame = 0 →
    ∃ t, exec (.ringFrameForward frame) s = .next t
      ∧ t.out = s.out ++ [.ring (toBytes frame.length (ofBytes frame % 2 ^ 34))]
      ∧ counted s t 0x1003 0x02 1
      ∧ counted s t 0x1003 0x03 1
      ∧ OnlyEntries [(0x1003, 0x02), (0x1003, 0x03)] s t
      ∧ { t with out := s.out, alm := s.alm } = s)
  ∧ (∀ (s : State) (frame : List Byte), s.Inv → ringOn s = true → frameGood frame = true → frameTtl frame ≠ 0 →
    frameForMe s (frameOf frame) = true → (frameOf frame).fkind ∈ [0, 6, 7, 10, 11, 12, 13, 14, 15] →
    ∃ t, exec (.ringFrameForward frame) s = .next t
      ∧ t.out = s.out ++ [.ring (toBytes frame.length (ofBytes frame - 2 ^ 34))]
      ∧ counted s t 0x1003 0x05 1
      ∧ OnlyEntries [(0x1003, 0x05)] s t
      ∧ { t with out := s.out, alm := s.alm } = s)
  ∧ (∀ (s : State) (frame : List Byte), ringOn s = false → exec (.ringFrameForward frame) s = .next s)
  ∧ (∀ s : State, s.held.porst = false → s.held.aonLost = false →
    exec .ringJoin s = .next { s with ring := { s.ring with joined := true } })
  ∧ (∀ s : State, s.held.porst = true ∨ s.held.aonLost = true → exec .ringJoin s = .next s)
  ∧ (∀ s : State, s.ring.noticeOwed = true → ringOn s = true →
    (s.ring.noticeAt = none ∨ ∃ c, s.ring.noticeAt = some c ∧ c + 1000000 ≤ s.now) →
    ∃ (t : State) (f : Frame), exec .notice s = .next t
      ∧ f.fkind = 9 ∧ f.dst = 0x1C0 ∧ f.src = siteAddress s ∧ f.index = 0x1001 ∧ f.sub = 1
      ∧ t.out = s.out ++ [.ring (mkFrame f (ringTtl s) (toBytes 4 (s.get 0x1001 0x01 0)))]
      ∧ t.ring = { s.ring with noticeOwed := false, noticeAt := some s.now }
      ∧ { t with out := s.out, ring := s.ring } = s)
  ∧ (∀ s : State, s.ring.noticeOwed = false ∨ ringOn s = false ∨ (∃ c, s.ring.noticeAt = some c ∧ s.now < c + 1000000) →
    exec .notice s = .next s)

/-- Requests on the ring. A fresh request, to this site or, for READ and WRITE, to all, is served as the CFG command
of its kind, its RESP waits to be sent, and it is counted (R378, R379); the answer is kept (R380). An equal request
within 1 ms gets the kept RESP and is not served again, and while the first has no answer nothing happens (R380); a
fifth waiting RESP is discarded and counted (R378). A frame that fails CRC, is for another site or is of another kind
is not served (R378), and a broadcast of a segmented kind or ABORT is counted and not served (R379). One that needs
the supervisor waits for it (R368). Under a reset a request ends with RESET_ABORT, ABORT with OK (R48). -/
def Obligations.RingRequests : Prop :=
  (∀ (s : State) (frame : List Byte) (f : Frame) (e : Entry) (w : Nat) (resp : List Byte), s.Inv → Writable s →
    FreshRequest s frame 1 →
    f = frameOf frame → entryAt s f.index f.sub = some e → e.ty.width = some w → e.acc ≠ .wo → f.index < 0xF000 →
    resp = respFrame s f { status := 0, size := some w, bytes := toBytes w (scalarValue s e f.index f.sub) } →
    ∃ t, exec (.ringRead frame) s = .next t
      ∧ t.ring.waiting = s.ring.waiting ++ [resp]
      ∧ (∃ x ∈ t.ring.kept, x.src = f.src ∧ x.request = requestKey frame ∧ x.response = resp ∧ x.at_ = s.now)
      ∧ counted64 s t 0x1003 0x06 1
      ∧ OnlyEntries [(0x1003, 0x06)] s t
      ∧ { t with ring := s.ring, alm := s.alm } = s)
  ∧ (∀ (s : State) (frame : List Byte) (f : Frame) (e : Entry), s.Inv → Writable s → FreshRequest s frame 2 →
    f = frameOf frame → f.len ≤ 32 → PlainWrite s (some .ring) e f.index f.sub ((framePayload frame).take f.len) →
    ∃ t, exec (.ringWrite frame) s = .next t
      ∧ t.get f.index f.sub (dfltOf s e f.index f.sub) = ofBytes ((framePayload frame).take f.len)
      ∧ t.ring.waiting = s.ring.waiting ++ [respFrame t f { status := 0 }]
      ∧ counted64 s t 0x1003 0x06 1
      ∧ OnlyEntries [(0x1003, 0x06), (f.index, f.sub)] s t
      ∧ { t with ring := s.ring, alm := s.alm, trace := s.trace } = s)
  ∧ (∀ (s : State) (frame : List Byte) (f : Frame) (e : Entry) (v : List Byte), s.Inv → Writable s →
    FreshRequest s frame 3 → supReady s = true → f = frameOf frame → entryAt s f.index f.sub = some e → e.ty = .table →
    e.acc ≠ .wo → f.index < 0xF000 → f.segoff = 0 → f.len = 32 → v = tableBytes s (locate f.index) f.sub →
    32 < v.length →
    ∃ t, exec (.ringReadSeg frame) s = .next t
      ∧ t.ring.waiting = s.ring.waiting ++ [respFrame s f { status := 0, size := some v.length, bytes := v.take 32 }]
      ∧ t.xfers = [(Path.ring, { key := ekey f.index f.sub, write := false, bytes := v, next := 1 })]
      ∧ counted64 s t 0x1003 0x06 1
      ∧ { t with ring := s.ring, alm := s.alm, xfers := s.xfers } = s)
  ∧ (∀ (s : State) (frame : List Byte) (f : Frame) (e : Entry), s.Inv → Writable s → FreshRequest s frame 4 →
    supReady s = true → f = frameOf frame → entryAt s f.index f.sub = some e → e.ty = .table →
    writeRefused s (some .ring) f.index f.sub = none → f.segoff = 0 → f.len = 32 →
    32 < writeSize s e f.index f.sub (framePayload frame) →
    ∃ t, exec (.ringWriteSeg frame) s = .next t
      ∧ t.ring.waiting = s.ring.waiting ++ [respFrame s f { status := 0 }]
      ∧ t.xfers = [(Path.ring, { key := ekey f.index f.sub, write := true, bytes := framePayload frame, next := 1 })]
      ∧ counted64 s t 0x1003 0x06 1
      ∧ { t with ring := s.ring, alm := s.alm, xfers := s.xfers } = s)
  ∧ (∀ (s : State) (frame : List Byte) (x : Transfer), s.Inv → FreshRequest s frame 5 → transferOf s .ring = some x →
    ∃ t, exec (.ringAbort frame) s = .next t
      ∧ { t with alm := s.alm, xfers := s.xfers, ring := s.ring } = s
      ∧ OnlyEntries [(0x1003, 0x06), (0x1000, 0x05)] s t
      ∧ t.ring.waiting = s.ring.waiting ++ [respFrame s (frameOf frame) { status := 7 }]
      ∧ t.xfers = s.xfers.filter (·.1 != Path.ring)
      ∧ counted64 s t 0x1003 0x06 1
      ∧ counted s t 0x1000 0x05 1)
  ∧ (∀ (s : State) (frame : List Byte) (c : Instr) (k : RingKept),
    (c, (frameOf frame).fkind) ∈ [(Instr.ringRead frame, 1), (.ringWrite frame, 2), (.ringReadSeg frame, 3),
      (.ringWriteSeg frame, 4), (.ringAbort frame, 5)] →
    ringOn s = true → s.held.refLost = false → frameGood frame = true → frameForMe s (frameOf frame) = true →
    (3 ≤ (frameOf frame).fkind → (frameOf frame).dst ≠ 0x1FF) →
    s.ring.kept.find? (fun k => k.src == (frameOf frame).src && k.request == requestKey frame
      && decide (s.now < k.at_ + 1000000)) = some k →
    k.response ≠ [] → s.ring.waiting.length < 4 →
    exec c s = .next { s with ring := { s.ring with waiting := s.ring.waiting ++ [k.response] } })
  ∧ (∀ (s : State) (frame : List Byte) (c : Instr) (k : RingKept),
    (c, (frameOf frame).fkind) ∈ [(Instr.ringRead frame, 1), (.ringWrite frame, 2), (.ringReadSeg frame, 3),
      (.ringWriteSeg frame, 4), (.ringAbort frame, 5)] →
    ringOn s = true → s.held.refLost = false → frameGood frame = true → frameForMe s (frameOf frame) = true →
    (3 ≤ (frameOf frame).fkind → (frameOf frame).dst ≠ 0x1FF) →
    s.ring.kept.find? (fun k => k.src == (frameOf frame).src && k.request == requestKey frame
      && decide (s.now < k.at_ + 1000000)) = some k →
    (k.response = [] → exec c s = .next s)
    ∧ (k.response ≠ [] → 4 ≤ s.ring.waiting.length → exec c s = .next (s.bump 0x1003 0x04 1)))
  ∧ (∀ (s : State) (frame : List Byte) (c : Instr) (n : Nat),
    (c, n) ∈ [(Instr.ringRead frame, 1), (.ringWrite frame, 2), (.ringReadSeg frame, 3), (.ringWriteSeg frame, 4),
      (.ringAbort frame, 5)] →
    ringOn s = false ∨ s.held.refLost = true ∨ frameGood frame = false ∨ (frameOf frame).fkind ≠ n
      ∨ frameForMe s (frameOf frame) = false →
    exec c s = .next s)
  ∧ (∀ (s : State) (frame : List Byte) (c : Instr), s.Inv →
    (c, (frameOf frame).fkind) ∈ [(Instr.ringReadSeg frame, 3), (.ringWriteSeg frame, 4), (.ringAbort frame, 5)] →
    ringOn s = true → s.held.refLost = false → frameGood frame = true → (frameOf frame).dst = 0x1FF →
    ∃ t, exec c s = .next t ∧ counted s t 0x1003 0x05 1 ∧ OnlyEntries [(0x1003, 0x05)] s t ∧ { t with alm := s.alm } = s)
  ∧ (∀ (s : State) (frame : List Byte) (c : Instr) (n : Nat),
    (c, n) ∈ [(Instr.ringRead frame, 1), (.ringWrite frame, 2), (.ringReadSeg frame, 3), (.ringWriteSeg frame, 4)] →
    FreshRequest s frame n → needsSup s n (frameOf frame).index (frameOf frame).sub = true → supReady s = false →
    ∃ t, exec c s = .next t
      ∧ t.ring.later = s.ring.later ++ [(s.now, frame)]
      ∧ t.ring.waiting = s.ring.waiting
      ∧ { t with ring := s.ring, core := s.core, coreAt := s.coreAt } = s)
  ∧ (∀ (s : State) (frame : List Byte) (c : Instr) (n : Nat), s.Inv →
    (c, n) ∈ [(Instr.ringRead frame, 1), (.ringWrite frame, 2), (.ringReadSeg frame, 3), (.ringWriteSeg frame, 4),
      (.ringAbort frame, 5)] →
    ringOn s = true → inReset s = true → s.held.refLost = false → frameGood frame = true → (frameOf frame).fkind = n →
    frameForMe s (frameOf frame) = true → (3 ≤ n → (frameOf frame).dst ≠ 0x1FF) →
    s.ring.kept.find? (fun k => k.src == (frameOf frame).src && k.request == requestKey frame
      && decide (s.now < k.at_ + 1000000)) = none →
    s.ring.waiting.length < 4 →
    ∃ t, exec c s = .next t
      ∧ t.ring.waiting = s.ring.waiting ++ [respFrame s (frameOf frame) { status := if n = 5 then 0 else 8 }]
      ∧ counted64 s t 0x1003 0x06 1
      ∧ (n ≠ 5 → counted s t 0x1000 0x05 1)
      ∧ { t with ring := s.ring, alm := s.alm } = s)

/-- Management transactions. At its target each is served as the CFG command of its kind when the target allows it, is
completed with STATUS OK whatever the status of the command, which stands in the first cell, and is counted; one that
the target does not allow ends with REMOTE_DENIED there (R383, R384). One that names a BLOB or TABLE waits for the
supervisor (R368). A request of the own die for another goes on toward it, one without a route or of a quiesced
tenancy is completed with that status, and one over a link for another die is forwarded; one served for another die is
completed toward it (R219, R384). -/
def Obligations.Management : Prop :=
  (∀ (s : State) (k : Nat) (w : Waiting) (e : Entry) (n i j a m : Nat), s.Inv → Writable s →
    AtHome s (.ifi .req k) w 0x70 → remoteDenied s 1 = false → mgmtFields w.txn = (i, j, a, m) →
    entryAt s i j = some e → e.ty.width = some n → e.acc ≠ .wo → i < 0xF000 →
    ∃ t, exec (.mrd (.ifi .req k)) s = .next t
      ∧ { t with alm := s.alm, counts := s.counts, ingress := s.ingress, egress := s.egress, icr := s.icr,
                  ord := s.ord, out := s.out } = s
      ∧ OnlyEntries [(0x1004, 0x01)] s t
      ∧ t.egress = s.egress ++ [ownCpl w 0 0
          (statusCell s.now { status := 0, size := some n, bytes := toBytes n (scalarValue s e i j) })]
      ∧ counted64 s t 0x1004 0x01 1)
  ∧ (∀ (s : State) (k : Nat) (w : Waiting) (e : Entry) (i j a m : Nat), s.Inv → Writable s →
    AtHome s (.ifi .req k) w 0x71 → remoteDenied s 2 = false → mgmtFields w.txn = (i, j, a, m) → a ≤ 32 →
    PlainWrite s (some .mgmt) e i j ((cellsToBytes a w.txn.data).take a) →
    ∃ t, exec (.mwr (.ifi .req k)) s = .next t
      ∧ { t with alm := s.alm, counts := s.counts, ingress := s.ingress, egress := s.egress, icr := s.icr,
                  ord := s.ord, trace := s.trace, out := s.out } = s
      ∧ t.get i j (dfltOf s e i j) = ofBytes ((cellsToBytes a w.txn.data).take a)
      ∧ t.egress = s.egress ++ [ownCpl w 0 0 (statusCell s.now { status := 0 })]
      ∧ counted64 s t 0x1004 0x01 1)
  ∧ (∀ (s : State) (k : Nat) (w : Waiting) (e : Entry) (v : List Byte) (i j : Nat), s.Inv → Writable s →
    AtHome s (.ifi .req k) w 0x72 → remoteDenied s 3 = false → supReady s = true → mgmtFields w.txn = (i, j, 32, 0) →
    entryAt s i j = some e → e.ty = .table → e.acc ≠ .wo → i < 0xF000 → v = tableBytes s (locate i) j → 32 < v.length →
    ∃ t, exec (.mrds (.ifi .req k)) s = .next t
      ∧ { t with alm := s.alm, counts := s.counts, ingress := s.ingress, egress := s.egress, icr := s.icr,
                  xfers := s.xfers, ord := s.ord, out := s.out } = s
      ∧ OnlyEntries [(0x1004, 0x01)] s t
      ∧ t.xfers = [(Path.mgmt, { key := ekey i j, write := false, bytes := v, next := 1 })]
      ∧ t.egress = s.egress ++ [ownCpl w 0 0 (statusCell s.now { status := 0, size := some v.length, bytes := v.take 32 })]
      ∧ counted64 s t 0x1004 0x01 1)
  ∧ (∀ (s : State) (k : Nat) (w : Waiting) (e : Entry) (b : List Byte) (i j : Nat), s.Inv → Writable s →
    AtHome s (.ifi .req k) w 0x73 → remoteDenied s 4 = false → supReady s = true → mgmtFields w.txn = (i, j, 32, 0) →
    entryAt s i j = some e → e.ty = .table → writeRefused s (some .mgmt) i j = none →
    b = cellsToBytes 32 w.txn.data → b.length = 32 → 32 < writeSize s e i j b →
    ∃ t, exec (.mwrs (.ifi .req k)) s = .next t
      ∧ { t with alm := s.alm, counts := s.counts, ingress := s.ingress, egress := s.egress, icr := s.icr,
                  xfers := s.xfers, ord := s.ord, out := s.out } = s
      ∧ OnlyEntries [(0x1004, 0x01)] s t
      ∧ t.xfers = [(Path.mgmt, { key := ekey i j, write := true, bytes := b, next := 1 })]
      ∧ t.egress = s.egress ++ [ownCpl w 0 0 (statusCell s.now { status := 0 })]
      ∧ counted64 s t 0x1004 0x01 1)
  ∧ (∀ (s : State) (k : Nat) (w : Waiting) (x : Transfer), s.Inv → AtHome s (.ifi .req k) w 0x74 →
    remoteDenied s 5 = false → transferOf s .mgmt = some x →
    ∃ t, exec (.mabt (.ifi .req k)) s = .next t
      ∧ { t with alm := s.alm, counts := s.counts, ingress := s.ingress, egress := s.egress, icr := s.icr,
                  xfers := s.xfers, ord := s.ord, out := s.out } = s
      ∧ OnlyEntries [(0x1004, 0x01), (0x1000, 0x05)] s t
      ∧ t.xfers = s.xfers.filter (·.1 != Path.mgmt)
      ∧ t.egress = s.egress ++ [ownCpl w 0 0 (statusCell s.now { status := 7 })]
      ∧ counted64 s t 0x1004 0x01 1
      ∧ counted s t 0x1000 0x05 1)
  ∧ (∀ (s : State) (k : Nat) (w : Waiting) (c : Instr) (op : Nat), s.Inv →
    (c, op) ∈ [(Instr.mrd (.ifi .req k), 1), (.mwr (.ifi .req k), 2), (.mrds (.ifi .req k), 3),
      (.mwrs (.ifi .req k), 4), (.mabt (.ifi .req k), 5)] →
    AtHome s (.ifi .req k) w (op + 0x6F) → remoteDenied s op = true → supReady s = true →
    ∃ t, exec c s = .next t
      ∧ { t with alm := s.alm, counts := s.counts, ingress := s.ingress, egress := s.egress, icr := s.icr,
                  ord := s.ord, out := s.out } = s
      ∧ OnlyEntries [(0x1004, 0x01), (0x1000, 0x05)] s t
      ∧ t.egress = s.egress ++ [ownCpl w 0 0 (statusCell s.now { status := 9 })]
      ∧ t.xfers = s.xfers
      ∧ counted64 s t 0x1004 0x01 1
      ∧ counted s t 0x1000 0x05 1)
  ∧ (∀ (s : State) (k : Nat) (w : Waiting) (c : Instr) (op i j a m : Nat),
    (c, op) ∈ [(Instr.mrd (.ifi .req k), 1), (.mwr (.ifi .req k), 2), (.mrds (.ifi .req k), 3),
      (.mwrs (.ifi .req k), 4)] →
    AtHome s (.ifi .req k) w (op + 0x6F) → mgmtFields w.txn = (i, j, a, m) → needsSup s op i j = true →
    supReady s = false →
    exec c s = .next (startCore s))
  ∧ (∀ (s : State) (k : Nat) (w : Waiting) (c : Instr) (op : Nat) (ports : List Nat),
    (c, op) ∈ [(Instr.mrd (.ifi .req k), 1), (.mwr (.ifi .req k), 2), (.mrds (.ifi .req k), 3),
      (.mwrs (.ifi .req k), 4), (.mabt (.ifi .req k), 5)] →
    Waits s (.ifi .req k) w (op + 0x6F) → quiesced s w.txn.ten = false → heldBack s w = false →
    destOf s w.txn = .via ports →
    exec c s = .next (putAt s (.ifi .req k) { w with step := 9, gpa := 0, route := ports }))
  ∧ (∀ (s : State) (k : Nat) (w : Waiting) (c : Instr) (op : Nat) (st : BitVec 8),
    (c, op) ∈ [(Instr.mrd (.ifi .req k), 1), (.mwr (.ifi .req k), 2), (.mrds (.ifi .req k), 3),
      (.mwrs (.ifi .req k), 4), (.mabt (.ifi .req k), 5)] →
    Waits s (.ifi .req k) w (op + 0x6F) →
    quiesced s w.txn.ten = true ∧ st = 4
      ∨ quiesced s w.txn.ten = false ∧ heldBack s w = false ∧ destOf s w.txn = .bad st →
    ∃ t, exec c s = .next t
      ∧ { t with counts := s.counts, ingress := s.ingress, egress := s.egress, icr := s.icr, ord := s.ord,
                  out := s.out } = s
      ∧ t.egress = s.egress ++ [ownCpl w st 0 []]
      ∧ t.xfers = s.xfers ∧ t.alm = s.alm)
  ∧ (∀ (s : State) (q : PortId) (k : Nat) (w : Waiting) (c : Instr) (op : Nat) (ports : List Nat),
    (c, op) ∈ [(Instr.mrd (.rx q k), 1), (.mwr (.rx q k), 2), (.mrds (.rx q k), 3), (.mwrs (.rx q k), 4),
      (.mabt (.rx q k), 5)] →
    Waits s (.rx q k) w (op + 0x6F) → destOf s w.txn = .via ports →
    exec c s = .next (putAt s (.rx q k) { w with step := 9, route := ports }))
  ∧ (∀ (s : State) (q l : PortId) (k : Nat) (w : Waiting) (c : Instr) (op : Nat) (ports : List Nat) (x : Txn), s.Inv →
    (c, op) ∈ [(Instr.mrd (.rx q k), 1), (.mwr (.rx q k), 2), (.mrds (.rx q k), 3), (.mwrs (.rx q k), 4),
      (.mabt (.rx q k), 5)] →
    Waits s (.rx q k) w (op + 0x6F) → destOf s w.txn = .self → remoteDenied s op = true → supReady s = true →
    x = mkCpl w.txn 0 0 (statusCell s.now { status := 9 }) → destOf s x = .via ports → logical s (ports.headD 0) = l →
    ∃ t y, exec c s = .next t
      ∧ { t with alm := s.alm, counts := s.counts, ownQ := s.ownQ, seqNo := s.seqNo, ports := s.ports } = s
      ∧ OtherPorts [logical s q, l.val] s t
      ∧ OnlyEntries [(0x1004, 0x01), (0x1000, 0x05)] s t
      ∧ (t.port l).waitq = (s.port l).waitq ++ [y] ∧ y.txn = x
      ∧ t.xfers = s.xfers
      ∧ counted64 s t 0x1004 0x01 1)

/-- The supervisor. A restart by command leaves it in RESTART, counted; so does the watchdog, which is counted besides
and raises cause 8, and it does nothing while the supervisor does not serve (R387, R394). Its start adopts the
verified bank, or runs ROM alone, and changes nothing else where every port is ACTIVE (R387); an attempt that the
outage abandoned begins again and TA does not rise (R385); the CFG command that waited for it runs then (R368). Once
it runs, or while a reset holds the adapter or CORE does not run, a start changes nothing. -/
def Obligations.SupervisorControl : Prop :=
  (∀ s : State, s.Inv → Writable s →
    ∃ t, exec .supRestart s = .next t
      ∧ t.sup = { s.sup with state := 3 }
      ∧ counted s t 0x1002 0x06 1
      ∧ { t with sup := s.sup, alm := s.alm, trace := s.trace } = s)
  ∧ (∀ s : State, s.Inv → supReady s = true →
    ∃ t, exec .watchdogExpiry s = .next t
      ∧ t.sup = { s.sup with state := 3 }
      ∧ counted s t 0x1002 0x06 1
      ∧ counted s t 0x1002 0x07 1
      ∧ causeSet t 8
      ∧ { t with sup := s.sup, alm := s.alm, evtOut := s.evtOut, ring := s.ring, irqs := s.irqs } = s)
  ∧ (∀ s : State, supReady s = false → exec .watchdogExpiry s = .next s)
  ∧ (∀ s : State, s.Inv → s.core = .running → inReset s = false → supRuns s = false → s.sup.bank = none →
    s.cfg.busy = false → s.ring.later = [] →
    ∃ t, exec .supStart s = .next t
      ∧ t.sup = { s.sup with state := 1, rev := 0, boot := false }
      ∧ ((∀ p ∈ s.ports, p.state = .active) → { t with sup := s.sup } = s))
  ∧ (∀ (s : State) (rev : Nat) (image : List Byte), s.Inv → s.core = .running → inReset s = false →
    supRuns s = false → s.sup.bank = some (rev, image) → s.cfg.busy = false → s.ring.later = [] →
    ∃ t, exec .supStart s = .next t
      ∧ t.sup = { s.sup with state := 2, rev := rev, patchStatus := 5, boot := false }
      ∧ ((∀ p ∈ s.ports, p.state = .active) → { t with sup := s.sup } = s))
  ∧ (∀ (s : State) (q : PortId), s.Inv → s.core = .running → inReset s = false → supRuns s = false →
    s.cfg.busy = false → s.ring.later = [] → (s.port q).state ∈ [.train, .align, .param] →
    ∃ t, exec .supStart s = .next t
      ∧ { t with alm := s.alm, evtOut := s.evtOut, irqs := s.irqs, sup := s.sup, ring := s.ring, svc := s.svc,
                  trace := s.trace, ports := s.ports } = s
      ∧ (t.port q).state = .train
      ∧ (t.port q).ta = (s.port q).ta
      ∧ (t.port q).ra = (s.port q).ra)
  ∧ (∀ (s : State) (u : State), s.Inv → s.core = .running → inReset s = false → supRuns s = false →
    s.sup.bank = none → s.cfg.busy = true → s.ring.later = [] → (∀ p ∈ s.ports, p.state = .active) →
    u = { s with sup := { s.sup with state := 1, rev := 0, boot := false } } →
    ∃ t, exec .supStart s = .next t
      ∧ t = cfgRun u s.cfg.op
      ∧ t.cfg.busy = false ∧ t.cfg.op = 0)
  ∧ (∀ s : State, supRuns s = true ∨ inReset s = true ∨ s.core ≠ .running → exec .supStart s = .next s)

/-- R388: irq_clear clears the cause bits written 1 and keeps the others, and a cause of the same AON cycle stays set.
-/
def Obligations.InterruptClear : Prop :=
  ∀ (s : State) (mask : BitVec 32), s.Inv → Writable s →
    ∃ t, exec (.irqClear mask) s = .next t
      ∧ (∀ c < 9, bitAt (t.get 0x1001 0x01 0) c
          = (bitAt (s.get 0x1001 0x01 0) c && (!mask.getLsbD c || causeNow s c)))
      ∧ OnlyEntries [(0x1001, 0x01)] s t
      ∧ { t with alm := s.alm, trace := s.trace } = s

/-- The test access port. Each instruction selects its register: IDCODE the identification, TESTSTAT the status,
STACKCFG SECEN, which exists on the base of a stack only, and every unlisted code BYPASS, which has none here (R409,
R410, R413, R417). Test-logic-reset selects IDCODE and clears SECEN (R409, R413). EXTEST drives the boundary register
at the bumps and captures them into it, and SAMPLE/PRELOAD loads and captures it (R411, R412). An instruction that
holds no port changes the test port alone where none was held, but for the start of CORE that MBIST needs (R412,
R416); it releases every port held before, which then leaves OFF where nothing else holds it, and ends the loopback
patterns (R412, R414). MBIST runs with DRST_N asserted and PORST_N released, and fails at once otherwise; its end
reports the first failing structure that was selected, and without a run changes nothing (R416, R417). -/
def Obligations.TestAccess : Prop :=
  (∀ s : State, ∃ t, exec .idcode s = .next t
      ∧ { t with alm := s.alm, evtOut := s.evtOut, twins := s.twins, tap := s.tap, trace := s.trace,
                  ports := s.ports } = s
      ∧ t.tap.instr = 0x01 ∧ tapRegister t = some (idcodeOf s, 32) ∧ t.tap.secen = s.tap.secen)
  ∧ (∀ (s : State) (code : BitVec 8), ∃ t, exec (.bypass code) s = .next t
      ∧ { t with alm := s.alm, evtOut := s.evtOut, twins := s.twins, tap := s.tap, trace := s.trace,
                  ports := s.ports } = s
      ∧ t.tap.instr = 0xFF ∧ tapRegister t = none ∧ t.tap.secen = s.tap.secen ∧ t.tap.boundary = s.tap.boundary)
  ∧ (∀ s : State, ∃ t, exec .testLogicReset s = .next t
      ∧ { t with alm := s.alm, evtOut := s.evtOut, twins := s.twins, tap := s.tap, trace := s.trace,
                  ports := s.ports } = s
      ∧ t.tap.instr = 0x01 ∧ tapRegister t = some (idcodeOf s, 32) ∧ t.tap.secen = false)
  ∧ (∀ (s : State) (v : Bool), ∃ t, exec (.stackcfg v) s = .next t
      ∧ { t with alm := s.alm, evtOut := s.evtOut, twins := s.twins, tap := s.tap, trace := s.trace,
                  ports := s.ports } = s
      ∧ t.tap.instr = 0x10 ∧ t.tap.secen = (s.elab_.stackBase && v) ∧ tapRegister t = some (b2n t.tap.secen, 1)
      ∧ t.tap.boundary = s.tap.boundary)
  ∧ (∀ s : State, ∃ t, exec .teststat s = .next t
      ∧ { t with alm := s.alm, evtOut := s.evtOut, twins := s.twins, tap := s.tap, trace := s.trace,
                  ports := s.ports } = s
      ∧ t.tap.instr = 0x0A ∧ tapRegister t = some (t.tap.stat, 32) ∧ t.tap.secen = s.tap.secen)
  ∧ (∀ (s : State) (d c : List Bool), ∃ t, exec (.extest d c) s = .next t
      ∧ { t with alm := s.alm, evtOut := s.evtOut, twins := s.twins, tap := s.tap, trace := s.trace,
                  ports := s.ports, out := s.out } = s
      ∧ t.tap.instr = 0x00
      ∧ t.tap.boundary = boundaryFit s d ∧ t.tap.captured = boundaryFit s c
      ∧ t.tap.boundary.length = 144 * sumNat s.elab_.bundles + 6
      ∧ t.out.getLast? = some (.bumps (boundaryFit s d)))
  ∧ (∀ (s : State) (d c : List Bool), ∃ t, exec (.samplePreload d c) s = .next t
      ∧ { t with alm := s.alm, evtOut := s.evtOut, twins := s.twins, tap := s.tap, trace := s.trace,
                  ports := s.ports } = s
      ∧ t.tap.instr = 0x02
      ∧ t.tap.boundary = boundaryFit s d ∧ t.tap.captured = boundaryFit s c
      ∧ t.out = s.out)
  ∧ (∀ (s : State) (c : Instr), s.Inv → c = .idcode ∨ c = .teststat ∨ c = .testLogicReset ∨ (∃ b, c = .bypass b)
      ∨ (∃ v, c = .stackcfg v) ∨ (∃ v, c = .mbist v ∧ s.core ≠ .stopped) ∨ (∃ d e, c = .samplePreload d e) →
    (∀ p ∈ s.ports, p.testHeld = false) →
    ∃ t, exec c s = .next t ∧ { t with tap := s.tap } = s)
  ∧ (∀ (s : State) (c : Instr) (q : PortId), s.Inv → c = .idcode ∨ c = .teststat ∨ c = .testLogicReset
      ∨ (∃ b, c = .bypass b) ∨ (∃ v, c = .stackcfg v) ∨ (∃ v, c = .mbist v) ∨ (∃ d e, c = .samplePreload d e) →
    ∃ t, exec c s = .next t
      ∧ { t with alm := s.alm, core := s.core, coreAt := s.coreAt, evtOut := s.evtOut, twins := s.twins,
                  tap := s.tap, trace := s.trace, ports := s.ports } = s
      ∧ (t.port q).testHeld = false
      ∧ bitAt t.tap.stat 0 = false
      ∧ ((s.port q).testHeld = true → (s.port q).state = .off → s.elab_.portBuilt q = true → (s.port q).supply = true →
          s.pget 0x5000 q 0x09 1 = 1 → s.strapRole.toNat < 6 → aliasState s ≠ 1 → inReset s = false →
          s.core = .running → supRuns s = true → (t.port q).state = .detect))
  ∧ (∀ (s : State) (sel : BitVec 8), s.held.porst = false → s.held.drst = true →
    ∃ t, exec (.mbist sel) s = .next t
      ∧ { t with alm := s.alm, core := s.core, coreAt := s.coreAt, evtOut := s.evtOut, twins := s.twins,
                  tap := s.tap, trace := s.trace, ports := s.ports } = s
      ∧ t.tap.instr = 0x09 ∧ t.tap.mbist = sel ∧ tapRegister t = some (sel.toNat, 8)
      ∧ bitAt t.tap.stat 2 = true ∧ bitAt t.tap.stat 3 = false ∧ bitsOf t.tap.stat 8 8 = 0
      ∧ (s.core = .stopped → s.held.refLost = false → s.held.aonLost = false → s.held.vddLost = false → t.core = .starting))
  ∧ (∀ (s : State) (sel : BitVec 8), s.held.porst = true ∨ s.held.drst = false →
    ∃ t, exec (.mbist sel) s = .next t
      ∧ { t with alm := s.alm, core := s.core, coreAt := s.coreAt, evtOut := s.evtOut, twins := s.twins,
                  tap := s.tap, trace := s.trace, ports := s.ports } = s ∧ t.tap.mbist = sel ∧ bitAt t.tap.stat 3 = true)
  ∧ (∀ (s : State) (failing bad : List (BitVec 8)), bitAt s.tap.stat 2 = true →
    bad = failing.filter (fun c => c != 0 && decide (c.toNat < 8) && s.tap.mbist.getLsbD c.toNat) →
    ∃ t, exec (.mbistDone failing) s = .next t
      ∧ bitAt t.tap.stat 2 = false
      ∧ bitAt t.tap.stat 3 = !bad.isEmpty
      ∧ bitsOf t.tap.stat 8 8 = (bad.headD 0).toNat
      ∧ { t with tap := s.tap } = s)
  ∧ (∀ (s : State) (failing : List (BitVec 8)), bitAt s.tap.stat 2 = false → exec (.mbistDone failing) s = .next s)

/-- Tests that hold ports. Under EXTEST every built wire port is held in OFF, under IXTEST every masked one, and the
patterns run while IXBUSY stands (R412, R414); they end with each wire's code and eye in its result row, each lane's
errors in `ixt_lane_errors`, and IXFAIL for a code of 1 to 5 or more than 1000 errors of a lane (R415); without a run
nothing ends. A wire that fails L2 has code 1; one that passes L1 to L5 has 5 or 6 by its eye, or 0 (R415). A fuse row
is burnt once, while the port is OFF, and a map that R420 refuses is counted and burns nothing (R420). -/
def Obligations.LoopbackTest : Prop :=
  (∀ (s : State) (d c : List Bool) (q : PortId), s.Inv → q.val < 8 → s.elab_.portBuilt q = true →
    (s.port q).testHeld = false →
    ∃ t, exec (.extest d c) s = .next t
      ∧ { t with alm := s.alm, evtOut := s.evtOut, twins := s.twins, tap := s.tap, trace := s.trace,
                  ports := s.ports, out := s.out } = s ∧ (t.port q).testHeld = true ∧ (t.port q).state = .off)
  ∧ (∀ (s : State) (control : BitVec 16) (q : PortId), s.Inv → s.elab_.portBuilt q = true → control.getLsbD q = true →
    (s.port q).testHeld = false →
    ∃ t, exec (.ixtest control) s = .next t
      ∧ { t with alm := s.alm, evtOut := s.evtOut, twins := s.twins, tap := s.tap, trace := s.trace,
                  ports := s.ports } = s
      ∧ t.tap.instr = 0x08 ∧ tapRegister t = some (control.toNat % 2 ^ 10, 16)
      ∧ (t.port q).testHeld = true ∧ (t.port q).state = .off
      ∧ bitAt t.tap.stat 0 = true ∧ bitAt t.tap.stat 1 = false)
  ∧ (∀ (s : State) (control : BitVec 16), (∀ q : PortId, control.getLsbD q = true → s.elab_.portBuilt q = false) →
    ∃ t, exec (.ixtest control) s = .next t
      ∧ { t with alm := s.alm, evtOut := s.evtOut, twins := s.twins, tap := s.tap, trace := s.trace,
                  ports := s.ports } = s
      ∧ t.tap.instr = 0x08 ∧ bitAt t.tap.stat 0 = false ∧ bitAt t.tap.stat 1 = false)
  ∧ (∀ s : State, bitAt s.tap.stat 0 = true →
    ∃ t, exec (.ixtestDone [] []) s = .next t
      ∧ bitAt t.tap.stat 0 = false ∧ bitAt t.tap.stat 1 = false
      ∧ { t with tap := s.tap } = s)
  ∧ (∀ (s : State) (ws : List WireObs) (ls : List LaneObs), bitAt s.tap.stat 0 = false →
    exec (.ixtestDone ws ls) s = .next s)
  ∧ (∀ (s : State) (w : WireObs) (row : List (BitVec 16)), s.Inv → bitAt s.tap.stat 0 = true → w.q.val ∈ ixPorts s →
    w.q.val < 8 → w.b.val < s.elab_.units w.q → w.wire < 72 → w.b.val < (s.port w.q).bundles.length →
    row = (if ((s.port w.q).bundles.getD w.b {}).ixt.isEmpty then List.replicate 72 0
      else ((s.port w.q).bundles.getD w.b {}).ixt) →
    ∃ t, exec (.ixtestDone [w] []) s = .next t
      ∧ { t with tap := s.tap, ports := s.ports } = s
      ∧ bitAt t.tap.stat 0 = false
      ∧ bitAt t.tap.stat 1 = (decide (1 ≤ ixCode s [w] w) && decide (ixCode s [w] w ≤ 5))
      ∧ ((t.port w.q).bundles.getD w.b {}).ixt
          = setAt w.wire (BitVec.ofNat 16 (ixCode s [w] w + field w.eye 8 8)) row
      ∧ OtherPorts [w.q.val] s t)
  ∧ (∀ (s : State) (l : LaneObs), s.Inv → bitAt s.tap.stat 0 = true → l.q.val ∈ ixPorts s → 8 ≤ l.q.val →
    l.l.val < s.elab_.units l.q → l.l.val < (s.port l.q).lanes.length →
    ∃ t, exec (.ixtestDone [] [l]) s = .next t
      ∧ { t with tap := s.tap, ports := s.ports } = s
      ∧ bitAt t.tap.stat 0 = false
      ∧ bitAt t.tap.stat 1 = decide (1000 < l.errors)
      ∧ ((t.port l.q).lanes.getD l.l {}).ixtErrors = min l.errors 0xFFFFFFFF
      ∧ OtherPorts [l.q.val] s t)
  ∧ (∀ (s : State) (w : WireObs), w.inL2 = false → ixCode s [w] w = 1)
  ∧ (∀ (s : State) (w : WireObs), w.inL2 = true → w.ownL3 = true → w.inL1 = false → w.ownL4 = false →
    w.otherL3 = false → w.otherL4 = true → w.parityL5 = false →
    ixCode s [w] w = (if w.eye < s.pget 0x3000 w.q 0x08 20 then 5 else if w.eye < s.pget 0x3000 w.q 0x07 28 then 6 else 0))
  ∧ (∀ (s : State) (q : PortId) (b : BundleId) (v : BitVec 32), Writable s → q.val < 8 → s.elab_.portBuilt q = true →
    b.val < s.elab_.units q → (s.port q).state = .off → fuseBad s q b v.toNat = false →
    ∃ t, exec (.ixtFuseWrite q b v) s = .next t
      ∧ t.fuses.mapWritten = s.fuses.mapWritten ++ [q.val * 16 + b.val]
      ∧ mget t.fuses.maps (q.val * 16 + b.val) = some v.toNat
      ∧ { t with fuses := s.fuses, trace := s.trace } = s)
  ∧ (∀ (s : State) (q : PortId) (b : BundleId) (v : BitVec 32), s.Inv → Writable s → q.val < 8 →
    (s.port q).state ≠ .off ∨ fuseBad s q b v.toNat = true →
    ∃ t, exec (.ixtFuseWrite q b v) s = .next t
      ∧ counted s t 0x1000 0x05 1
      ∧ { t with alm := s.alm } = s)

/-- Trace control. Arming in a mode other than OFF empties the buffer, enters ARMED when a START trigger is in use and
else RUNNING, and writes TSFULL first (R424, R426); a write of 0 stops (R426). A mark and the wrap of the timestamp
are events of an active trace on a running CORE, and of no other (R424). -/
def Obligations.TraceControl : Prop :=
  (∀ s : State, Writable s → traceMode s ≠ 0 →
    ∃ t, exec .traceArm s = .next t
      ∧ t.trace.state = (if (s.rows 0xE400 0x02).any (fun r => bitsOf r 8 2 == 2) then 1 else 2)
      ∧ t.trace.buf = [] ∧ t.trace.count = 0 ∧ t.trace.wptr = 0 ∧ t.trace.post = none ∧ t.trace.lostOwed = 0
      ∧ t.trace.queue = [traceRecord s.now 0 15 0 false 0 (BitVec.ofNat 64 s.now)]
      ∧ { t with trace := s.trace } = s)
  ∧ (∀ s : State, Writable s → traceMode s = 0 →
    ∃ t, exec .traceArm s = .next t
      ∧ t.trace.state = (if (s.rows 0xE400 0x02).any (fun r => bitsOf r 8 2 == 2) then 1 else 2)
      ∧ t.trace.buf = [] ∧ t.trace.count = 0 ∧ t.trace.queue = []
      ∧ { t with trace := s.trace } = s)
  ∧ (∀ s : State, Writable s →
    exec .traceStop s = .next { s with trace := { s.trace with state := 3, post := none } })
  ∧ (∀ (s : State) (v : BitVec 32), Writable s → s.trace.state = 1 ∨ s.trace.state = 2 ∨ s.trace.state = 4 →
    s.core = .running →
    ∃ t e, exec (.traceMark v) s = .next t
      ∧ { t with trace := s.trace } = s
      ∧ t.trace.events = s.trace.events ++ [⟨9, 15, 0, false, BitVec.ofNat 64 v.toNat⟩, e]
      ∧ e.kind = 7
      ∧ { t with trace := { t.trace with events := s.trace.events } } = s)
  ∧ (∀ (s : State) (v : BitVec 32), Writable s → s.trace.state = 0 ∨ s.trace.state = 3 ∨ s.core ≠ .running →
    exec (.traceMark v) s = .next s)
  ∧ (∀ s : State, s.trace.state = 1 ∨ s.trace.state = 2 ∨ s.trace.state = 4 → s.core = .running →
    exec .tsfull s = .next { s with trace := { s.trace with
      events := s.trace.events ++ [⟨0, 15, 0, false, BitVec.ofNat 64 s.now⟩] } })
  ∧ (∀ s : State, s.trace.state = 0 ∨ s.trace.state = 3 ∨ s.core ≠ .running → exec .tsfull s = .next s)

/-- The capture queue. In WRAP and FILL the oldest record goes to the write pointer, and FILL ends with the 4096th; in
STREAM it goes to the FIFO, or is lost and counted where that is full, and the oldest stored record goes out, one per
16 cc; a LOST record tells how many events were dropped; nothing moves with nothing waiting, or while CORE is stopped
(R427). -/
def Obligations.TraceDrain : Prop :=
  (∀ (s : State) (r : BitVec 128) (rest : List (BitVec 128)), s.core = .running → traceMode s = 1 →
    s.trace.queue = r :: rest → s.trace.lostOwed = 0 →
    exec .traceRecord s = .next { s with trace := { s.trace with
      queue := rest, buf := mset s.trace.buf s.trace.wptr r, wptr := (s.trace.wptr + 1) % 4096,
      count := min (s.trace.count + 1) 4096 } })
  ∧ (∀ (s : State) (r : BitVec 128) (rest : List (BitVec 128)), s.core = .running → traceMode s = 2 →
    s.trace.queue = r :: rest → s.trace.count < 4095 → s.trace.lostOwed = 0 →
    exec .traceRecord s = .next { s with trace := { s.trace with
      queue := rest, buf := mset s.trace.buf s.trace.wptr r, wptr := (s.trace.wptr + 1) % 4096,
      count := s.trace.count + 1 } })
  ∧ (∀ (s : State) (r : BitVec 128) (rest : List (BitVec 128)), s.core = .running → traceMode s = 2 →
    s.trace.queue = r :: rest → s.trace.count = 4095 →
    exec .traceRecord s = .next { s with trace := { s.trace with
      queue := rest, buf := mset s.trace.buf s.trace.wptr r, wptr := (s.trace.wptr + 1) % 4096,
      count := 4096, state := 4, post := none } })
  ∧ (∀ (s : State) (r : BitVec 128) (rest : List (BitVec 128)), s.core = .running → traceMode s = 3 →
    s.trace.queue = r :: rest → s.trace.count < 4096 → s.now < s.trace.streamAt → s.trace.lostOwed = 0 →
    exec .traceRecord s = .next { s with trace := { s.trace with
      queue := rest, buf := mset s.trace.buf s.trace.wptr r, wptr := (s.trace.wptr + 1) % 4096,
      count := s.trace.count + 1 } })
  ∧ (∀ (s : State) (r : BitVec 128) (rest : List (BitVec 128)), s.Inv → s.core = .running → traceMode s = 3 →
    s.trace.queue = r :: rest → s.trace.count = 4096 → s.now < s.trace.streamAt → 64 ≤ rest.length →
    ∃ t, exec .traceRecord s = .next t
      ∧ t.trace = { s.trace with queue := rest, lostOwed := s.trace.lostOwed + 1 }
      ∧ counted s t 0xE400 0x07 1
      ∧ { t with trace := s.trace, alm := s.alm } = s)
  ∧ (∀ s : State, s.core = .running → traceMode s = 3 → s.trace.queue = [] → s.trace.count ≠ 0 →
    s.trace.streamAt ≤ s.now → s.trace.lostOwed = 0 →
    ∃ t, exec .traceRecord s = .next t
      ∧ t.out = s.out ++ [.trace (mgetD s.trace.buf ((s.trace.wptr + 4096 - s.trace.count) % 4096) 0)]
      ∧ t.trace = { s.trace with count := s.trace.count - 1, streamAt := s.now + 16 }
      ∧ { t with trace := s.trace, out := s.out } = s)
  ∧ (∀ s : State, s.core = .running → traceMode s ≠ 3 → s.trace.queue = [] → s.trace.lostOwed ≠ 0 →
    s.trace.state ≠ 4 → s.trace.post = none →
    ∃ t, exec .traceRecord s = .next t
      ∧ t.trace.queue = [traceRecord s.now 10 15 0 false s.trace.rseq (BitVec.ofNat 64 s.trace.lostOwed)]
      ∧ t.trace.lostOwed = 0
      ∧ t.trace.rseq = (s.trace.rseq + 1) % 256
      ∧ { t with trace := s.trace } = s)
  ∧ (∀ s : State, s.core ≠ .running
      ∨ s.trace.queue = [] ∧ s.trace.lostOwed = 0 ∧ (traceMode s ≠ 3 ∨ s.trace.count = 0 ∨ s.now < s.trace.streamAt) →
    exec .traceRecord s = .next s)

/-- What asserting a reset input and losing a clock or supply leave. Everything is emptied and parked, IFI_READY is
low, and stored values and fuses stay (R48, R60, R404). PORST_N and VDD_AON stop CORE and take the CFG window and the
ring agent with them, VDD_AON the test port too (R55, R60, R395, R443). WRST_N and DRST_N leave CORE running, and a
CFG or ring command in progress ends with RESET_ABORT (R48). The loss of REFCLK stops CORE, and every CFG_ACK owed
comes two AON cycles after its return (R46, R48); a second loss changes nothing. The loss of VDD_CORE does the same to
CORE, and under a reset input stops it alone (R395). -/
def Obligations.ResetAssertion : Prop :=
  (∀ s : State, ∃ t, exec (.resetInputAssert .porst) s = .next t
      ∧ KeptParked s t
      ∧ Emptied t ∧ t.held.porst = true ∧ t.core = .stopped ∧ t.ifiReady = false
      ∧ t.cfg = {} ∧ t.ring = {} ∧ t.alm = s.alm ∧ t.tabs = s.tabs ∧ t.fuses = s.fuses ∧ t.tap = s.tap)
  ∧ (∀ s : State, ∃ t, exec (.resetInputAssert .wrst) s = .next t
      ∧ KeptParked s t
      ∧ Emptied t ∧ t.held.wrst = true ∧ t.ifiReady = false ∧ t.core = s.core ∧ t.fuses = s.fuses ∧ t.tap = s.tap
      ∧ (s.cfg.busy = false → s.ring.later = [] → t.alm = s.alm ∧ t.tabs = s.tabs ∧ t.cfg = s.cfg ∧ t.ring = s.ring))
  ∧ (∀ s : State, ∃ t, exec (.resetInputAssert .drst) s = .next t
      ∧ KeptParked s t
      ∧ Emptied t ∧ t.held.drst = true ∧ t.ifiReady = false ∧ t.core = s.core ∧ t.fuses = s.fuses ∧ t.tap = s.tap
      ∧ (s.cfg.busy = false → s.ring.later = [] → t.alm = s.alm ∧ t.tabs = s.tabs ∧ t.cfg = s.cfg ∧ t.ring = s.ring))
  ∧ (∀ (s : State) (input : ResetInput), input ≠ .porst → s.cfg.busy = true →
    ∃ t, exec (.resetInputAssert input) s = .next t
      ∧ KeptParked s t ∧ t.cfg.busy = false ∧ t.cfg.status = 8)
  ∧ (∀ (s : State) (input : ResetInput) (at_ : Nat) (frame : List Byte), s.Inv → input ≠ .porst →
    s.ring.later = [(at_, frame)] → s.ring.waiting = [] →
    ∃ t, exec (.resetInputAssert input) s = .next t
      ∧ KeptParked s t
      ∧ t.ring.later = [] ∧ t.ring.waiting = [respFrame s (frameOf frame) { status := 8 }])
  ∧ (∀ s : State, s.held.refLost = false →
    ∃ t, exec .referenceLoss s = .next t
      ∧ KeptParked s t
      ∧ Emptied t ∧ t.held.refLost = true ∧ t.held.refSeen = true ∧ t.core = .stopped ∧ t.ifiReady = false
      ∧ t.fuses = s.fuses
      ∧ (∀ a ∈ t.cfg.acks, a.1 = s.now + 80)
      ∧ (s.cfg.busy = true → t.cfg.busy = false ∧ t.cfg.status = 8 ∧ t.cfg.acks ≠ []))
  ∧ (∀ s : State, s.held.refLost = true → exec .referenceLoss s = .next s)
  ∧ (∀ s : State, HeldOnlyBy s false false false →
    ∃ t, exec .vddCoreLoss s = .next t
      ∧ KeptParked s t
      ∧ Emptied t ∧ t.held.vddLost = true ∧ t.core = .stopped ∧ t.ifiReady = false ∧ t.alm = s.alm ∧ t.fuses = s.fuses)
  ∧ (∀ s : State, s.held.porst = true ∨ s.held.wrst = true ∨ s.held.drst = true →
    exec .vddCoreLoss s = .next { s with core := .stopped })
  ∧ (∀ s : State, ∃ t, exec .vddAonLoss s = .next t
      ∧ KeptParked s t
      ∧ Emptied t ∧ t.held.aonLost = true ∧ t.core = .stopped ∧ t.ifiReady = false
      ∧ t.cfg = {} ∧ t.ring = {} ∧ t.tap = {} ∧ t.alm = s.alm ∧ t.fuses = s.fuses)

/-- What a performed reset leaves: everything emptied, the classes it clears at their defaults, its name in
last_reset, its count raised, the supervisor booting, and CORE running or starting (R401, R403, R405, R407). A WARM
reset forgets the patch bank and field repair, a DIE reset keeps both, COLD takes the straps and sets the timestamp to
0 (R49, R332, R387, R393). At COLD a site that an alias row names as failed retires, and the spare site that it names
takes its identity (R329); an illegal strap opens a record (R50). The return of VDD_CORE and of REFCLK performs a DIE
reset (R46, R395); when nothing was lost it changes nothing. A released input leaves the adapter in reset while
another holds it, and the last release performs the strongest of them (R48). A later strap sample is recorded when it
differs, and never adopted (R49). -/
def Obligations.ResetRelease : Prop :=
  (∀ (s : State) (d : Die) (r : BitVec 3) (p : BitVec 6), s.Inv → s.held.wrst = false → s.held.drst = false →
    (s.held.porst = true → s.held.worst = 3) → r.toNat < 6 → aliasRows s = [] →
    ∃ t, exec (.coldReset d r p) s = .next t
      ∧ Emptied t ∧ Cleared 3 t
      ∧ t.strapDie = d ∧ t.strapRole = r ∧ t.strapPos = p ∧ t.die = d ∧ t.role = r
      ∧ t.now = 0 ∧ t.get 0x2103 0x01 0 = 0
      ∧ t.svc = List.replicate 32 {} ∧ t.cfg = {} ∧ t.sup = { state := 1, boot := true } ∧ t.repair = {}
      ∧ inReset t = false ∧ t.core ≠ .stopped)
  ∧ (∀ (s : State) (d : Die) (r : BitVec 3) (p : BitVec 6) (x : Nat), s.Inv → s.held.wrst = false → s.held.drst = false →
    (s.held.porst = true → s.held.worst = 3) → r.toNat < 6 → aliasRows s = [x] →
    aliasFailed x = (r.toNat, p.toNat) →
    ∃ t, exec (.coldReset d r p) s = .next t
      ∧ Emptied t ∧ aliasState t = 1 ∧ t.die = d ∧ t.role = r)
  ∧ (∀ (s : State) (d : Die) (r : BitVec 3) (p : BitVec 6) (x : Nat), s.Inv → s.held.wrst = false → s.held.drst = false →
    (s.held.porst = true → s.held.worst = 3) → r.toNat < 6 → aliasRows s = [x] →
    aliasFailed x ≠ (r.toNat, p.toNat) → aliasSpare x = (r.toNat, p.toNat) →
    ∃ t, exec (.coldReset d r p) s = .next t
      ∧ Emptied t ∧ aliasState t = 2 ∧ t.strapDie = d ∧ t.strapRole = r
      ∧ t.die = BitVec.ofNat 8 (bitsOf x 32 8) ∧ t.role = BitVec.ofNat 3 (bitsOf x 0 3))
  ∧ (∀ (s : State) (d : Die) (r : BitVec 3) (p : BitVec 6), s.Inv → s.held.wrst = false → s.held.drst = false →
    (s.held.porst = true → s.held.worst = 3) → 6 ≤ r.toNat →
    ∃ t x, exec (.coldReset d r p) s = .next t
      ∧ Emptied t ∧ x ∈ t.svc ∧ x.open_ = true ∧ x.reason = 0x01 ∧ x.detail = r.toNat)
  ∧ (∀ (s : State) (b : Bool), s.Inv → HeldOnlyBy s b false false → s.held.worst = (if b then 2 else 0) →
    ∃ t, exec .warmReset s = .next t
      ∧ KeptIdentity s t
      ∧ Emptied t ∧ Cleared 2 t
      ∧ t.get 0x2103 0x01 0 = (if s.held.refSeen then 3 else 1) ∧ counted s t 0xD000 0x07 1
      ∧ t.sup = { state := 1, boot := true } ∧ t.repair = {} ∧ t.svc = s.svc ∧ t.now = s.now
      ∧ inReset t = false ∧ t.core ≠ .stopped)
  ∧ (∀ (s : State) (b : Bool), s.Inv → HeldOnlyBy s false b false → s.held.worst = (if b then 1 else 0) →
    ∃ t, exec .dieReset s = .next t
      ∧ KeptIdentity s t
      ∧ Emptied t ∧ Cleared 1 t
      ∧ t.get 0x2103 0x01 0 = (if s.held.refSeen then 3 else 2) ∧ counted s t 0xD000 0x08 1
      ∧ t.sup = { s.sup with state := 1, boot := true } ∧ t.repair = s.repair ∧ t.svc = s.svc ∧ t.now = s.now
      ∧ inReset t = false ∧ t.core ≠ .stopped)
  ∧ (∀ s : State, HeldOnlyBy s true true false →
    ∃ t, exec .warmReset s = .next t
      ∧ t.held = { s.held with wrst := false } ∧ inReset t = true ∧ t.alm = s.alm ∧ t.sup = s.sup)
  ∧ (∀ s : State, s.Inv → HeldOnlyBy s false true false → s.held.worst = 2 →
    ∃ t, exec .dieReset s = .next t
      ∧ KeptIdentity s t
      ∧ Emptied t ∧ Cleared 2 t
      ∧ t.get 0x2103 0x01 0 = (if s.held.refSeen then 3 else 1) ∧ counted s t 0xD000 0x07 1
      ∧ t.sup = { state := 1, boot := true } ∧ t.repair = {}
      ∧ inReset t = false)
  ∧ (∀ s : State, s.Inv → HeldOnlyBy s false false true → s.held.worst = 0 →
    ∃ t, exec .vddCoreReturn s = .next t
      ∧ KeptIdentity s t
      ∧ Emptied t ∧ Cleared 1 t
      ∧ t.get 0x2103 0x01 0 = 2 ∧ counted s t 0xD000 0x09 1
      ∧ inReset t = false ∧ t.core ≠ .stopped)
  ∧ (∀ s : State, s.held.vddLost = false → exec .vddCoreReturn s = .next s)
  ∧ (∀ (s : State) (seen : Bool), s.Inv → s.held = { refLost := true, refSeen := seen } →
    ∃ t, exec .refclkReturn s = .next t
      ∧ KeptIdentity s t
      ∧ Emptied t ∧ Cleared 1 t
      ∧ t.get 0x2103 0x01 0 = 3 ∧ counted s t 0x2103 0x02 1
      ∧ inReset t = false ∧ t.core ≠ .stopped)
  ∧ (∀ s : State, s.held.refLost = false → exec .refclkReturn s = .next s)
  ∧ (∀ (s : State) (d : Die) (r : BitVec 3) (p : BitVec 6), s.Inv →
    ∃ t, exec (.strapSample d r p) s = .next t
      ∧ ((d, r, p) = (s.strapDie, s.strapRole, s.strapPos) → t = s)
      ∧ ((d, r, p) ≠ (s.strapDie, s.strapRole, s.strapPos) → t.get 0x2101 0x04 0 = 1)
      ∧ { t with alm := s.alm } = s)

/-- Thermal inputs. Of each input a sample is accepted when both reads agree, and is stored; one that differs changes
nothing of it (R53). The demand is the higher of the tempo values at the levels of the two inputs (R203); a demand
that changes is presented on every port with a calendar, and a rise makes a TEMPO owed (R203, R204). A sensor fault
that begins opens a record (R52). The level is the highest enabled threshold that the sample has reached, 0 for no
sensor, the highest enabled one for a fault, and it is kept while the sample lies within the hysteresis (R52, R203). A
demand above the maximum trips once, with its event, its record and its count, and otherwise an overload changes
nothing (R205). -/
def Obligations.Thermal : Prop :=
  (∀ (s : State) (a a' b b' : BitVec 8) (l r : Nat), s.Inv →
    l = (if a = a' then a.toNat else s.get 0x2102 0x01 0) → r = (if b = b' then b.toNat else s.get 0x2102 0x02 0) →
    ∃ t, exec (.thermalSample a a' b b') s = .next t
      ∧ { t with alm := s.alm, egress := s.egress, evtOut := s.evtOut, irqs := s.irqs, ring := s.ring, svc := s.svc,
                  therm := s.therm } = s
      ∧ t.get 0x2102 0x01 0 = l ∧ t.get 0x2102 0x02 0 = r
      ∧ t.therm.levelLocal = thermLevel s false l s.therm.levelLocal
      ∧ t.therm.levelBelow = thermLevel s true r s.therm.levelBelow
      ∧ t.therm.demand = max (thermTempo s false t.therm.levelLocal) (thermTempo s true t.therm.levelBelow)
      ∧ t.egress.length = s.egress.length + (if t.therm.demand = s.therm.demand then 0 else (calendarPorts s).length)
      ∧ t.therm.owed = (s.therm.owed || decide (s.therm.demand < t.therm.demand))
      ∧ t.ports = s.ports
      ∧ (a ≠ a' → b ≠ b' → t.svc = s.svc))
  ∧ (∀ (s : State) (a b b' : BitVec 8), s.Inv → a = 0xFF → s.get 0x2102 0x01 0 ≠ 0xFF → b ≠ b' →
    (svcSlot s.svc).isSome = true →
    ∃ t, exec (.thermalSample a a b b') s = .next t
      ∧ { t with alm := s.alm, egress := s.egress, evtOut := s.evtOut, irqs := s.irqs, ring := s.ring, svc := s.svc,
                  therm := s.therm } = s
      ∧ Recorded t 0x02 0 0 0)
  ∧ (∀ (s : State) (below : Bool) (v old : Nat), 0 < v → v < 0xFF → (∀ i, 1 ≤ i → i ≤ 4 → 0 < thermThr s below i) →
    thermThr s below 4 ≤ v → old ≤ 4 → thermLevel s below v old = 4)
  ∧ (∀ (s : State) (below : Bool) (v old : Nat), 0 < v → v < 0xFF → old ≤ 4 →
    topLevel s below (fun t => decide (t ≤ v)) < old → thermThr s below old ≠ 0 →
    thermThr s below old ≤ v + s.get 0x6F01 0x11 3 →
    thermLevel s below v old = old)
  ∧ (∀ (s : State) (below : Bool) (old : Nat), thermLevel s below 0 old = 0
      ∧ (thermThr s below 4 ≠ 0 → thermLevel s below 0xFF old = 4))
  ∧ (∀ s : State, s.Inv → tempoMax s < s.therm.demand → s.therm.tripped = false →
    ∃ t, exec .thermalOverload s = .next t
      ∧ t.therm = { s.therm with tripped := true }
      ∧ (0x84, 0, BitVec.ofNat 32 (tripBits s)) ∈ t.evtOut
      ∧ ((∃ r ∈ t.svc, r.open_ = true ∧ r.reason = 0x03) ∨ counted s t 0x0100 0x04 1)
      ∧ counted s t 0x6F02 0x06 1
      ∧ { t with therm := s.therm, evtOut := s.evtOut, svc := s.svc, alm := s.alm, ring := s.ring, irqs := s.irqs } = s)
  ∧ (∀ s : State, s.therm.demand ≤ tempoMax s ∨ s.therm.tripped = true → exec .thermalOverload s = .next s)

/-- The core clock. Lock after a start makes CORE usable and stores the lock time; outside reset IFI_READY rises with
the depths as the adapter's credit and none of the die's, and under a reset nothing else happens; a CFG command that
waited for the supervisor runs when it runs already (R38, R391, R368). Without a start, lock changes nothing. CORE
stops when every condition of R392 holds, counted, and the IFI credits are gone (R38, R392); otherwise it goes on. -/
def Obligations.CoreClock : Prop :=
  (∀ s : State, s.Inv → s.core = .starting → inReset s = false →
    (s.sup.boot = true ∨ (∀ p ∈ s.ports, p.state ≠ .off) ∧ s.cfg.busy = false ∧ s.ring.later = []) →
    ∃ t, exec .corePllLock s = .next t
      ∧ { t with alm := s.alm, core := s.core, ifiReady := s.ifiReady, icr := s.icr, ecr := s.ecr, evtCr := s.evtCr,
                  evtIcr := s.evtIcr, rr := s.rr, out := s.out } = s
      ∧ t.core = .running ∧ t.ifiReady = true
      ∧ t.get 0xD000 0x04 0 = min (s.now - s.coreAt) 0xFFFFFFFF
      ∧ t.icr = [.req, .inr, .snp, .msg, .sch, .red].map (ingDepth s)
      ∧ t.ecr = List.replicate 6 0 ∧ t.evtIcr = 16 ∧ t.evtCr = 0
      ∧ t.ports = s.ports)
  ∧ (∀ s : State, s.Inv → s.core = .starting → inReset s = false → supRuns s = true → s.cfg.busy = true →
    s.ring.later = [] → (∀ p ∈ s.ports, p.state ≠ .off) →
    ∃ t, exec .corePllLock s = .next t
      ∧ t.core = .running ∧ t.ifiReady = true ∧ t.cfg.busy = false ∧ t.cfg.op = 0)
  ∧ (∀ s : State, s.Inv → s.core = .starting → inReset s = true →
    ∃ t, exec .corePllLock s = .next t
      ∧ t.core = .running ∧ t.ifiReady = s.ifiReady
      ∧ t.get 0xD000 0x04 0 = min (s.now - s.coreAt) 0xFFFFFFFF
      ∧ { t with core := s.core, alm := s.alm } = s)
  ∧ (∀ s : State, s.core ≠ .starting → exec .corePllLock s = .next s)
  ∧ (∀ s : State, s.Inv → s.core = .running → inReset s = false → mayStop s = true →
    ∃ t, exec .coreStop s = .next t
      ∧ t.core = .stopped ∧ t.ifiReady = false
      ∧ t.icr = List.replicate 6 0 ∧ t.ecr = List.replicate 6 0 ∧ t.evtIcr = 0 ∧ t.evtCr = 0
      ∧ counted s t 0xD000 0x03 1
      ∧ { t with core := s.core, ifiReady := s.ifiReady, icr := s.icr, ecr := s.ecr, evtIcr := s.evtIcr,
                 evtCr := s.evtCr, alm := s.alm } = s)
  ∧ (∀ s : State, s.core ≠ .running ∨ inReset s = true ∨ mayStop s = false → exec .coreStop s = .next s)

/-- A step with a command at the front of the queue is `exec` of that command on the state with the queue's rest. -/
def Obligations.QueueStep : Prop :=
  ∀ (s : State) (c : Instr) (rest : List Instr),
    step { s with pending := c :: rest } = exec c { s with pending := rest }

/-- A step on an empty queue ends a core cycle (the model's choice, log entry 2): the timestamp of R393 rises by one
while CORE runs and by the 40 ns of an AON cycle while it does not and AON runs, and the queue stays empty. The
CFG_ACK that is due leaves (R41), of the waiting RESPs the oldest goes out on a working ring (R378), and when no TEMPO
is owed at most one event leaves, against event credit (R39). -/
def Obligations.IdleStep : Prop :=
  ∀ s : State, s.pending = [] →
    ∃ t, step s = .next t
      ∧ t.pending = []
      ∧ (s.core = .running → t.now = s.now + 1)
      ∧ (s.core ≠ .running → aonStopped s = false → t.now = s.now + 40)
      ∧ (s.core ≠ .running → aonStopped s = true → t.now = s.now)
      ∧ (aonStopped s = false → t.cfg.acks = s.cfg.acks.filter (fun a => decide (t.now < a.1)))
      ∧ (aonStopped s = false → (∃ a ∈ s.cfg.acks, a.1 ≤ t.now) → Output.cfgAck ∈ t.out)
      ∧ t.ring.waiting = (if ringOn s then s.ring.waiting.drop 1 else s.ring.waiting)
      ∧ (s.therm.owed = false →
          (t.evtOut = s.evtOut ∧ t.evtCr = s.evtCr ∨ t.evtOut = s.evtOut.drop 1 ∧ t.evtCr + 1 = s.evtCr))

/-- The state right after reset has the form that every step keeps. -/
def Obligations.ResetForm : Prop := State.reset.Inv

/-- Every step keeps the form of the state: a legal elaboration (R429, R430), ten ports (R30), 32 service records
(R334) and the canonical scalar store. -/
def Obligations.StepKeepsForm : Prop := ∀ s t : State, s.Inv → step s = .next t → t.Inv

/-- No command changes the elaboration or the queue of the commands behind it, whatever the state. -/
def Obligations.CommandsKeepElaboration : Prop :=
  ∀ (c : Instr) (s t : State), exec c s = .next t → t.elab_ = s.elab_ ∧ t.pending = s.pending

/-- Decoding the cells of a transaction gives the transaction back, for every field of every head layout at every
value (R207–R212, R250, R276–R278, R383). -/
def Obligations.TransactionRoundTrip : Prop :=
  (∀ h : Head, Head.decode h.kind h.encode = h)
  ∧ (∀ (t : Txn) (frm : BitVec 8), t.head.kind = kindOf t.opc → Txn.ofCells (t.headCell frm) t.data = t)

/-- R410: the identification register that IDCODE selects, and the entry 0xE000:01, hold 1 in bit 0, MFR in bits 11 to
1, 0x1E40 + the member code in bits 27 to 12 and 2 in bits 31 to 28; MFR reads 0 until it is fused. -/
def Obligations.IdentificationRegister : Prop :=
  (∀ s : State, s.Inv →
    ∃ t v, exec .idcode s = .next t
      ∧ { t with alm := s.alm, evtOut := s.evtOut, twins := s.twins, tap := s.tap, trace := s.trace,
                  ports := s.ports } = s ∧ tapRegister t = some (v, 32)
      ∧ bitsOf v 0 1 = 1 ∧ bitsOf v 1 11 = s.fuses.mfr.toNat ∧ bitsOf v 12 16 = 0x1E40 + s.elab_.member
      ∧ bitsOf v 28 4 = 2 ∧ v < 2 ^ 32
      ∧ ∃ e, entryAt s 0xE000 0x01 = some e ∧ scalarValue s e 0xE000 0x01 = v)
  ∧ bitsOf (idcodeOf State.reset) 1 11 = 0

/-- R362: an entry exists only when the catalog defines it and the unit it belongs to is built; a READ, WRITE,
READ_SEG or WRITE_SEG of one that does not exist, or of an index from 0xF000 on, ends with NO_ENTRY on every path, and
changes nothing but the count of refusals. -/
def Obligations.MissingEntries : Prop :=
  (∀ (s : State) (idx sub : Nat) (e : Entry), entryAt s idx sub = some e →
    e ∈ catalog ∧ unitBuilt s e (locate idx) = true)
  ∧ (∀ (s : State) (path : Path) (op idx sub segoff seglen : Nat) (data : List Byte), op ∈ [1, 2, 3, 4] →
    entryAt s idx sub = none ∨ 0xF000 ≤ idx →
    runCommand s path op idx sub segoff seglen data = (s.bump 0x1000 0x05 1, { status := 1 }))
  ∧ (∀ (s : State) (c : Instr), c ∈ [Instr.cfgRead, .cfgWrite, .cfgReadSeg, .cfgWriteSeg] → s.Inv → inReset s = false →
    s.cfg.busy = false → entryAt s s.cfg.index.toNat s.cfg.sub.toNat = none →
    ∃ t, exec c s = .next t
      ∧ t.cfg.status = 1 ∧ t.cfg.busy = false
      ∧ counted s t 0x1000 0x05 1
      ∧ { t with cfg := s.cfg, alm := s.alm } = s)

/-- R159: the agreed GEN follows from the two offers alone, alike on both sides: the first value after the larger one,
counting 15, 1, that is neither side's; it is never 0 and never either side's. -/
def Obligations.GenerationChoice : Prop :=
  ∀ (ga gb : Gen) (next : Nat → Nat), (∀ g, next g = if g + 1 = 16 then 1 else g + 1) →
    newGen ga gb = newGen gb ga ∧ newGen ga gb ≠ 0 ∧ newGen ga gb ≠ ga ∧ newGen ga gb ≠ gb
      ∧ ∃ n, 1 ≤ n ∧ (newGen ga gb).toNat = next^[n] (max ga.toNat gb.toNat)
        ∧ ∀ m, 1 ≤ m → m < n → next^[m] (max ga.toNat gb.toNat) = ga.toNat ∨ next^[m] (max ga.toNat gb.toNat) = gb.toNat
end

