-- ==== Sys2Proof/Laws/Bits.lean ====
section
/-!
SUPPORT. Laws of the keyed lists and of the list helpers: read after write, the canonical form, and lengths.
-/

namespace Sys2Proof.Machine
open Sys2Proof

variable {α : Type}

/-- Every key of a keyed list lies above a bound. -/
def KeysAbove (k : Nat) (m : NMap α) : Prop := ∀ x ∈ m, k < x.1

theorem mwf_cons {k : Nat} {v : α} {m : NMap α} :
    mwf ((k, v) :: m) = true ↔ KeysAbove k m ∧ mwf m = true := by
  induction m generalizing k v with
  | nil => simp [mwf, KeysAbove]
  | cons x m ih =>
    obtain ⟨k', v'⟩ := x
    rw [mwf, Bool.and_eq_true, decide_eq_true_iff]
    constructor
    · rintro ⟨h1, h2⟩
      refine ⟨?_, h2⟩
      intro y hy
      rcases List.mem_cons.1 hy with rfl | hy
      · exact h1
      · exact lt_trans h1 ((ih.1 h2).1 y hy)
    · rintro ⟨h1, h2⟩
      exact ⟨h1 (k', v') (List.mem_cons_self ..), h2⟩

theorem KeysAbove.mset {b k : Nat} {v : α} {m : NMap α} (h : KeysAbove b m) (hk : b < k) :
    KeysAbove b (mset m k v) := by
  induction m with
  | nil => intro x hx; simp [Machine.mset] at hx; subst hx; exact hk
  | cons y m ih =>
    obtain ⟨k', v'⟩ := y
    have hy := h (k', v') (List.mem_cons_self ..)
    have hm : KeysAbove b m := fun z hz => h z (List.mem_cons_of_mem _ hz)
    unfold Machine.mset
    split
    · intro x hx
      rcases List.mem_cons.1 hx with rfl | hx
      · exact hk
      · exact h x hx
    · split
      · intro x hx
        rcases List.mem_cons.1 hx with rfl | hx
        · exact hk
        · exact hm x hx
      · intro x hx
        rcases List.mem_cons.1 hx with rfl | hx
        · exact hy
        · exact ih hm x hx

theorem KeysAbove.mdel {b k : Nat} {m : NMap α} (h : KeysAbove b m) : KeysAbove b (mdel m k) := by
  induction m with
  | nil => exact h
  | cons y m ih =>
    have hm : KeysAbove b m := fun z hz => h z (List.mem_cons_of_mem _ hz)
    unfold Machine.mdel
    split
    · exact hm
    · intro x hx
      rcases List.mem_cons.1 hx with rfl | hx
      · exact h _ (List.mem_cons_self ..)
      · exact ih hm x hx

/-- A write keeps the canonical form of a keyed list. -/
theorem mset_wf {m : NMap α} {k : Nat} {v : α} (h : mwf m = true) : mwf (mset m k v) = true := by
  induction m with
  | nil => rfl
  | cons y m ih =>
    obtain ⟨k', v'⟩ := y
    have hc := mwf_cons.1 h
    unfold mset
    split
    · rename_i hlt
      exact mwf_cons.2 ⟨fun x hx => by
        rcases List.mem_cons.1 hx with rfl | hx
        · exact hlt
        · exact lt_trans hlt (hc.1 x hx), h⟩
    · split
      · rename_i heq
        subst heq
        exact mwf_cons.2 hc
      · rename_i h1 h2
        exact mwf_cons.2 ⟨hc.1.mset (by omega), ih hc.2⟩

/-- A removal keeps the canonical form of a keyed list. -/
theorem mdel_wf {m : NMap α} {k : Nat} (h : mwf m = true) : mwf (mdel m k) = true := by
  induction m with
  | nil => rfl
  | cons y m ih =>
    have hc := mwf_cons.1 h
    unfold mdel
    split
    · exact hc.2
    · exact mwf_cons.2 ⟨hc.1.mdel, ih hc.2⟩

/-- Dropping entries keeps the canonical form of a keyed list. -/
theorem filter_wf {m : NMap α} (p : Nat × α → Bool) (h : mwf m = true) : mwf (m.filter p) = true := by
  induction m with
  | nil => rfl
  | cons y m ih =>
    obtain ⟨k, v⟩ := y
    have hc := mwf_cons.1 h
    rw [List.filter_cons]
    split
    · exact mwf_cons.2 ⟨fun x hx => hc.1 x (List.mem_filter.1 hx).1, ih hc.2⟩
    · exact ih hc.2

/-- A key reads as what was last written to it. -/
@[simp] theorem mget_mset_same (m : NMap α) (k : Nat) (v : α) : mget (mset m k v) k = some v := by
  induction m with
  | nil => simp [mset, mget]
  | cons y m ih =>
    obtain ⟨k', v'⟩ := y
    unfold mset
    split
    · simp [mget]
    · split
      · simp [mget]
      · rename_i h1 h2
        simp [mget, h2, ih]

/-- A write leaves every other key alone. -/
theorem mget_mset_other (m : NMap α) {k j : Nat} (v : α) (h : j ≠ k) : mget (mset m k v) j = mget m j := by
  induction m with
  | nil => simp [mset, mget, Ne.symm h]
  | cons y m ih =>
    obtain ⟨k', v'⟩ := y
    unfold mset
    split
    · simp [mget, Ne.symm h]
    · split
      · rename_i heq
        subst heq
        simp [mget, Ne.symm h]
      · simp only [mget]
        split
        · rfl
        · exact ih

theorem mget_of_above {m : NMap α} {k : Nat} (h : KeysAbove k m) : mget m k = none := by
  induction m with
  | nil => rfl
  | cons y m ih =>
    have h1 := h y (List.mem_cons_self ..)
    have hm : KeysAbove k m := fun z hz => h z (List.mem_cons_of_mem _ hz)
    simp only [mget]
    rw [if_neg (by omega)]
    exact ih hm

/-- A removed key reads as nothing. -/
theorem mget_mdel_same {m : NMap α} (h : mwf m = true) (k : Nat) : mget (mdel m k) k = none := by
  induction m with
  | nil => rfl
  | cons y m ih =>
    obtain ⟨k', v'⟩ := y
    have hc := mwf_cons.1 h
    unfold mdel
    split
    · rename_i heq
      subst heq
      exact mget_of_above hc.1
    · rename_i hne
      simp only [mget]
      rw [if_neg hne]
      exact ih hc.2

/-- A removal leaves every other key alone. -/
theorem mget_mdel_other (m : NMap α) {k j : Nat} (h : j ≠ k) : mget (mdel m k) j = mget m j := by
  induction m with
  | nil => rfl
  | cons y m ih =>
    obtain ⟨k', v'⟩ := y
    unfold mdel
    split
    · rename_i heq
      subst heq
      simp [mget, Ne.symm h]
    · simp only [mget]
      split
      · rfl
      · exact ih

/-- Replacing an element keeps the length. -/
@[simp] theorem setAt_length (n : Nat) (y : α) (xs : List α) : (setAt n y xs).length = xs.length := by
  induction xs generalizing n with
  | nil => cases n <;> rfl
  | cons x xs ih => cases n <;> simp [setAt, ih]

/-- Replacing in place where a test holds keeps the length. -/
@[simp] theorem mapIf_length (p : α → Bool) (f : α → α) (xs : List α) : (mapIf p f xs).length = xs.length := by
  simp [mapIf]

/-- An element reads as what replaced it. -/
theorem setAt_getElem_same {n : Nat} {y : α} {xs : List α} (h : n < xs.length) :
    (setAt n y xs)[n]? = some y := by
  induction xs generalizing n with
  | nil => simp at h
  | cons x xs ih =>
    cases n with
    | zero => rfl
    | succ n => simpa [setAt] using ih (by simpa using h)

/-- The other elements stay as they are. -/
theorem setAt_getElem_other {n i : Nat} (y : α) (xs : List α) (h : i ≠ n) : (setAt n y xs)[i]? = xs[i]? := by
  induction xs generalizing n i with
  | nil => cases n <;> rfl
  | cons x xs ih =>
    cases n with
    | zero => cases i with
      | zero => exact absurd rfl h
      | succ i => rfl
    | succ n => cases i with
      | zero => rfl
      | succ i => simpa [setAt] using ih (by omega)

/-- The same, for reads with a default. -/
theorem setAt_getD_same {n : Nat} {y d : α} {xs : List α} (h : n < xs.length) : (setAt n y xs).getD n d = y := by
  simp [List.getD_eq_getElem?_getD, setAt_getElem_same h]

theorem setAt_getD_other {n i : Nat} (y d : α) (xs : List α) (h : i ≠ n) : (setAt n y xs).getD i d = xs.getD i d := by
  simp [List.getD_eq_getElem?_getD, setAt_getElem_other y xs h]

/-- A fold of steps that each keep the canonical form keeps it. -/
theorem foldl_wf {β : Type} (f : NMap α → β → NMap α) (hf : ∀ m x, mwf m = true → mwf (f m x) = true) (xs : List β)
    {m : NMap α} (h : mwf m = true) : mwf (xs.foldl f m) = true := by
  induction xs generalizing m with
  | nil => exact h
  | cons x xs ih => exact ih (hf m x h)

/-- A fold of removals keeps the canonical form. -/
theorem foldl_mdel_wf {β : Type} (f : β → Nat) (xs : List β) {m : NMap α} (h : mwf m = true) :
    mwf (xs.foldl (fun m x => mdel m (f x)) m) = true := by
  induction xs generalizing m with
  | nil => exact h
  | cons x xs ih => exact ih (mdel_wf h)

end Sys2Proof.Machine
end

