-- ==== Sys2Proof/Laws/Keeps.lean ====
section
/-!
SUPPORT. The rules by which a function of the state is shown to keep what every command keeps (`Keeps`): one rule per
form of expression.
-/

namespace Sys2Proof.Machine
open Sys2Proof

-- Each proof offers the same list of steps; the linter would name every step that a goal does not need.
set_option linter.all false

/-- The outcome keeps, where it is a next state. -/
def KeepsO (s0 : State) (o : Host.Outcome State Fault Refusal) : Prop := ∀ t, o = .next t → Keeps s0 t

/-- A state with something beside it. -/
def KeepsP {α : Type} (s0 : State) (p : State × α) : Prop := Keeps s0 p.1

/-- A state with something before it. -/
def KeepsQ {α : Type} (s0 : State) (p : α × State) : Prop := Keeps s0 p.2

/-- A state, if there is one. -/
def KeepsM (s0 : State) (o : Option State) : Prop := ∀ t, o = some t → Keeps s0 t

variable {s0 s t u : State}

theorem Keeps.refl (s : State) : Keeps s s := ⟨rfl, rfl, id, id, id⟩

theorem Keeps.trans (h : Keeps s t) (k : Keeps t u) : Keeps s u :=
  ⟨k.elab_.trans h.elab_, k.pending.trans h.pending, fun x => k.ports (h.ports x), fun x => k.svc (h.svc x),
   fun x => k.alm (h.alm x)⟩

/-- A record update of other fields. -/
theorem Keeps.upd (h : Keeps s0 u) (h1 : t.elab_ = u.elab_) (h2 : t.pending = u.pending) (h3 : t.ports = u.ports)
    (h4 : t.svc = u.svc) (h5 : t.alm = u.alm) : Keeps s0 t :=
  ⟨h1.trans h.elab_, h2.trans h.pending, fun x => h3 ▸ h.ports x, fun x => h4 ▸ h.svc x, fun x => h5 ▸ h.alm x⟩

/-- A record update that replaces the ports by as many. -/
theorem Keeps.updPorts (h : Keeps s0 u) (h1 : t.elab_ = u.elab_) (h2 : t.pending = u.pending)
    (h3 : t.ports.length = u.ports.length) (h4 : t.svc = u.svc) (h5 : t.alm = u.alm) : Keeps s0 t :=
  ⟨h1.trans h.elab_, h2.trans h.pending, fun x => h3.trans (h.ports x), fun x => h4 ▸ h.svc x, fun x => h5 ▸ h.alm x⟩

/-- A record update that replaces the service records by as many. -/
theorem Keeps.updSvc (h : Keeps s0 u) (h1 : t.elab_ = u.elab_) (h2 : t.pending = u.pending) (h3 : t.ports = u.ports)
    (h4 : t.svc.length = u.svc.length) (h5 : t.alm = u.alm) : Keeps s0 t :=
  ⟨h1.trans h.elab_, h2.trans h.pending, fun x => h3 ▸ h.ports x, fun x => h4.trans (h.svc x), fun x => h5 ▸ h.alm x⟩

/-- A record update of the scalar store. -/
theorem Keeps.updAlm (h : Keeps s0 u) (h1 : t.elab_ = u.elab_) (h2 : t.pending = u.pending) (h3 : t.ports = u.ports)
    (h4 : t.svc = u.svc) (h5 : mwf u.alm = true → mwf t.alm = true) : Keeps s0 t :=
  ⟨h1.trans h.elab_, h2.trans h.pending, fun x => h3 ▸ h.ports x, fun x => h4 ▸ h.svc x, fun x => h5 (h.alm x)⟩

/-- A record update of other fields, found by its form. -/
theorem Keeps.record {x_fuses : Fuses} {x_tabs : NMap (List Nat)} {x_counts : NMap Nat} {x_now : Nat} {x_strapDie : Die} {x_strapRole : BitVec 3} {x_strapPos : BitVec 6} {x_die : Die} {x_role : BitVec 3} {x_held : ResetsHeld} {x_core : CoreState} {x_coreAt : Nat} {x_resetAt : Nat} {x_ifiReady : Bool} {x_ifiWake : Bool} {x_ingress : List (IngCh × Waiting)} {x_egress : List (EgCh × Waiting)} {x_icr : List Nat} {x_ecr : List Nat} {x_evtOut : List (BitVec 8 × Ten × BitVec 32)} {x_evtCr : Nat} {x_evtIcr : Nat} {x_irqs : IrqLog} {x_rr : Nat} {x_cfg : CfgWindow} {x_xfers : List (Path × Transfer)} {x_sup : Supervisor} {x_ring : RingAgent} {x_therm : Thermal} {x_sch : Sched} {x_sems : NMap Sem} {x_ownQ : List Waiting} {x_localTags : NMap TagInfo} {x_ord : List OrdRec} {x_inbOut : List Txn} {x_seqNo : Nat} {x_rlc : Rlc} {x_home : Home} {x_ifr : Ifr} {x_ten : Tenancy} {x_twins : List Pair} {x_fw : Firewall} {x_repair : Repair} {x_tap : Tap} {x_trace : Trace} {x_out : List Output} (h : Keeps s0 u) :
    Keeps s0 { elab_ := u.elab_, fuses := x_fuses, alm := u.alm, tabs := x_tabs, counts := x_counts, now := x_now, strapDie := x_strapDie, strapRole := x_strapRole, strapPos := x_strapPos, die := x_die, role := x_role, held := x_held, core := x_core, coreAt := x_coreAt, resetAt := x_resetAt, ifiReady := x_ifiReady, ifiWake := x_ifiWake, ingress := x_ingress, egress := x_egress, icr := x_icr, ecr := x_ecr, evtOut := x_evtOut, evtCr := x_evtCr, evtIcr := x_evtIcr, irqs := x_irqs, rr := x_rr, cfg := x_cfg, xfers := x_xfers, sup := x_sup, ring := x_ring, svc := u.svc, therm := x_therm, sch := x_sch, sems := x_sems, ownQ := x_ownQ, localTags := x_localTags, ord := x_ord, inbOut := x_inbOut, seqNo := x_seqNo, rlc := x_rlc, home := x_home, ifr := x_ifr, ten := x_ten, twins := x_twins, fw := x_fw, repair := x_repair, tap := x_tap, trace := x_trace, ports := u.ports, out := x_out, pending := u.pending } :=
  Keeps.upd h rfl rfl rfl rfl rfl

/-- A record update of any fields that keeps what a step must keep. -/
theorem Keeps.recordAll {x_fuses : Fuses} {x_alm : NMap Nat} {x_tabs : NMap (List Nat)} {x_counts : NMap Nat} {x_now : Nat} {x_strapDie : Die} {x_strapRole : BitVec 3} {x_strapPos : BitVec 6} {x_die : Die} {x_role : BitVec 3} {x_held : ResetsHeld} {x_core : CoreState} {x_coreAt : Nat} {x_resetAt : Nat} {x_ifiReady : Bool} {x_ifiWake : Bool} {x_ingress : List (IngCh × Waiting)} {x_egress : List (EgCh × Waiting)} {x_icr : List Nat} {x_ecr : List Nat} {x_evtOut : List (BitVec 8 × Ten × BitVec 32)} {x_evtCr : Nat} {x_evtIcr : Nat} {x_irqs : IrqLog} {x_rr : Nat} {x_cfg : CfgWindow} {x_xfers : List (Path × Transfer)} {x_sup : Supervisor} {x_ring : RingAgent} {x_svc : List SvcRecord} {x_therm : Thermal} {x_sch : Sched} {x_sems : NMap Sem} {x_ownQ : List Waiting} {x_localTags : NMap TagInfo} {x_ord : List OrdRec} {x_inbOut : List Txn} {x_seqNo : Nat} {x_rlc : Rlc} {x_home : Home} {x_ifr : Ifr} {x_ten : Tenancy} {x_twins : List Pair} {x_fw : Firewall} {x_repair : Repair} {x_tap : Tap} {x_trace : Trace} {x_ports : List Port} {x_out : List Output} (h : Keeps s0 u)
    (h1 : x_ports.length = u.ports.length) (h2 : x_svc.length = u.svc.length) (h3 : mwf u.alm = true → mwf x_alm = true) :
    Keeps s0 { elab_ := u.elab_, fuses := x_fuses, alm := x_alm, tabs := x_tabs, counts := x_counts, now := x_now, strapDie := x_strapDie, strapRole := x_strapRole, strapPos := x_strapPos, die := x_die, role := x_role, held := x_held, core := x_core, coreAt := x_coreAt, resetAt := x_resetAt, ifiReady := x_ifiReady, ifiWake := x_ifiWake, ingress := x_ingress, egress := x_egress, icr := x_icr, ecr := x_ecr, evtOut := x_evtOut, evtCr := x_evtCr, evtIcr := x_evtIcr, irqs := x_irqs, rr := x_rr, cfg := x_cfg, xfers := x_xfers, sup := x_sup, ring := x_ring, svc := x_svc, therm := x_therm, sch := x_sch, sems := x_sems, ownQ := x_ownQ, localTags := x_localTags, ord := x_ord, inbOut := x_inbOut, seqNo := x_seqNo, rlc := x_rlc, home := x_home, ifr := x_ifr, ten := x_ten, twins := x_twins, fw := x_fw, repair := x_repair, tap := x_tap, trace := x_trace, ports := x_ports, out := x_out, pending := u.pending } :=
  ⟨h.elab_, h.pending, fun x => h1.trans (h.ports x), fun x => h2.trans (h.svc x), fun x => h3 (h.alm x)⟩

theorem Keeps.ite {c : Prop} [Decidable c] (h : Keeps s0 t) (k : Keeps s0 u) : Keeps s0 (if c then t else u) := by
  split <;> assumption

theorem KeepsO.ite {c : Prop} [Decidable c] {a b : Host.Outcome State Fault Refusal} (h : KeepsO s0 a) (k : KeepsO s0 b) :
    KeepsO s0 (if c then a else b) := by
  split <;> assumption

theorem KeepsP.ite {α : Type} {c : Prop} [Decidable c] {a b : State × α} (h : KeepsP s0 a) (k : KeepsP s0 b) :
    KeepsP s0 (if c then a else b) := by
  split <;> assumption

theorem KeepsM.ite {c : Prop} [Decidable c] {a b : Option State} (h : KeepsM s0 a) (k : KeepsM s0 b) :
    KeepsM s0 (if c then a else b) := by
  split <;> assumption

theorem KeepsQ.ite {α : Type} {c : Prop} [Decidable c] {a b : α × State} (h : KeepsQ s0 a) (k : KeepsQ s0 b) :
    KeepsQ s0 (if c then a else b) := by
  split <;> assumption

theorem KeepsQ.mk {α : Type} {x : α} (h : Keeps s0 t) : KeepsQ s0 (x, t) := h

theorem KeepsQ.snd {α : Type} {p : α × State} {x : α} (h : KeepsQ s0 p) (e : p = (x, t)) : Keeps s0 t := by
  subst e; exact h

theorem KeepsQ.proj {α : Type} {p : α × State} (h : KeepsQ s0 p) : Keeps s0 p.2 := h

theorem KeepsP.mk {α : Type} {x : α} (h : Keeps s0 t) : KeepsP s0 (t, x) := h

theorem KeepsP.fst {α : Type} {p : State × α} {x : α} (h : KeepsP s0 p) (e : p = (t, x)) : Keeps s0 t := by
  subst e; exact h

theorem KeepsP.proj {α : Type} {p : State × α} (h : KeepsP s0 p) : Keeps s0 p.1 := h

theorem KeepsM.some (h : Keeps s0 t) : KeepsM s0 (Option.some t) := by
  intro u e; cases e; exact h

theorem KeepsM.none : KeepsM s0 Option.none := by
  intro u e; cases e

theorem KeepsM.get {o : Option State} (h : KeepsM s0 o) (e : o = Option.some t) : Keeps s0 t := h t e

theorem KeepsM.getD {o : Option State} (h : KeepsM s0 o) (k : Keeps s0 t) : Keeps s0 (o.getD t) := by
  cases o
  · exact k
  · exact h _ rfl

theorem KeepsO.next (h : Keeps s0 t) : KeepsO s0 (.next t) := by
  intro u e; cases e; exact h

theorem KeepsO.fault (f : Fault) : KeepsO s0 (.fault f) := by
  intro u e; cases e

theorem Keeps.foldl {α : Type} {f : State → α → State} {xs : List α} (hf : ∀ u x, Keeps s0 u → Keeps s0 (f u x))
    (h : Keeps s0 s) : Keeps s0 (xs.foldl f s) := by
  induction xs generalizing s with
  | nil => exact h
  | cons x xs ih => exact ih (hf s x h)

theorem KeepsP.foldl {α β : Type} {f : State × α → β → State × α} {xs : List β} {p : State × α}
    (hf : ∀ u x, KeepsP s0 u → KeepsP s0 (f u x)) (h : KeepsP s0 p) : KeepsP s0 (xs.foldl f p) := by
  induction xs generalizing p with
  | nil => exact h
  | cons x xs ih => exact ih (hf p x h)

end Sys2Proof.Machine
end

