-- ==== Sys2Proof/Laws/KeepsAlmanac.lean ====
section
/-!
SUPPORT. The functions of Machine/Almanac.lean keep what every command keeps.
-/

namespace Sys2Proof.Machine
open Sys2Proof

set_option linter.all false

theorem keeps_put {s0 : State} (s : State) (i j d v : Nat) (h0 : Keeps s0 s) : Keeps s0 (s.put i j d v) := by
  refine Keeps.updAlm h0 rfl rfl rfl rfl ?_
  intro h
  unfold State.put
  dsimp only
  split
  · exact mdel_wf h
  · exact mset_wf h

theorem keeps_bump {s0 : State} (s : State) (idx sub n : Nat) (h0 : Keeps s0 s) :
    Keeps s0 (State.bump s idx sub n) := by
  unfold State.bump
  repeat' first
    | with_reducible assumption | with_reducible apply keeps_put | split | dsimp only

theorem keeps_bump64 {s0 : State} (s : State) (idx sub n : Nat) (h0 : Keeps s0 s) :
    Keeps s0 (State.bump64 s idx sub n) := by
  unfold State.bump64
  repeat' first
    | with_reducible assumption | with_reducible apply keeps_put | split | dsimp only

theorem keeps_bumpCount {s0 : State} (s : State) (k n : Nat) (h0 : Keeps s0 s) : Keeps s0 (s.bumpCount k n) :=
  Keeps.upd h0 rfl rfl rfl rfl rfl

end Sys2Proof.Machine
end

