-- ==== Sys2Proof/Laws/KeepsOps.lean ====
section
/-!
SUPPORT. The functions of Machine/Ops.lean keep what every command keeps.
-/

namespace Sys2Proof.Machine
open Sys2Proof

set_option linter.all false

theorem keeps_emit {s0 : State} (s : State) (o : Output) (h0 : Keeps s0 s) : Keeps s0 (State.emit s o) := by
  unfold State.emit
  repeat' first
    | with_reducible assumption | fail_if_no_progress with_reducible apply Keeps.record | split | dsimp only

theorem keeps_tev {s0 : State} (s : State) (kind port sub : Nat) (bad : Bool) (data : BitVec 64) (h0 : Keeps s0 s) :
    Keeps s0 (State.tev s kind port sub bad data) := by
  unfold State.tev
  repeat' first
    | with_reducible assumption | with_reducible apply Keeps.ite
    | fail_if_no_progress with_reducible apply Keeps.record | split | dsimp only

theorem keeps_evt {s0 : State} (s : State) (code : BitVec 8) (ten : Ten) (arg : BitVec 32) (h0 : Keeps s0 s) :
    Keeps s0 (State.evt s code ten arg) := by
  unfold State.evt
  repeat' first
    | with_reducible assumption | fail_if_no_progress with_reducible apply Keeps.record | split | dsimp only

theorem keeps_irqEvent {s0 : State} (s : State) (arg : BitVec 32) (h0 : Keeps s0 s) :
    Keeps s0 (State.irqEvent s arg) := by
  unfold State.irqEvent
  repeat' first
    | with_reducible assumption | with_reducible apply keeps_evt | with_reducible apply Keeps.ite
    | fail_if_no_progress with_reducible apply Keeps.record | split | dsimp only

theorem keeps_irqSeen {s0 : State} (s : State) (cause : Nat) (h0 : Keeps s0 s) : Keeps s0 (State.irqSeen s cause) := by
  unfold State.irqSeen
  repeat' first
    | with_reducible assumption | fail_if_no_progress with_reducible apply Keeps.record | split | dsimp only

theorem keeps_irq {s0 : State} (s : State) (cause : Nat) (h0 : Keeps s0 s) : Keeps s0 (State.irq s cause) := by
  unfold State.irq
  repeat' first
    | with_reducible assumption | with_reducible apply keeps_irqEvent | with_reducible apply keeps_irqSeen
    | with_reducible apply keeps_put | with_reducible apply Keeps.ite
    | fail_if_no_progress with_reducible apply Keeps.record | split | dsimp only

theorem keeps_service {s0 : State} (s : State) (reason ukind unit sub detail : Nat) (h0 : Keeps s0 s) :
    Keeps s0 (s.service reason ukind unit sub detail) := by
  unfold State.service
  dsimp only
  split
  · exact Keeps.updSvc h0 rfl rfl rfl (mapIf_length _ _ _) rfl
  · split
    · exact keeps_bump _ _ _ _ h0
    · exact keeps_irq _ _ (keeps_evt _ _ _ _ (Keeps.updSvc h0 rfl rfl rfl (setAt_length _ _ _) rfl))

theorem keeps_setPort {s0 : State} (s : State) (q : Nat) (p : Port) (h0 : Keeps s0 s) : Keeps s0 (s.setPort q p) :=
  Keeps.updPorts h0 rfl rfl (setAt_length q p s.ports) rfl rfl

theorem keeps_modPort {s0 : State} (s : State) (q : Nat) (f : Port → Port) (h0 : Keeps s0 s) :
    Keeps s0 (State.modPort s q f) := by
  unfold State.modPort
  repeat' first
    | with_reducible assumption | with_reducible apply keeps_setPort | split | dsimp only

theorem keeps_modBundle {s0 : State} (s : State) (q b : Nat) (f : Bundle → Bundle) (h0 : Keeps s0 s) :
    Keeps s0 (State.modBundle s q b f) := by
  unfold State.modBundle
  repeat' first
    | with_reducible assumption | with_reducible apply keeps_modPort | split | dsimp only

theorem keeps_modLane {s0 : State} (s : State) (q l : Nat) (f : Lane → Lane) (h0 : Keeps s0 s) :
    Keeps s0 (State.modLane s q l f) := by
  unfold State.modLane
  repeat' first
    | with_reducible assumption | with_reducible apply keeps_modPort | split | dsimp only

theorem keeps_pbump {s0 : State} (s : State) (base q sub n : Nat) (h0 : Keeps s0 s) :
    Keeps s0 (State.pbump s base q sub n) := by
  unfold State.pbump
  repeat' first
    | with_reducible assumption | with_reducible apply keeps_bump | split | dsimp only

theorem keeps_pbump64 {s0 : State} (s : State) (base q sub n : Nat) (h0 : Keeps s0 s) :
    Keeps s0 (State.pbump64 s base q sub n) := by
  unfold State.pbump64
  repeat' first
    | with_reducible assumption | with_reducible apply keeps_bump64 | split | dsimp only

theorem keeps_onPort {s0 : State} (s : State) (q : Nat) (t : State) (h : Keeps s0 t) : KeepsO s0 (onPort s q t) :=
  KeepsO.ite (KeepsO.next h) (KeepsO.fault _)

theorem keeps_onBundle {s0 : State} (s : State) (q b : Nat) (t : State) (h : Keeps s0 t) :
    KeepsO s0 (onBundle s q b t) :=
  KeepsO.ite (KeepsO.next h) (KeepsO.fault _)

theorem keeps_onLane {s0 : State} (s : State) (q l : Nat) (t : State) (h : Keeps s0 t) : KeepsO s0 (onLane s q l t) :=
  KeepsO.ite (KeepsO.next h) (KeepsO.fault _)

theorem keeps_goto {s0 : State} (s : State) (q : Nat) (st : LinkState) (h0 : Keeps s0 s) :
    Keeps s0 (State.goto s q st) := by
  unfold State.goto
  repeat' first
    | with_reducible assumption | with_reducible apply keeps_evt | with_reducible apply keeps_modPort
    | with_reducible apply keeps_pbump | with_reducible apply keeps_put | with_reducible apply keeps_tev
    | with_reducible apply Keeps.ite | split | dsimp only

theorem keeps_countStatus {s0 : State} (s : State) (st : BitVec 8) (h0 : Keeps s0 s) :
    Keeps s0 (State.countStatus s st) := by
  unfold State.countStatus
  repeat' first
    | with_reducible assumption | with_reducible apply keeps_bumpCount | split | dsimp only

theorem keeps_toIfi {s0 : State} (s : State) (ch : EgCh) (t : Txn) (h0 : Keeps s0 s) :
    Keeps s0 (State.toIfi s ch t) := by
  unfold State.toIfi
  repeat' first
    | with_reducible assumption | fail_if_no_progress with_reducible apply Keeps.record | split | dsimp only

end Sys2Proof.Machine
end

