-- ==== Sys2Proof/Laws/KeepsLinkOps.lean ====
section
/-!
SUPPORT. The functions of Machine/LinkOps.lean keep what every command keeps.
-/

namespace Sys2Proof.Machine
open Sys2Proof

set_option linter.all false

theorem keeps_clearV {s0 : State} (s : State) (q : Nat) (h0 : Keeps s0 s) : Keeps s0 (s.clearV q) := by
  refine Keeps.updAlm (u := s.modPort q clearVFields) (keeps_modPort _ _ _ h0) rfl rfl rfl rfl ?_
  intro h
  exact foldl_mdel_wf (fun e : Nat × Nat => ekey e.1 e.2) _ h

theorem keeps_strike {s0 : State} (s : State) (q rank : Nat) (h0 : Keeps s0 s) : Keeps s0 (State.strike s q rank) := by
  unfold State.strike
  repeat' first
    | with_reducible assumption | with_reducible apply keeps_modPort | split | dsimp only

theorem keeps_sendCode {s0 : State} (s : State) (q : Nat) (bundle : Option Nat) (code arg : Nat) (h0 : Keeps s0 s) :
    Keeps s0 (State.sendCode s q bundle code arg) := by
  unfold State.sendCode
  repeat' first
    | with_reducible assumption | with_reducible apply keeps_modPort | with_reducible apply Keeps.ite | split
    | dsimp only

theorem keeps_sendTrain {s0 : State} (s : State) (q : Nat) (bs : List Nat) (m : BitVec 31) (h0 : Keeps s0 s) :
    Keeps s0 (State.sendTrain s q bs m) := by
  unfold State.sendTrain
  repeat' first
    | with_reducible assumption | with_reducible apply keeps_modBundle | with_reducible apply Keeps.foldl
    | with_reducible intro _ _ _ | with_reducible intro _ _ | with_reducible intro _ | split | dsimp only

theorem keeps_sendParam {s0 : State} (s : State) (q : Nat) (m : ParamMsg) (h0 : Keeps s0 s) :
    Keeps s0 (State.sendParam s q m) := by
  unfold State.sendParam
  repeat' first
    | with_reducible assumption | with_reducible apply keeps_emit | with_reducible apply keeps_modPort | split
    | dsimp only

theorem keeps_modPair {s0 : State} (s : State) (k : Nat) (f : Pair → Pair) (h0 : Keeps s0 s) :
    Keeps s0 (State.modPair s k f) := by
  unfold State.modPair
  repeat' first
    | with_reducible assumption | fail_if_no_progress with_reducible apply Keeps.record | split | dsimp only

theorem keeps_setRole {s0 : State} (s : State) (k q : Nat) (r : Role) (h0 : Keeps s0 s) :
    Keeps s0 (setRole s k q r) := by
  unfold setRole
  repeat' first
    | with_reducible assumption | with_reducible apply keeps_modPair | split | dsimp only

theorem keeps_leavePair {s0 : State} (s : State) (q : Nat) (h0 : Keeps s0 s) : Keeps s0 (leavePair s q) := by
  unfold leavePair
  repeat' first
    | with_reducible assumption | with_reducible apply keeps_bump | with_reducible apply keeps_modPair
    | with_reducible apply keeps_setRole | with_reducible apply Keeps.ite | split | dsimp only

theorem keeps_stopWith {s0 : State} (f : Port → Port) (s : State) (q : Nat) (h0 : Keeps s0 s) :
    Keeps s0 (stopWith f s q) := by
  unfold stopWith
  repeat' first
    | with_reducible assumption | with_reducible apply keeps_modPort | with_reducible apply Keeps.ite | split
    | dsimp only

theorem keeps_stopLink {s0 : State} (s : State) (q : Nat) (h0 : Keeps s0 s) : Keeps s0 (stopLink s q) := by
  unfold stopLink
  repeat' first
    | with_reducible assumption | with_reducible apply keeps_stopWith | split | dsimp only

theorem keeps_haltLink {s0 : State} (s : State) (q : Nat) (h0 : Keeps s0 s) : Keeps s0 (haltLink s q) := by
  unfold haltLink
  repeat' first
    | with_reducible assumption | with_reducible apply keeps_stopWith | split | dsimp only

theorem keeps_startCore {s0 : State} (s : State) (h0 : Keeps s0 s) : Keeps s0 (startCore s) := by
  unfold startCore
  repeat' first
    | with_reducible assumption | with_reducible apply Keeps.ite
    | fail_if_no_progress with_reducible apply Keeps.record | split | dsimp only

theorem keeps_startWake {s0 : State} (own : Bool) (s : State) (q : Nat) (h0 : Keeps s0 s) :
    Keeps s0 (startWake own s q) := by
  unfold startWake
  repeat' first
    | with_reducible assumption | with_reducible apply keeps_bump | with_reducible apply keeps_modPort
    | with_reducible apply keeps_startCore | with_reducible apply Keeps.ite | split | dsimp only

theorem keeps_wakePort {s0 : State} (s : State) (q : Nat) (h0 : Keeps s0 s) : Keeps s0 (wakePort s q) := by
  unfold wakePort
  repeat' first
    | with_reducible assumption | with_reducible apply keeps_startWake | split | dsimp only

theorem keeps_answerWake {s0 : State} (s : State) (q : Nat) (h0 : Keeps s0 s) : Keeps s0 (answerWake s q) := by
  unfold answerWake
  repeat' first
    | with_reducible assumption | with_reducible apply keeps_startWake | split | dsimp only

theorem keeps_enterFault {s0 : State} (s : State) (q : Nat) (h0 : Keeps s0 s) : Keeps s0 (enterFault s q) := by
  unfold enterFault
  repeat' first
    | with_reducible assumption | with_reducible apply keeps_goto | with_reducible apply keeps_irq
    | with_reducible apply keeps_modPort | with_reducible apply keeps_service | with_reducible apply keeps_haltLink
    | split | dsimp only

theorem keeps_enterDetect {s0 : State} (s : State) (q : Nat) (h0 : Keeps s0 s) : Keeps s0 (enterDetect s q) := by
  unfold enterDetect
  repeat' first
    | with_reducible assumption | with_reducible apply keeps_goto | with_reducible apply keeps_modPort
    | with_reducible apply keeps_stopLink | split | dsimp only

theorem keeps_sendStart {s0 : State} (s : State) (q : Nat) (h0 : Keeps s0 s) : Keeps s0 (sendStart s q) := by
  unfold sendStart
  repeat' first
    | with_reducible assumption | with_reducible apply keeps_sendTrain | split | dsimp only

theorem keeps_beginAttempt {s0 : State} (s : State) (q : Nat) (fast : Bool) (h0 : Keeps s0 s) :
    Keeps s0 (beginAttempt s q fast) := by
  unfold beginAttempt
  repeat' first
    | with_reducible assumption | with_reducible apply keeps_bump | with_reducible apply keeps_goto
    | with_reducible apply keeps_modPort | with_reducible apply keeps_enterFault
    | with_reducible apply keeps_sendStart | with_reducible apply keeps_stopLink | with_reducible apply Keeps.ite
    | split | dsimp only

theorem keeps_unitLeaves {s0 : State} (s : State) (q : Nat) (h0 : Keeps s0 s) : Keeps s0 (unitLeaves s q) := by
  unfold unitLeaves
  repeat' first
    | with_reducible assumption | with_reducible apply keeps_clearV | with_reducible apply keeps_beginAttempt
    | with_reducible apply keeps_enterDetect | with_reducible apply keeps_leavePair | with_reducible apply Keeps.ite
    | split | dsimp only

theorem keeps_sendRequest {s0 : State} (s : State) (q : Nat) (full : Bool) (h0 : Keeps s0 s) :
    Keeps s0 (sendRequest s q full) := by
  unfold sendRequest
  repeat' first
    | with_reducible assumption | with_reducible apply keeps_sendCode | split | dsimp only

theorem keeps_linkFull {s0 : State} (s : State) (q cause : Nat) (own fullOnly : Bool) (h0 : Keeps s0 s) :
    Keeps s0 (linkFull s q cause own fullOnly) := by
  unfold linkFull
  repeat' first
    | with_reducible assumption | with_reducible apply keeps_clearV | with_reducible apply keeps_pbump
    | with_reducible apply keeps_put | with_reducible apply keeps_beginAttempt
    | with_reducible apply keeps_enterDetect | with_reducible apply keeps_leavePair
    | with_reducible apply keeps_sendRequest | with_reducible apply Keeps.ite | split | dsimp only

theorem keeps_dropRetrain {s0 : State} (s : State) (q : Nat) (h0 : Keeps s0 s) : Keeps s0 (dropRetrain s q) := by
  unfold dropRetrain
  repeat' first
    | with_reducible assumption | with_reducible apply keeps_modPort | with_reducible apply Keeps.ite | split
    | dsimp only

theorem keeps_requestFull {s0 : State} (s : State) (q cause : Nat) (own : Bool) (h0 : Keeps s0 s) :
    Keeps s0 (requestFull s q cause own) := by
  unfold requestFull
  repeat' first
    | with_reducible assumption | with_reducible apply keeps_strike | with_reducible apply keeps_dropRetrain
    | with_reducible apply keeps_linkFull | with_reducible apply Keeps.ite | split | dsimp only

theorem keeps_beginRetrain {s0 : State} (s : State) (q : Nat) (own : Bool) (h0 : Keeps s0 s) :
    Keeps s0 (beginRetrain s q own) := by
  unfold beginRetrain
  repeat' first
    | with_reducible assumption | with_reducible apply keeps_clearV | with_reducible apply keeps_goto
    | with_reducible apply keeps_modPort | with_reducible apply keeps_enterFault
    | with_reducible apply keeps_leavePair | with_reducible apply keeps_sendRequest
    | with_reducible apply keeps_sendStart | with_reducible apply keeps_stopLink | with_reducible apply Keeps.ite
    | split | dsimp only

theorem keeps_requestRetrain {s0 : State} (s : State) (q : Nat) (own : Bool) (h0 : Keeps s0 s) :
    Keeps s0 (requestRetrain s q own) := by
  unfold requestRetrain
  repeat' first
    | with_reducible assumption | with_reducible apply keeps_pbump | with_reducible apply keeps_strike
    | with_reducible apply keeps_beginRetrain | with_reducible apply keeps_unitLeaves
    | with_reducible apply Keeps.ite | split | dsimp only

theorem keeps_retrainFails {s0 : State} (s : State) (q : Nat) (h0 : Keeps s0 s) : Keeps s0 (retrainFails s q) := by
  unfold retrainFails
  repeat' first
    | with_reducible assumption | with_reducible apply keeps_goto | with_reducible apply keeps_modPort
    | with_reducible apply keeps_enterFault | with_reducible apply keeps_sendStart | with_reducible apply Keeps.ite
    | split | dsimp only

theorem keeps_attemptFails {s0 : State} (s : State) (q reason : Nat) (h0 : Keeps s0 s) :
    Keeps s0 (attemptFails s q reason) := by
  unfold attemptFails
  repeat' first
    | with_reducible assumption | with_reducible apply keeps_put | with_reducible apply keeps_strike
    | with_reducible apply keeps_beginAttempt | with_reducible apply keeps_retrainFails
    | with_reducible apply Keeps.ite | split | dsimp only

theorem keeps_partnerLost {s0 : State} (s : State) (q : Nat) (h0 : Keeps s0 s) : Keeps s0 (partnerLost s q) := by
  unfold partnerLost
  repeat' first
    | with_reducible assumption | with_reducible apply keeps_goto | with_reducible apply keeps_modPort
    | with_reducible apply keeps_strike | with_reducible apply keeps_leavePair | with_reducible apply keeps_stopLink
    | with_reducible apply keeps_unitLeaves | with_reducible apply Keeps.ite | split | dsimp only

theorem keeps_enterOff {s0 : State} (s : State) (q : Nat) (h0 : Keeps s0 s) : Keeps s0 (enterOff s q) := by
  unfold enterOff
  repeat' first
    | with_reducible assumption | with_reducible apply keeps_clearV | with_reducible apply keeps_goto
    | with_reducible apply keeps_modPort | with_reducible apply keeps_haltLink | with_reducible apply keeps_leavePair
    | split | dsimp only

theorem keeps_leaveOff {s0 : State} (s : State) (q : Nat) (h0 : Keeps s0 s) : Keeps s0 (leaveOff s q) := by
  unfold leaveOff
  repeat' first
    | with_reducible assumption | with_reducible apply keeps_enterDetect | with_reducible apply Keeps.ite | split
    | dsimp only

theorem keeps_acceptResetHello {s0 : State} (s : State) (q : Nat) (h0 : Keeps s0 s) :
    Keeps s0 (acceptResetHello s q) := by
  unfold acceptResetHello
  repeat' first
    | with_reducible assumption | with_reducible apply keeps_modPort | with_reducible apply keeps_pbump
    | with_reducible apply keeps_strike | with_reducible apply keeps_enterDetect
    | with_reducible apply keeps_linkFull | with_reducible apply Keeps.ite | split | dsimp only

theorem keeps_acceptHoldHello {s0 : State} (s : State) (q : Nat) (h0 : Keeps s0 s) :
    Keeps s0 (acceptHoldHello s q) := by
  unfold acceptHoldHello
  repeat' first
    | with_reducible assumption | with_reducible apply keeps_linkFull | with_reducible apply Keeps.ite | split
    | dsimp only

end Sys2Proof.Machine
end

