-- ==== Sys2Proof/Laws/KeepsRoute.lean ====
section
/-!
SUPPORT. The functions of Machine/Route.lean keep what every command keeps.
-/

namespace Sys2Proof.Machine
open Sys2Proof

set_option linter.all false

theorem keeps_creditDie {s0 : State} (s : State) (ch : IngCh) (n : Nat) (h0 : Keeps s0 s) :
    Keeps s0 (State.creditDie s ch n) := by
  unfold State.creditDie
  repeat' first
    | with_reducible assumption | with_reducible apply keeps_emit | with_reducible apply Keeps.ite
    | fail_if_no_progress with_reducible apply Keeps.record | split | dsimp only

theorem keeps_creditLink {s0 : State} (s : State) (q v n : Nat) (h0 : Keeps s0 s) :
    Keeps s0 (State.creditLink s q v n) := by
  unfold State.creditLink
  repeat' first
    | with_reducible assumption | with_reducible apply keeps_modPort | split | dsimp only

theorem keeps_putAt {s0 : State} (s : State) (pl : Place) (w : Waiting) (h0 : Keeps s0 s) :
    Keeps s0 (putAt s pl w) := by
  unfold putAt
  repeat' first
    | with_reducible assumption | with_reducible apply keeps_modPort
    | fail_if_no_progress with_reducible apply Keeps.record | split | dsimp only

theorem keeps_takeAt {s0 : State} (s : State) (pl : Place) (h0 : Keeps s0 s) : Keeps s0 (takeAt s pl) := by
  unfold takeAt
  repeat' first
    | with_reducible assumption | with_reducible apply keeps_creditDie | with_reducible apply keeps_creditLink
    | with_reducible apply keeps_modPort | fail_if_no_progress with_reducible apply Keeps.record | split | dsimp only

theorem keeps_bumpSeq {s0 : State} (s : State) (h0 : Keeps s0 s) : Keeps s0 (State.bumpSeq s) := by
  unfold State.bumpSeq
  repeat' first
    | with_reducible assumption | fail_if_no_progress with_reducible apply Keeps.record | split | dsimp only

theorem keeps_queueOut {s0 : State} (s : State) (route : List Nat) (w : Waiting) (h0 : Keeps s0 s) :
    Keeps s0 (queueOut s route w) := by
  unfold queueOut
  repeat' first
    | with_reducible assumption | with_reducible apply keeps_bumpSeq | with_reducible apply keeps_modPort | split
    | dsimp only

theorem keeps_handOver {s0 : State} (s : State) (t : Txn) (h0 : Keeps s0 s) : Keeps s0 (handOver s t) := by
  unfold handOver
  repeat' first
    | with_reducible assumption | with_reducible apply keeps_bumpSeq
    | fail_if_no_progress with_reducible apply Keeps.record | split | dsimp only

theorem keeps_sendOut {s0 : State} (s : State) (t : Txn) (h0 : Keeps s0 s) : Keeps s0 (sendOut s t) := by
  unfold sendOut
  repeat' first
    | with_reducible assumption | with_reducible apply keeps_handOver | with_reducible apply keeps_queueOut | split
    | dsimp only

theorem keeps_carryAt {s0 : State} (s : State) (pl : Place) (w : Waiting) (t : Txn) (h0 : Keeps s0 s) :
    Keeps s0 (carryAt s pl w t) := by
  unfold carryAt
  repeat' first
    | with_reducible assumption | with_reducible apply keeps_creditDie | with_reducible apply keeps_handOver
    | with_reducible apply keeps_putAt | with_reducible apply keeps_takeAt | split | dsimp only

theorem keeps_answerRemote {s0 : State} (s : State) (t : Txn) (status : BitVec 8) (rval : BitVec 32) (bytes : List Byte) (h0 : Keeps s0 s) :
    Keeps s0 (answerRemote s t status rval bytes) := by
  unfold answerRemote
  repeat' first
    | with_reducible assumption | with_reducible apply keeps_countStatus | with_reducible apply keeps_sendOut | split
    | dsimp only

theorem keeps_finish {s0 : State} (s : State) (seq : Nat) (h0 : Keeps s0 s) : Keeps s0 (State.finish s seq) := by
  unfold State.finish
  repeat' first
    | with_reducible assumption | fail_if_no_progress with_reducible apply Keeps.record | split | dsimp only

theorem keeps_presentCpl {s0 : State} (s : State) (reqOpc : BitVec 8) (rqid : BitVec 16) (t : Txn) (frees : Option (Nat × Nat)) (h0 : Keeps s0 s) :
    Keeps s0 (presentCpl s reqOpc rqid t frees) := by
  unfold presentCpl
  repeat' first
    | with_reducible assumption | fail_if_no_progress with_reducible apply Keeps.record | split | dsimp only

theorem keeps_answerSource {s0 : State} (s : State) (w : Waiting) (status : BitVec 8) (rval : BitVec 32) (bytes : List Byte) (h0 : Keeps s0 s) :
    Keeps s0 (answerSource s w status rval bytes) := by
  unfold answerSource
  repeat' first
    | with_reducible assumption | with_reducible apply keeps_countStatus | with_reducible apply keeps_finish
    | with_reducible apply keeps_presentCpl | split | dsimp only

theorem keeps_answerAt {s0 : State} (s : State) (pl : Place) (w : Waiting) (status : BitVec 8) (rval : BitVec 32) (bytes : List Byte) (h0 : Keeps s0 s) :
    Keeps s0 (answerAt s pl w status rval bytes) := by
  unfold answerAt
  repeat' first
    | with_reducible assumption | with_reducible apply keeps_answerRemote | with_reducible apply keeps_answerSource
    | with_reducible apply keeps_takeAt | with_reducible apply Keeps.ite | split | dsimp only

theorem keeps_presentInb {s0 : State} (s : State) (t : Txn) (h0 : Keeps s0 s) : Keeps s0 (presentInb s t) := by
  unfold presentInb
  repeat' first
    | with_reducible assumption | with_reducible apply keeps_toIfi
    | fail_if_no_progress with_reducible apply Keeps.record | split | dsimp only

theorem keeps_setTag {s0 : State} (s : State) (q t : Nat) (i : TagInfo) (h0 : Keeps s0 s) :
    Keeps s0 (State.setTag s q t i) := by
  unfold State.setTag
  repeat' first
    | with_reducible assumption | with_reducible apply keeps_modPort | with_reducible apply keeps_put
    | with_reducible apply Keeps.ite | fail_if_no_progress with_reducible apply Keeps.record | split | dsimp only

theorem keeps_freeTagAt {s0 : State} (s : State) (q t : Nat) (h0 : Keeps s0 s) : Keeps s0 (State.freeTagAt s q t) := by
  unfold State.freeTagAt
  repeat' first
    | with_reducible assumption | with_reducible apply keeps_modPort | with_reducible apply Keeps.ite
    | fail_if_no_progress with_reducible apply Keeps.record | split | dsimp only

theorem keeps_freeOf {s0 : State} (s : State) (f : Option (Nat × Nat)) (h0 : Keeps s0 s) : Keeps s0 (freeOf s f) := by
  unfold freeOf
  repeat' first
    | with_reducible assumption | with_reducible apply keeps_freeTagAt | split | dsimp only

theorem keeps_answerFreeing {s0 : State} (s : State) (t : Txn) (status : BitVec 8) (bytes : List Byte) (f : Option (Nat × Nat)) (h0 : Keeps s0 s) :
    Keeps s0 (answerFreeing s t status bytes f) := by
  unfold answerFreeing
  repeat' first
    | with_reducible assumption | with_reducible apply keeps_countStatus | with_reducible apply keeps_freeOf
    | with_reducible apply keeps_queueOut | with_reducible apply keeps_sendOut | split | dsimp only

end Sys2Proof.Machine
end

