-- ==== Sys2Proof/Laws/KeepsTraining.lean ====
section
/-!
SUPPORT. The functions of Machine/Training.lean keep what every command keeps.
-/

namespace Sys2Proof.Machine
open Sys2Proof

set_option linter.all false

theorem keeps_settlePathDelay {s0 : State} (s : State) (q : Nat) (h0 : Keeps s0 s) :
    Keeps s0 (settlePathDelay s q) := by
  unfold settlePathDelay
  repeat' first
    | with_reducible assumption | with_reducible apply keeps_modPort | with_reducible apply keeps_put
    | with_reducible apply keeps_service | with_reducible apply Keeps.ite | split | dsimp only

theorem keeps_chooseWidth {s0 : State} (s : State) (q : Nat) (h0 : Keeps s0 s) : Keeps s0 (chooseWidth s q) := by
  unfold chooseWidth
  repeat' first
    | with_reducible assumption | with_reducible apply keeps_modPort | with_reducible apply keeps_service
    | with_reducible apply Keeps.ite | split | dsimp only

theorem keeps_sendDone {s0 : State} (s : State) (q : Nat) (h0 : Keeps s0 s) : Keeps s0 (sendDone s q) := by
  unfold sendDone
  repeat' first
    | with_reducible assumption | with_reducible apply keeps_modPort | with_reducible apply keeps_sendTrain
    | with_reducible apply Keeps.ite | split | dsimp only

theorem keeps_enterParam {s0 : State} (s : State) (q : Nat) (h0 : Keeps s0 s) : Keeps s0 (enterParam s q) := by
  unfold enterParam
  repeat' first
    | with_reducible assumption | with_reducible apply keeps_goto | with_reducible apply keeps_modPort
    | with_reducible apply keeps_sendParam | split | dsimp only

theorem keeps_endBroken {s0 : State} (s : State) (q : Nat) (fullOnly : Bool) (h0 : Keeps s0 s) :
    Keeps s0 (endBroken s q fullOnly) := by
  unfold endBroken
  repeat' first
    | with_reducible assumption | with_reducible apply keeps_bump | with_reducible apply keeps_strike
    | with_reducible apply keeps_linkFull | with_reducible apply Keeps.ite | split | dsimp only

theorem keeps_trainingDone {s0 : State} (s : State) (q : Nat) (h0 : Keeps s0 s) : Keeps s0 (trainingDone s q) := by
  unfold trainingDone
  repeat' first
    | with_reducible assumption | with_reducible apply keeps_modPort | with_reducible apply keeps_put
    | with_reducible apply keeps_endBroken | with_reducible apply keeps_enterDetect
    | with_reducible apply keeps_enterParam | with_reducible apply Keeps.ite | split | dsimp only

theorem keeps_beginStep {s0 : State} (s : State) (q : Nat) (st : TrainStep) (h0 : Keeps s0 s) :
    Keeps s0 (beginStep s q st) := by
  unfold beginStep
  repeat' first
    | with_reducible assumption | with_reducible apply keeps_goto | with_reducible apply keeps_modPort
    | with_reducible apply keeps_sendTrain | with_reducible apply Keeps.ite | with_reducible apply Keeps.foldl
    | with_reducible intro _ _ _ | with_reducible intro _ _ | with_reducible intro _ | split | dsimp only

theorem keeps_advanceStep {s0 : State} (s : State) (q : Nat) (h0 : Keeps s0 s) : Keeps s0 (advanceStep s q) := by
  unfold advanceStep
  repeat' first
    | with_reducible assumption | with_reducible apply keeps_modPort | with_reducible apply keeps_beginStep
    | with_reducible apply keeps_settlePathDelay | with_reducible apply keeps_trainingDone
    | with_reducible apply Keeps.ite | split | dsimp only

theorem keeps_lateMessage {s0 : State} (s : State) (q : Nat) (h0 : Keeps s0 s) : Keeps s0 (lateMessage s q) := by
  unfold lateMessage
  repeat' first
    | with_reducible assumption | with_reducible apply keeps_linkFull | with_reducible apply Keeps.ite | split
    | dsimp only

theorem keeps_leaveDetect {s0 : State} (s : State) (q : Nat) (h0 : Keeps s0 s) : Keeps s0 (leaveDetect s q) := by
  unfold leaveDetect
  repeat' first
    | with_reducible assumption | with_reducible apply keeps_modPort | with_reducible apply keeps_beginAttempt
    | with_reducible apply Keeps.ite | split | dsimp only

theorem keeps_noneRemains {s0 : State} (s : State) (q : Nat) (h0 : Keeps s0 s) : Keeps s0 (noneRemains s q) := by
  unfold noneRemains
  repeat' first
    | with_reducible assumption | with_reducible apply keeps_endBroken | with_reducible apply keeps_enterDetect
    | with_reducible apply Keeps.ite | split | dsimp only

end Sys2Proof.Machine
end

