-- ==== Sys2Proof/Laws/KeepsWirePhy.lean ====
section
/-!
SUPPORT. The functions of Machine/WirePhy.lean keep what every command keeps.
-/

namespace Sys2Proof.Machine
open Sys2Proof

set_option linter.all false

theorem keeps_detectHello {s0 : State} (s : State) (q b : Nat) (f : BitVec 32) (h0 : Keeps s0 s) :
    Keeps s0 (detectHello s q b f) := by
  unfold detectHello
  repeat' first
    | with_reducible assumption | with_reducible apply keeps_irq | with_reducible apply keeps_modBundle
    | with_reducible apply keeps_modPort | with_reducible apply keeps_pbump | with_reducible apply keeps_leaveDetect
    | with_reducible apply Keeps.ite | split | dsimp only

theorem keeps_actOnHello {s0 : State} (s : State) (q b : Nat) (f : BitVec 32) (h0 : Keeps s0 s) :
    Keeps s0 (actOnHello s q b f) := by
  unfold actOnHello
  repeat' first
    | with_reducible assumption | with_reducible apply keeps_acceptHoldHello
    | with_reducible apply keeps_acceptResetHello | with_reducible apply keeps_answerWake
    | with_reducible apply keeps_detectHello | with_reducible apply Keeps.ite | split | dsimp only

theorem keeps_receiveHello {s0 : State} (s : State) (q b : Nat) (f : BitVec 32) (h0 : Keeps s0 s) :
    Keeps s0 (receiveHello s q b f) := by
  unfold receiveHello
  repeat' first
    | with_reducible assumption | with_reducible apply keeps_modBundle | with_reducible apply keeps_actOnHello
    | with_reducible apply Keeps.ite | split | dsimp only

theorem keeps_execHelloFrame {s0 : State} (q : PortId) (b : BundleId) (frame : BitVec 32) (s : State) (h0 : Keeps s0 s) :
    KeepsO s0 (execHelloFrame q b frame s) := by
  unfold execHelloFrame
  repeat' first
    | with_reducible assumption | with_reducible apply keeps_onBundle | with_reducible apply keeps_receiveHello
    | with_reducible apply keeps_onBundle | split | dsimp only

theorem keeps_execResetHello {s0 : State} (q : PortId) (s : State) (h0 : Keeps s0 s) :
    KeepsO s0 (execResetHello q s) := by
  unfold execResetHello
  repeat' first
    | with_reducible assumption | with_reducible apply keeps_acceptResetHello | with_reducible apply keeps_onPort
    | with_reducible apply Keeps.ite | with_reducible apply keeps_onPort | split | dsimp only

theorem keeps_pllLocks {s0 : State} (s : State) (q : Nat) (h0 : Keeps s0 s) : Keeps s0 (pllLocks s q) := by
  unfold pllLocks
  repeat' first
    | with_reducible assumption | with_reducible apply keeps_modPort | with_reducible apply keeps_leaveDetect
    | with_reducible apply Keeps.ite | split | dsimp only

theorem keeps_execWtxPllLock {s0 : State} (q : PortId) (s : State) (h0 : Keeps s0 s) :
    KeepsO s0 (execWtxPllLock q s) := by
  unfold execWtxPllLock
  repeat' first
    | with_reducible assumption | with_reducible apply keeps_onPort | with_reducible apply keeps_pllLocks
    | with_reducible apply keeps_onPort | split | dsimp only

theorem keeps_receiveTrainStart {s0 : State} (s : State) (q : Nat) (fastOk : Bool) (h0 : Keeps s0 s) :
    Keeps s0 (receiveTrainStart s q fastOk) := by
  unfold receiveTrainStart
  repeat' first
    | with_reducible assumption | with_reducible apply keeps_modPort | with_reducible apply keeps_lateMessage
    | with_reducible apply Keeps.ite | split | dsimp only

theorem keeps_execTrainStart {s0 : State} (q : PortId) (fastOk : Bool) (s : State) (h0 : Keeps s0 s) :
    KeepsO s0 (execTrainStart q fastOk s) := by
  unfold execTrainStart
  repeat' first
    | with_reducible assumption | with_reducible apply keeps_onPort | with_reducible apply keeps_receiveTrainStart
    | with_reducible apply keeps_onPort | split | dsimp only

theorem keeps_receiveStepDone {s0 : State} (s : State) (q step : Nat) (h0 : Keeps s0 s) :
    Keeps s0 (receiveStepDone s q step) := by
  unfold receiveStepDone
  repeat' first
    | with_reducible assumption | with_reducible apply keeps_modPort | with_reducible apply keeps_advanceStep
    | with_reducible apply keeps_lateMessage | with_reducible apply Keeps.ite | split | dsimp only

theorem keeps_execStepDone {s0 : State} (q : PortId) (step : BitVec 4) (s : State) (h0 : Keeps s0 s) :
    KeepsO s0 (execStepDone q step s) := by
  unfold execStepDone
  repeat' first
    | with_reducible assumption | with_reducible apply keeps_onPort | with_reducible apply keeps_receiveStepDone
    | with_reducible apply keeps_onPort | split | dsimp only

theorem keeps_mapsExchanged {s0 : State} (s : State) (q : Nat) (h0 : Keeps s0 s) : Keeps s0 (mapsExchanged s q) := by
  unfold mapsExchanged
  repeat' first
    | with_reducible assumption | with_reducible apply keeps_advanceStep | with_reducible apply keeps_sendDone
    | with_reducible apply Keeps.ite | split | dsimp only

theorem keeps_receiveRepairMap {s0 : State} (s : State) (q b map : Nat) (tcrc : Bool) (h0 : Keeps s0 s) :
    Keeps s0 (receiveRepairMap s q b map tcrc) := by
  unfold receiveRepairMap
  repeat' first
    | with_reducible assumption | with_reducible apply keeps_modBundle | with_reducible apply keeps_sendTrain
    | with_reducible apply keeps_lateMessage | with_reducible apply Keeps.ite | split | dsimp only

theorem keeps_execRepairMap {s0 : State} (q : PortId) (b : BundleId) (map : BitVec 20) (tcrc : Bool) (s : State) (h0 : Keeps s0 s) :
    KeepsO s0 (execRepairMap q b map tcrc s) := by
  unfold execRepairMap
  repeat' first
    | with_reducible assumption | with_reducible apply keeps_onBundle | with_reducible apply keeps_receiveRepairMap
    | with_reducible apply keeps_onBundle | split | dsimp only

theorem keeps_receiveMapAck {s0 : State} (s : State) (q b map : Nat) (h0 : Keeps s0 s) :
    Keeps s0 (receiveMapAck s q b map) := by
  unfold receiveMapAck
  repeat' first
    | with_reducible assumption | with_reducible apply keeps_modBundle | with_reducible apply keeps_lateMessage
    | with_reducible apply keeps_mapsExchanged | with_reducible apply Keeps.ite | split | dsimp only

theorem keeps_execMapAck {s0 : State} (q : PortId) (b : BundleId) (map : BitVec 20) (s : State) (h0 : Keeps s0 s) :
    KeepsO s0 (execMapAck q b map s) := by
  unfold execMapAck
  repeat' first
    | with_reducible assumption | with_reducible apply keeps_onBundle | with_reducible apply keeps_receiveMapAck
    | with_reducible apply keeps_onBundle | split | dsimp only

theorem keeps_receiveAbort {s0 : State} (s : State) (q reason : Nat) (h0 : Keeps s0 s) :
    Keeps s0 (receiveAbort s q reason) := by
  unfold receiveAbort
  repeat' first
    | with_reducible assumption | with_reducible apply keeps_bump | with_reducible apply keeps_attemptFails
    | with_reducible apply keeps_lateMessage | with_reducible apply Keeps.ite | split | dsimp only

theorem keeps_execTrainingAbort {s0 : State} (q : PortId) (reason : BitVec 8) (s : State) (h0 : Keeps s0 s) :
    KeepsO s0 (execTrainingAbort q reason s) := by
  unfold execTrainingAbort
  repeat' first
    | with_reducible assumption | with_reducible apply keeps_onPort | with_reducible apply keeps_receiveAbort
    | with_reducible apply keeps_onPort | split | dsimp only

theorem keeps_parityError {s0 : State} (s : State) (q : Nat) (h0 : Keeps s0 s) : Keeps s0 (parityError s q) := by
  unfold parityError
  repeat' first
    | with_reducible assumption | with_reducible apply keeps_bump | with_reducible apply keeps_sendTrain
    | with_reducible apply keeps_attemptFails | with_reducible apply Keeps.ite | split | dsimp only

theorem keeps_execFatalParityError {s0 : State} (q : PortId) (s : State) (h0 : Keeps s0 s) :
    KeepsO s0 (execFatalParityError q s) := by
  unfold execFatalParityError
  repeat' first
    | with_reducible assumption | with_reducible apply keeps_onPort | with_reducible apply keeps_parityError
    | with_reducible apply keeps_onPort | split | dsimp only

theorem keeps_execTrainingRetry {s0 : State} (q : PortId) (s : State) (h0 : Keeps s0 s) :
    KeepsO s0 (execTrainingRetry q s) := by
  unfold execTrainingRetry
  repeat' first
    | with_reducible assumption | with_reducible apply keeps_modPort | with_reducible apply keeps_onPort
    | with_reducible apply Keeps.ite | with_reducible apply keeps_onPort | split | dsimp only

theorem keeps_stepResult {s0 : State} (s : State) (q : Nat) (m : Measured) (h0 : Keeps s0 s) :
    Keeps s0 (stepResult s q m) := by
  unfold stepResult
  repeat' first
    | with_reducible assumption | with_reducible apply keeps_modPort | with_reducible apply keeps_chooseWidth | split
    | dsimp only

theorem keeps_loopResult {s0 : State} (s : State) (q : Nat) (h0 : Keeps s0 s) : Keeps s0 (loopResult s q) := by
  unfold loopResult
  repeat' first
    | with_reducible assumption | with_reducible apply keeps_modPort | with_reducible apply keeps_advanceStep
    | with_reducible apply keeps_attemptFails | with_reducible apply keeps_sendDone | with_reducible apply Keeps.ite
    | split | dsimp only

theorem keeps_finishOperation {s0 : State} (s : State) (q : Nat) (m : Measured) (h0 : Keeps s0 s) :
    Keeps s0 (finishOperation s q m) := by
  unfold finishOperation
  repeat' first
    | with_reducible assumption | with_reducible apply keeps_advanceStep | with_reducible apply keeps_loopResult
    | with_reducible apply keeps_mapsExchanged | with_reducible apply keeps_noneRemains
    | with_reducible apply keeps_sendDone | with_reducible apply keeps_stepResult | with_reducible apply Keeps.ite
    | split | dsimp only

theorem keeps_execTrainingStepComplete {s0 : State} (q : PortId) (m : Measured) (s : State) (h0 : Keeps s0 s) :
    KeepsO s0 (execTrainingStepComplete q m s) := by
  unfold execTrainingStepComplete
  repeat' first
    | with_reducible assumption | with_reducible apply keeps_finishOperation | with_reducible apply keeps_onPort
    | with_reducible apply keeps_onPort | split | dsimp only

theorem keeps_declareLoss {s0 : State} (s : State) (q b : Nat) (h0 : Keeps s0 s) : Keeps s0 (declareLoss s q b) := by
  unfold declareLoss
  repeat' first
    | with_reducible assumption | with_reducible apply keeps_bump | with_reducible apply keeps_modBundle
    | with_reducible apply keeps_modPort | with_reducible apply keeps_noneRemains
    | with_reducible apply keeps_partnerLost | with_reducible apply Keeps.ite | split | dsimp only

theorem keeps_execClockLoss {s0 : State} (q : PortId) (b : BundleId) (s : State) (h0 : Keeps s0 s) :
    KeepsO s0 (execClockLoss q b s) := by
  unfold execClockLoss
  repeat' first
    | with_reducible assumption | with_reducible apply keeps_declareLoss | with_reducible apply keeps_onBundle
    | with_reducible apply keeps_onBundle | split | dsimp only

theorem keeps_execTrkLoss {s0 : State} (q : PortId) (b : BundleId) (s : State) (h0 : Keeps s0 s) :
    KeepsO s0 (execTrkLoss q b s) := by
  unfold execTrkLoss
  repeat' first
    | with_reducible assumption | with_reducible apply keeps_declareLoss | with_reducible apply keeps_onBundle
    | with_reducible apply keeps_onBundle | split | dsimp only

theorem keeps_closeLossWindow {s0 : State} (s : State) (q : Nat) (h0 : Keeps s0 s) :
    Keeps s0 (closeLossWindow s q) := by
  unfold closeLossWindow
  repeat' first
    | with_reducible assumption | with_reducible apply keeps_bump | with_reducible apply keeps_modPort
    | with_reducible apply keeps_requestFull | with_reducible apply Keeps.ite | split | dsimp only

theorem keeps_execBundleLost {s0 : State} (q : PortId) (s : State) (h0 : Keeps s0 s) :
    KeepsO s0 (execBundleLost q s) := by
  unfold execBundleLost
  repeat' first
    | with_reducible assumption | with_reducible apply keeps_closeLossWindow | with_reducible apply keeps_onPort
    | with_reducible apply keeps_onPort | split | dsimp only

theorem keeps_execFifoDrift {s0 : State} (q : PortId) (b : BundleId) (s : State) (h0 : Keeps s0 s) :
    KeepsO s0 (execFifoDrift q b s) := by
  unfold execFifoDrift
  repeat' first
    | with_reducible assumption | with_reducible apply keeps_bump | with_reducible apply keeps_onBundle
    | with_reducible apply keeps_requestRetrain | with_reducible apply keeps_onBundle | split | dsimp only

theorem keeps_execKeepalive {s0 : State} (q : PortId) (b : BundleId) (s : State) (h0 : Keeps s0 s) :
    KeepsO s0 (execKeepalive q b s) := by
  unfold execKeepalive
  repeat' first
    | with_reducible assumption | with_reducible apply keeps_onBundle | with_reducible apply keeps_onBundle | split
    | dsimp only

theorem keeps_execTrkWordInvalid {s0 : State} (q : PortId) (b : BundleId) (word : BitVec 32) (s : State) (h0 : Keeps s0 s) :
    KeepsO s0 (execTrkWordInvalid q b word s) := by
  unfold execTrkWordInvalid
  repeat' first
    | with_reducible assumption | with_reducible apply keeps_bump | with_reducible apply keeps_onBundle
    | with_reducible apply Keeps.ite | with_reducible apply keeps_onBundle | split | dsimp only

theorem keeps_swapTrigger {s0 : State} (s : State) (q b wire : Nat) (h0 : Keeps s0 s) :
    Keeps s0 (swapTrigger s q b wire) := by
  unfold swapTrigger
  repeat' first
    | with_reducible assumption | with_reducible apply keeps_bump | with_reducible apply keeps_modBundle
    | with_reducible apply keeps_sendCode | with_reducible apply Keeps.ite | split | dsimp only

theorem keeps_execLiveSwapTrigger {s0 : State} (q : PortId) (b : BundleId) (wire : WireId) (s : State) (h0 : Keeps s0 s) :
    KeepsO s0 (execLiveSwapTrigger q b wire s) := by
  unfold execLiveSwapTrigger
  repeat' first
    | with_reducible assumption | with_reducible apply keeps_onBundle | with_reducible apply keeps_swapTrigger
    | with_reducible apply keeps_onBundle | split | dsimp only

theorem keeps_swapRepeat {s0 : State} (s : State) (q b wire : Nat) (h0 : Keeps s0 s) :
    Keeps s0 (swapRepeat s q b wire) := by
  unfold swapRepeat
  repeat' first
    | with_reducible assumption | with_reducible apply keeps_bump | with_reducible apply keeps_modBundle
    | with_reducible apply keeps_sendCode | with_reducible apply Keeps.ite | split | dsimp only

theorem keeps_execSpareReqRepeat {s0 : State} (q : PortId) (b : BundleId) (wire : WireId) (s : State) (h0 : Keeps s0 s) :
    KeepsO s0 (execSpareReqRepeat q b wire s) := by
  unfold execSpareReqRepeat
  repeat' first
    | with_reducible assumption | with_reducible apply keeps_onBundle | with_reducible apply keeps_swapRepeat
    | with_reducible apply keeps_onBundle | split | dsimp only

theorem keeps_spareRequested {s0 : State} (s : State) (q b wire : Nat) (h0 : Keeps s0 s) :
    Keeps s0 (spareRequested s q b wire) := by
  unfold spareRequested
  repeat' first
    | with_reducible assumption | with_reducible apply keeps_sendCode | with_reducible apply Keeps.ite | split
    | dsimp only

theorem keeps_execSpareReq {s0 : State} (q : PortId) (b : BundleId) (wire : WireId) (s : State) (h0 : Keeps s0 s) :
    KeepsO s0 (execSpareReq q b wire s) := by
  unfold execSpareReq
  repeat' first
    | with_reducible assumption | with_reducible apply keeps_onBundle | with_reducible apply keeps_spareRequested
    | with_reducible apply keeps_onBundle | split | dsimp only

theorem keeps_spareGranted {s0 : State} (s : State) (q b wire : Nat) (h0 : Keeps s0 s) :
    Keeps s0 (spareGranted s q b wire) := by
  unfold spareGranted
  repeat' first
    | with_reducible assumption | with_reducible apply keeps_bump | with_reducible apply keeps_modBundle
    | with_reducible apply Keeps.ite | split | dsimp only

theorem keeps_execSpareGo {s0 : State} (q : PortId) (b : BundleId) (wire : WireId) (s : State) (h0 : Keeps s0 s) :
    KeepsO s0 (execSpareGo q b wire s) := by
  unfold execSpareGo
  repeat' first
    | with_reducible assumption | with_reducible apply keeps_onBundle | with_reducible apply keeps_spareGranted
    | with_reducible apply keeps_onBundle | split | dsimp only

theorem keeps_spareFails {s0 : State} (s : State) (q b g : Nat) (h0 : Keeps s0 s) : Keeps s0 (spareFails s q b g) := by
  unfold spareFails
  repeat' first
    | with_reducible assumption | with_reducible apply keeps_modBundle | with_reducible apply Keeps.ite | split
    | dsimp only

theorem keeps_execSpareFailed {s0 : State} (q : PortId) (b : BundleId) (group : Fin 4) (s : State) (h0 : Keeps s0 s) :
    KeepsO s0 (execSpareFailed q b group s) := by
  unfold execSpareFailed
  repeat' first
    | with_reducible assumption | with_reducible apply keeps_onBundle | with_reducible apply keeps_spareFails
    | with_reducible apply keeps_onBundle | split | dsimp only

end Sys2Proof.Machine
end

