-- ==== Sys2Proof/Laws/KeepsSleep.lean ====
section
/-!
SUPPORT. The functions of Machine/Sleep.lean keep what every command keeps.
-/

namespace Sys2Proof.Machine
open Sys2Proof

set_option linter.all false

theorem keeps_sendSleep {s0 : State} (s : State) (q code : Nat) (t : SleepTarget) (h0 : Keeps s0 s) :
    Keeps s0 (sendSleep s q code t) := by
  unfold sendSleep
  repeat' first
    | with_reducible assumption | with_reducible apply keeps_sendCode | split | dsimp only

theorem keeps_stayAwake {s0 : State} (s : State) (q : Nat) (h0 : Keeps s0 s) : Keeps s0 (stayAwake s q) := by
  unfold stayAwake
  repeat' first
    | with_reducible assumption | with_reducible apply keeps_modPort | split | dsimp only

theorem keeps_receiveSleepReq {s0 : State} (s : State) (q : Nat) (t : SleepTarget) (h0 : Keeps s0 s) :
    Keeps s0 (receiveSleepReq s q t) := by
  unfold receiveSleepReq
  repeat' first
    | with_reducible assumption | with_reducible apply keeps_modPort | with_reducible apply keeps_sendSleep
    | with_reducible apply keeps_stayAwake | with_reducible apply Keeps.ite | split | dsimp only

theorem keeps_execSleepReq {s0 : State} (q : PortId) (target : SleepTarget) (s : State) (h0 : Keeps s0 s) :
    KeepsO s0 (execSleepReq q target s) := by
  unfold execSleepReq
  repeat' first
    | with_reducible assumption | with_reducible apply keeps_onPort | with_reducible apply keeps_receiveSleepReq
    | with_reducible apply keeps_onPort | split | dsimp only

theorem keeps_receiveSleepAck {s0 : State} (s : State) (q : Nat) (t : SleepTarget) (h0 : Keeps s0 s) :
    Keeps s0 (receiveSleepAck s q t) := by
  unfold receiveSleepAck
  repeat' first
    | with_reducible assumption | with_reducible apply keeps_modPort | with_reducible apply keeps_stayAwake
    | with_reducible apply Keeps.ite | split | dsimp only

theorem keeps_execSleepAck {s0 : State} (q : PortId) (target : SleepTarget) (s : State) (h0 : Keeps s0 s) :
    KeepsO s0 (execSleepAck q target s) := by
  unfold execSleepAck
  repeat' first
    | with_reducible assumption | with_reducible apply keeps_onPort | with_reducible apply keeps_receiveSleepAck
    | with_reducible apply keeps_onPort | split | dsimp only

theorem keeps_sleepRefused {s0 : State} (s : State) (q : Nat) (h0 : Keeps s0 s) : Keeps s0 (sleepRefused s q) := by
  unfold sleepRefused
  repeat' first
    | with_reducible assumption | with_reducible apply keeps_bump | with_reducible apply keeps_modPort
    | with_reducible apply Keeps.ite | split | dsimp only

theorem keeps_execSleepNak {s0 : State} (q : PortId) (s : State) (h0 : Keeps s0 s) : KeepsO s0 (execSleepNak q s) := by
  unfold execSleepNak
  repeat' first
    | with_reducible assumption | with_reducible apply keeps_onPort | with_reducible apply keeps_sleepRefused
    | with_reducible apply keeps_onPort | split | dsimp only

theorem keeps_execSleepReqTimeout {s0 : State} (q : PortId) (s : State) (h0 : Keeps s0 s) :
    KeepsO s0 (execSleepReqTimeout q s) := by
  unfold execSleepReqTimeout
  repeat' first
    | with_reducible assumption | with_reducible apply keeps_onPort | with_reducible apply keeps_sleepRefused
    | with_reducible apply keeps_onPort | split | dsimp only

theorem keeps_restoreV {s0 : State} (s : State) (q : Nat) (r : Retained) (h0 : Keeps s0 s) :
    Keeps s0 (restoreV s q r) := by
  unfold restoreV
  extract_lets u
  have hu : Keeps s0 u := keeps_modPort _ _ _ h0
  refine Keeps.updAlm hu rfl rfl rfl rfl ?_
  intro h
  exact foldl_wf _ (fun m x hm => by split; exacts [mdel_wf hm, mset_wf hm]) r.vEntries h

theorem keeps_sleepEnters {s0 : State} (s : State) (q : Nat) (h0 : Keeps s0 s) : Keeps s0 (sleepEnters s q) := by
  unfold sleepEnters
  repeat' first
    | with_reducible assumption | with_reducible apply keeps_clearV | with_reducible apply keeps_goto
    | with_reducible apply keeps_modPort | with_reducible apply keeps_stayAwake | with_reducible apply keeps_wakePort
    | with_reducible apply Keeps.ite | split | dsimp only

theorem keeps_execSleepEntry {s0 : State} (q : PortId) (s : State) (h0 : Keeps s0 s) :
    KeepsO s0 (execSleepEntry q s) := by
  unfold execSleepEntry
  repeat' first
    | with_reducible assumption | with_reducible apply keeps_onPort | with_reducible apply keeps_sleepEnters
    | with_reducible apply keeps_onPort | split | dsimp only

theorem keeps_wakeDone {s0 : State} (s : State) (q : Nat) (h0 : Keeps s0 s) : Keeps s0 (wakeDone s q) := by
  unfold wakeDone
  repeat' first
    | with_reducible assumption | with_reducible apply keeps_goto | with_reducible apply keeps_modPort
    | with_reducible apply keeps_put | with_reducible apply keeps_restoreV | with_reducible apply keeps_sendSleep
    | with_reducible apply Keeps.ite | split | dsimp only

theorem keeps_execNapWakePattern {s0 : State} (q : PortId) (s : State) (h0 : Keeps s0 s) :
    KeepsO s0 (execNapWakePattern q s) := by
  unfold execNapWakePattern
  repeat' first
    | with_reducible assumption | with_reducible apply keeps_answerWake | with_reducible apply keeps_onPort
    | with_reducible apply Keeps.ite | with_reducible apply keeps_onPort | split | dsimp only

theorem keeps_execNapWakeComplete {s0 : State} (q : PortId) (s : State) (h0 : Keeps s0 s) :
    KeepsO s0 (execNapWakeComplete q s) := by
  unfold execNapWakeComplete
  repeat' first
    | with_reducible assumption | with_reducible apply keeps_onPort | with_reducible apply keeps_wakeDone
    | with_reducible apply Keeps.ite | with_reducible apply keeps_onPort | split | dsimp only

theorem keeps_napTimeout {s0 : State} (s : State) (q : Nat) (silent : List Nat) (h0 : Keeps s0 s) :
    Keeps s0 (napTimeout s q silent) := by
  unfold napTimeout
  repeat' first
    | with_reducible assumption | with_reducible apply keeps_bump | with_reducible apply keeps_partnerLost
    | with_reducible apply keeps_requestFull | with_reducible apply keeps_wakeDone | with_reducible apply Keeps.ite
    | split | dsimp only

theorem keeps_execNapWakeTimeout {s0 : State} (q : PortId) (silent : List BundleId) (s : State) (h0 : Keeps s0 s) :
    KeepsO s0 (execNapWakeTimeout q silent s) := by
  unfold execNapWakeTimeout
  repeat' first
    | with_reducible assumption | with_reducible apply keeps_napTimeout | with_reducible apply keeps_onPort
    | with_reducible apply keeps_onPort | split | dsimp only

theorem keeps_dormantWakes {s0 : State} (s : State) (q : Nat) (ok : Bool) (h0 : Keeps s0 s) :
    Keeps s0 (dormantWakes s q ok) := by
  unfold dormantWakes
  repeat' first
    | with_reducible assumption | with_reducible apply keeps_modPort | with_reducible apply keeps_beginAttempt
    | with_reducible apply keeps_wakeDone | with_reducible apply Keeps.ite | split | dsimp only

theorem keeps_execDormantWakeComplete {s0 : State} (q : PortId) (ok : Bool) (s : State) (h0 : Keeps s0 s) :
    KeepsO s0 (execDormantWakeComplete q ok s) := by
  unfold execDormantWakeComplete
  repeat' first
    | with_reducible assumption | with_reducible apply keeps_dormantWakes | with_reducible apply keeps_onPort
    | with_reducible apply keeps_onPort | split | dsimp only

theorem keeps_execReachWakeComplete {s0 : State} (q : PortId) (ok : Bool) (s : State) (h0 : Keeps s0 s) :
    KeepsO s0 (execReachWakeComplete q ok s) := by
  unfold execReachWakeComplete
  repeat' first
    | with_reducible assumption | with_reducible apply keeps_dormantWakes | with_reducible apply keeps_onPort
    | with_reducible apply keeps_onPort | split | dsimp only

theorem keeps_execSignalDetect {s0 : State} (q : PortId) (s : State) (h0 : Keeps s0 s) :
    KeepsO s0 (execSignalDetect q s) := by
  unfold execSignalDetect
  repeat' first
    | with_reducible assumption | with_reducible apply keeps_answerWake | with_reducible apply keeps_onPort
    | with_reducible apply Keeps.ite | with_reducible apply keeps_onPort | split | dsimp only

theorem keeps_execPortWake {s0 : State} (q : PortId) (s : State) (h0 : Keeps s0 s) : KeepsO s0 (execPortWake q s) := by
  unfold execPortWake
  repeat' first
    | with_reducible assumption | with_reducible apply keeps_onPort | with_reducible apply keeps_wakePort
    | with_reducible apply keeps_onPort | split | dsimp only

theorem keeps_idleEnters {s0 : State} (s : State) (q : Nat) (h0 : Keeps s0 s) : Keeps s0 (idleEnters s q) := by
  unfold idleEnters
  repeat' first
    | with_reducible assumption | with_reducible apply keeps_modPort | with_reducible apply Keeps.ite | split
    | dsimp only

theorem keeps_execIdleEntry {s0 : State} (q : PortId) (s : State) (h0 : Keeps s0 s) :
    KeepsO s0 (execIdleEntry q s) := by
  unfold execIdleEntry
  repeat' first
    | with_reducible assumption | with_reducible apply keeps_idleEnters | with_reducible apply keeps_onPort
    | with_reducible apply keeps_onPort | split | dsimp only

theorem keeps_askSleep {s0 : State} (s : State) (q : Nat) (t : SleepTarget) (h0 : Keeps s0 s) :
    Keeps s0 (askSleep s q t) := by
  unfold askSleep
  repeat' first
    | with_reducible assumption | with_reducible apply keeps_modPort | with_reducible apply keeps_sendSleep
    | with_reducible apply Keeps.ite | split | dsimp only

theorem keeps_napExpires {s0 : State} (s : State) (q : Nat) (h0 : Keeps s0 s) : Keeps s0 (napExpires s q) := by
  unfold napExpires
  repeat' first
    | with_reducible assumption | with_reducible apply keeps_askSleep | with_reducible apply Keeps.ite | split
    | dsimp only

theorem keeps_execNapIdleExpiry {s0 : State} (q : PortId) (s : State) (h0 : Keeps s0 s) :
    KeepsO s0 (execNapIdleExpiry q s) := by
  unfold execNapIdleExpiry
  repeat' first
    | with_reducible assumption | with_reducible apply keeps_napExpires | with_reducible apply keeps_onPort
    | with_reducible apply keeps_onPort | split | dsimp only

theorem keeps_dormantExpires {s0 : State} (s : State) (q : Nat) (h0 : Keeps s0 s) : Keeps s0 (dormantExpires s q) := by
  unfold dormantExpires
  repeat' first
    | with_reducible assumption | with_reducible apply keeps_modPort | with_reducible apply keeps_askSleep
    | with_reducible apply keeps_wakePort | with_reducible apply Keeps.ite | split | dsimp only

theorem keeps_execDormantIdleExpiry {s0 : State} (q : PortId) (s : State) (h0 : Keeps s0 s) :
    KeepsO s0 (execDormantIdleExpiry q s) := by
  unfold execDormantIdleExpiry
  repeat' first
    | with_reducible assumption | with_reducible apply keeps_dormantExpires | with_reducible apply keeps_onPort
    | with_reducible apply keeps_onPort | split | dsimp only

end Sys2Proof.Machine
end

