-- ==== Sys2Proof/Laws/KeepsCalendar.lean ====
section
/-!
SUPPORT. The functions of Machine/Calendar.lean keep what every command keeps.
-/

namespace Sys2Proof.Machine
open Sys2Proof

set_option linter.all false

theorem keeps_presentSch {s0 : State} (s : State) (q : Nat) (slot : SlotId) (ten : Ten) (due : Nat) (cells : List Cell) (d : Nat) (h0 : Keeps s0 s) :
    Keeps s0 (presentSch s q slot ten due cells d) := by
  unfold presentSch
  repeat' first
    | with_reducible assumption | fail_if_no_progress with_reducible apply Keeps.record | split | dsimp only

theorem keeps_presentHead {s0 : State} (s : State) (kind q : Nat) (slot : SlotId) (ten : Ten) (reason : Nat) (epoch : Epoch) (due : Nat) (h0 : Keeps s0 s) :
    Keeps s0 (presentHead s kind q slot ten reason epoch due) := by
  unfold presentHead
  repeat' first
    | with_reducible assumption | with_reducible apply keeps_presentSch | split | dsimp only

theorem keeps_sendCtrl {s0 : State} (s : State) (q : Nat) (c : Cell) (h0 : Keeps s0 s) : Keeps s0 (sendCtrl s q c) := by
  unfold sendCtrl
  repeat' first
    | with_reducible assumption | with_reducible apply keeps_modPort | split | dsimp only

end Sys2Proof.Machine
end

