-- ==== Sys2Proof/Laws/KeepsPorts.lean ====
section
/-!
SUPPORT. The functions of Machine/Ports.lean keep what every command keeps.
-/

namespace Sys2Proof.Machine
open Sys2Proof

set_option linter.all false

theorem keeps_protocolError {s0 : State} (s : State) (h0 : Keeps s0 s) : Keeps s0 (protocolError s) := by
  unfold protocolError
  repeat' first
    | with_reducible assumption | with_reducible apply keeps_bump | with_reducible apply keeps_irq | split
    | dsimp only

theorem keeps_acceptIngress {s0 : State} (s : State) (ch : IngCh) (c : IfiCell) (rest : List IfiCell) (h0 : Keeps s0 s) :
    Keeps s0 (acceptIngress s ch c rest) := by
  unfold acceptIngress
  repeat' first
    | with_reducible assumption | with_reducible apply keeps_bumpSeq | with_reducible apply keeps_tev
    | with_reducible apply Keeps.ite | fail_if_no_progress with_reducible apply Keeps.record | split | dsimp only

theorem keeps_takeRun {s0 : State} (s : State) (ch : IngCh) (run : List IfiCell) (h0 : Keeps s0 s) :
    Keeps s0 (takeRun s ch run) := by
  unfold takeRun
  repeat' first
    | with_reducible assumption | with_reducible apply keeps_creditDie | with_reducible apply keeps_acceptIngress
    | with_reducible apply keeps_protocolError | with_reducible apply Keeps.ite | split | dsimp only

theorem keeps_execIfiIngressTransaction {s0 : State} (cells : List IfiCell) (s : State) (h0 : Keeps s0 s) :
    KeepsO s0 (execIfiIngressTransaction cells s) := by
  unfold execIfiIngressTransaction
  repeat' first
    | with_reducible assumption | with_reducible apply keeps_creditDie | with_reducible apply keeps_protocolError
    | with_reducible apply keeps_takeRun | with_reducible apply Keeps.foldl | with_reducible apply KeepsO.next
    | with_reducible apply KeepsO.fault | with_reducible apply KeepsO.ite
    | fail_if_no_progress with_reducible apply Keeps.record | with_reducible intro _ _ _ | with_reducible intro _ _
    | with_reducible intro _ | split | dsimp only

theorem keeps_countDelivery {s0 : State} (s : State) (q : Nat) (h : Cell) (h0 : Keeps s0 s) :
    Keeps s0 (countDelivery s q h) := by
  unfold countDelivery
  repeat' first
    | with_reducible assumption | with_reducible apply keeps_pbump64 | with_reducible apply keeps_put
    | with_reducible apply Keeps.ite | split | dsimp only

theorem keeps_presentCell {s0 : State} (s : State) (i : Nat) (h0 : Keeps s0 s) : Keeps s0 (presentCell s i) := by
  unfold presentCell
  repeat' first
    | with_reducible assumption | with_reducible apply keeps_emit | with_reducible apply keeps_tev
    | with_reducible apply keeps_countDelivery | with_reducible apply keeps_freeOf | with_reducible apply Keeps.ite
    | fail_if_no_progress with_reducible apply Keeps.record | split | dsimp only

theorem keeps_fillSch {s0 : State} (n : Nat) (s : State) (h0 : Keeps s0 s) : KeepsQ s0 (fillSch n s) := by
  induction n generalizing s with
  | zero => exact h0
  | succ n ih =>
    unfold fillSch
    split
    · split
      · exact h0
      · exact ih _ (keeps_presentCell _ _ h0)
    · exact h0

theorem keeps_fillRr {s0 : State} (n : Nat) (s : State) (h0 : Keeps s0 s) : Keeps s0 (fillRr n s) := by
  induction n generalizing s with
  | zero => exact h0
  | succ n ih =>
    unfold fillRr
    split
    · exact h0
    · split
      · exact ih _ (Keeps.record (keeps_presentCell _ _ h0))
      · exact h0

theorem keeps_egressFill {s0 : State} (s : State) (h0 : Keeps s0 s) : Keeps s0 (egressFill s) := by
  unfold egressFill
  repeat' first
    | with_reducible assumption | with_reducible apply keeps_fillRr | with_reducible apply keeps_fillSch
    | with_reducible apply Keeps.ite | split | dsimp only | with_reducible apply KeepsQ.proj

theorem keeps_execIfiEgressFill {s0 : State} (s : State) (h0 : Keeps s0 s) : KeepsO s0 (execIfiEgressFill s) := by
  unfold execIfiEgressFill
  repeat' first
    | with_reducible assumption | with_reducible apply keeps_egressFill | with_reducible apply KeepsO.next | split
    | dsimp only

theorem keeps_execIfiCreditReturn {s0 : State} (field : CreditField) (n : Nat) (s : State) (h0 : Keeps s0 s) :
    KeepsO s0 (execIfiCreditReturn field n s) := by
  unfold execIfiCreditReturn
  repeat' first
    | with_reducible assumption | with_reducible apply KeepsO.next | with_reducible apply KeepsO.ite
    | fail_if_no_progress with_reducible apply Keeps.record | split | dsimp only

theorem keeps_execIfiWake {s0 : State} (high : Bool) (s : State) (h0 : Keeps s0 s) :
    KeepsO s0 (execIfiWake high s) := by
  unfold execIfiWake
  repeat' first
    | with_reducible assumption | with_reducible apply keeps_startCore | with_reducible apply Keeps.ite
    | with_reducible apply KeepsO.next | fail_if_no_progress with_reducible apply Keeps.record | split | dsimp only

theorem keeps_takeEvt {s0 : State} (s : State) (code : BitVec 8) (ten : Ten) (h0 : Keeps s0 s) :
    Keeps s0 (takeEvt s code ten) := by
  unfold takeEvt
  repeat' first
    | with_reducible assumption | with_reducible apply keeps_emit | with_reducible apply keeps_tev | split
    | dsimp only

theorem keeps_execEvtUnknownCode {s0 : State} (ecode : BitVec 8) (s : State) (h0 : Keeps s0 s) :
    KeepsO s0 (execEvtUnknownCode ecode s) := by
  unfold execEvtUnknownCode
  repeat' first
    | with_reducible assumption | with_reducible apply keeps_protocolError | with_reducible apply keeps_takeEvt
    | with_reducible apply KeepsO.next | with_reducible apply KeepsO.ite | split | dsimp only

end Sys2Proof.Machine
end

