-- ==== Sys2Proof/Laws/KeepsLink.lean ====
section
/-!
SUPPORT. The functions of Machine/Link.lean keep what every command keeps.
-/

namespace Sys2Proof.Machine
open Sys2Proof

set_option linter.all false

theorem keeps_applyReturn {s0 : State} (s : State) (q v n : Nat) (h0 : Keeps s0 s) :
    Keeps s0 (applyReturn s q v n) := by
  unfold applyReturn
  repeat' first
    | with_reducible assumption | with_reducible apply keeps_modPair | with_reducible apply keeps_pbump
    | with_reducible apply keeps_setPort | with_reducible apply Keeps.ite | split | dsimp only

theorem keeps_freeAt {s0 : State} (s : State) (q n : Nat) (h0 : Keeps s0 s) : Keeps s0 (freeAt s q n) := by
  unfold freeAt
  repeat' first
    | with_reducible assumption | with_reducible apply keeps_modPort | split | dsimp only

theorem keeps_replayAgain {s0 : State} (s : State) (q cnt : Nat) (gone : Bool) (h0 : Keeps s0 s) :
    Keeps s0 (replayAgain s q cnt gone) := by
  unfold replayAgain
  repeat' first
    | with_reducible assumption | with_reducible apply keeps_modPort | with_reducible apply keeps_pbump
    | with_reducible apply keeps_requestRetrain | with_reducible apply Keeps.ite | split | dsimp only

theorem keeps_startReplay {s0 : State} (s : State) (q : Nat) (h0 : Keeps s0 s) : Keeps s0 (startReplay s q) := by
  unfold startReplay
  repeat' first
    | with_reducible assumption | with_reducible apply keeps_replayAgain | split | dsimp only

theorem keeps_processAck {s0 : State} (s : State) (q : Nat) (kind : BitVec 2) (a : Fseq) (h0 : Keeps s0 s) :
    KeepsP s0 (processAck s q kind a) := by
  unfold processAck
  repeat' first
    | with_reducible assumption | with_reducible apply keeps_pbump | with_reducible apply keeps_freeAt
    | with_reducible apply KeepsP.mk | split | dsimp only

theorem keeps_storeTxns {s0 : State} (s : State) (q : Nat) (done : List (Nat × List Cell)) (h0 : Keeps s0 s) :
    Keeps s0 (storeTxns s q done) := by
  unfold storeTxns
  repeat' first
    | with_reducible assumption | with_reducible apply keeps_bumpSeq | with_reducible apply keeps_modPort
    | with_reducible apply Keeps.foldl | with_reducible intro _ _ _ | with_reducible intro _ _
    | with_reducible intro _ | split | dsimp only

theorem keeps_acceptCtrl {s0 : State} (s : State) (q : Nat) (live : Bool) (c : Cell) (h0 : Keeps s0 s) :
    Keeps s0 (acceptCtrl s q live c) := by
  unfold acceptCtrl
  repeat' first
    | with_reducible assumption | with_reducible apply keeps_modPort | with_reducible apply keeps_tev | split
    | dsimp only

theorem keeps_markActive {s0 : State} (s : State) (q : Nat) (h0 : Keeps s0 s) : Keeps s0 (markActive s q) := by
  unfold markActive
  repeat' first
    | with_reducible assumption | with_reducible apply keeps_modPort | split | dsimp only

theorem keeps_headerReturn {s0 : State} (s : State) (q : Nat) (f : Flit) (h0 : Keeps s0 s) :
    Keeps s0 (headerReturn s q f) := by
  unfold headerReturn
  repeat' first
    | with_reducible assumption | with_reducible apply keeps_pbump | with_reducible apply keeps_applyReturn
    | with_reducible apply Keeps.ite | split | dsimp only

theorem keeps_passPayload {s0 : State} (s : State) (q : Nat) (f : Flit) (h0 : Keeps s0 s) :
    Keeps s0 (passPayload s q f) := by
  unfold passPayload
  repeat' first
    | with_reducible assumption | with_reducible apply keeps_modPort | with_reducible apply keeps_acceptCtrl
    | with_reducible apply Keeps.ite | with_reducible apply Keeps.foldl | with_reducible intro _ _ _
    | with_reducible intro _ _ | with_reducible intro _ | split | dsimp only

theorem keeps_firstPass {s0 : State} (q : Nat) (x : State × SeqAcc) (ce : Checked × Option UnpackErr) (h0 : KeepsP s0 x) :
    KeepsP s0 (firstPass q x ce) := by
  obtain ⟨y, z⟩ := x
  replace h0 : Keeps s0 y := h0
  unfold firstPass
  repeat' first
    | with_reducible assumption | with_reducible apply keeps_modPort | with_reducible apply keeps_pbump
    | with_reducible apply keeps_pbump64 | with_reducible apply keeps_tev | with_reducible apply keeps_processAck
    | with_reducible apply Keeps.ite | with_reducible apply KeepsP.mk
    | with_reducible refine KeepsP.fst ?_ (by with_reducible assumption) | split | dsimp only

theorem keeps_secondPass {s0 : State} (q : Nat) (e : Fseq) (x : State × SeqAcc) (f : Flit) (h0 : KeepsP s0 x) :
    KeepsP s0 (secondPass q e x f) := by
  obtain ⟨y, z⟩ := x
  replace h0 : Keeps s0 y := h0
  unfold secondPass
  repeat' first
    | with_reducible assumption | with_reducible apply keeps_modPort | with_reducible apply keeps_pbump64
    | with_reducible apply keeps_headerReturn | with_reducible apply keeps_markActive
    | with_reducible apply keeps_passPayload | with_reducible apply keeps_storeTxns | with_reducible apply KeepsP.mk
    | split | dsimp only

theorem keeps_receiveCc {s0 : State} (s : State) (q : Nat) (cs : List Checked) (h0 : Keeps s0 s) :
    Keeps s0 (receiveCc s q cs) := by
  unfold receiveCc
  generalize e1 : (withBroken (s.port q) cs).foldl (firstPass q) (s, {}) = r1
  obtain ⟨s1, a1⟩ := r1
  have h1 : Keeps s0 s1 := KeepsP.fst (KeepsP.foldl (fun u x h => keeps_firstPass q u x h) (KeepsP.mk h0)) e1
  dsimp -zeta only
  extract_lets e so u v
  have h2 : KeepsP s0 (so.foldl (secondPass q e) (s1, a1)) :=
    KeepsP.foldl (fun u x h => keeps_secondPass q e u x h) (KeepsP.mk h1)
  have hu : Keeps s0 u := keeps_modPort _ _ _ (KeepsP.proj h2)
  have hv : Keeps s0 v := keeps_modPort _ _ _ hu
  clear_value u v
  refine Keeps.ite (keeps_requestFull _ _ _ _ hu) ?_
  split
  · exact keeps_replayAgain _ _ _ _ hv
  · exact hv

theorem keeps_twinRecord {s0 : State} (s : State) (k q detail : Nat) (h0 : Keeps s0 s) :
    Keeps s0 (twinRecord s k q detail) := by
  unfold twinRecord
  repeat' first
    | with_reducible assumption | with_reducible apply keeps_service | split | dsimp only

theorem keeps_vigilOut {s0 : State} (s : State) (k q : Nat) (h0 : Keeps s0 s) : Keeps s0 (vigilOut s k q) := by
  unfold vigilOut
  repeat' first
    | with_reducible assumption | with_reducible apply keeps_modPort | with_reducible apply keeps_twinRecord
    | with_reducible apply keeps_unitLeaves | split | dsimp only

theorem keeps_vigilCompare {s0 : State} (s : State) (k q : Nat) (kept gone : Flit) (h0 : Keeps s0 s) :
    Keeps s0 (vigilCompare s k q kept gone) := by
  unfold vigilCompare
  repeat' first
    | with_reducible assumption | with_reducible apply keeps_bump | with_reducible apply keeps_bump64
    | with_reducible apply keeps_modPair | with_reducible apply keeps_vigilOut | with_reducible apply Keeps.ite
    | split | dsimp only

theorem keeps_mergeTwin {s0 : State} (s : State) (k : Nat) (xs : List Copy) (h0 : Keeps s0 s) :
    KeepsP s0 (mergeTwin s k xs) := by
  unfold mergeTwin
  extract_lets a b unitOf live gen foreign place covered u v act dupOf keep w
  refine KeepsP.ite (KeepsP.mk h0) ?_
  cases foreign
  case cons => exact KeepsP.mk (keeps_pbump _ _ _ _ _ (keeps_requestFull _ _ _ _ h0))
  case nil =>
    have hu : Keeps s0 u := keeps_bump64 _ _ _ _ h0
    refine KeepsP.mk (Keeps.ite hu (Keeps.foldl (fun s x h => ?_) hu))
    split
    · exact keeps_vigilCompare _ _ _ _ _ h
    · exact h

theorem keeps_countVld {s0 : State} (q : Nat) (s : State) (r : RxFlit) (h0 : Keeps s0 s) :
    Keeps s0 (countVld q s r) := by
  unfold countVld
  repeat' first
    | with_reducible assumption | with_reducible apply keeps_bump | with_reducible apply Keeps.ite | split
    | dsimp only

theorem keeps_countWireErrors {s0 : State} (q : Nat) (s : State) (x : RxFlit × Checked) (h0 : Keeps s0 s) :
    Keeps s0 (countWireErrors q s x) := by
  unfold countWireErrors
  repeat' first
    | with_reducible assumption | with_reducible apply keeps_modBundle | with_reducible apply Keeps.ite | split
    | dsimp only

theorem keeps_receiveFlits {s0 : State} (s : State) (q : Nat) (flits : List RxFlit) (h0 : Keeps s0 s) :
    Keeps s0 (receiveFlits s q flits) := by
  unfold receiveFlits
  extract_lets l all u v got check w
  have hu : Keeps s0 u := keeps_modPort _ _ _ h0
  have hv : Keeps s0 v := Keeps.foldl (fun _ _ h => keeps_countVld _ _ _ h) hu
  have hw : Keeps s0 w := Keeps.foldl (fun _ _ h => keeps_countWireErrors _ _ _ h) hv
  clear_value u v w
  refine Keeps.ite hu (Keeps.ite (keeps_receiveCc _ _ _ hu) ?_)
  split
  · exact keeps_receiveCc _ _ _ hw
  · split
    next e =>
      have h : Keeps s0 _ := KeepsP.fst (keeps_mergeTwin _ _ _ hw) e
      exact Keeps.ite (keeps_receiveCc _ _ _ h) h

theorem keeps_execFlitReceive {s0 : State} (q : PortId) (flits : List RxFlit) (s : State) (h0 : Keeps s0 s) :
    KeepsO s0 (execFlitReceive q flits s) := by
  unfold execFlitReceive
  repeat' first
    | with_reducible assumption | with_reducible apply keeps_onPort | with_reducible apply keeps_receiveFlits
    | with_reducible apply keeps_onPort | split | dsimp only

theorem keeps_execAckDelayExpiry {s0 : State} (q : PortId) (s : State) (h0 : Keeps s0 s) :
    KeepsO s0 (execAckDelayExpiry q s) := by
  unfold execAckDelayExpiry
  repeat' first
    | with_reducible assumption | with_reducible apply keeps_modPort | with_reducible apply keeps_onPort
    | with_reducible apply keeps_onPort | split | dsimp only

theorem keeps_execAckTimeout {s0 : State} (q : PortId) (s : State) (h0 : Keeps s0 s) :
    KeepsO s0 (execAckTimeout q s) := by
  unfold execAckTimeout
  repeat' first
    | with_reducible assumption | with_reducible apply keeps_pbump | with_reducible apply keeps_onPort
    | with_reducible apply keeps_startReplay | with_reducible apply Keeps.ite | with_reducible apply keeps_onPort
    | split | dsimp only

theorem keeps_execNakGuardExpiry {s0 : State} (q : PortId) (s : State) (h0 : Keeps s0 s) :
    KeepsO s0 (execNakGuardExpiry q s) := by
  unfold execNakGuardExpiry
  repeat' first
    | with_reducible assumption | with_reducible apply keeps_modPort | with_reducible apply keeps_onPort
    | with_reducible apply keeps_onPort | split | dsimp only

theorem keeps_execCreditDelayExpiry {s0 : State} (q : PortId) (s : State) (h0 : Keeps s0 s) :
    KeepsO s0 (execCreditDelayExpiry q s) := by
  unfold execCreditDelayExpiry
  repeat' first
    | with_reducible assumption | with_reducible apply keeps_modPort | with_reducible apply keeps_onPort
    | with_reducible apply Keeps.ite | with_reducible apply keeps_onPort | split | dsimp only

theorem keeps_dropCtrl {s0 : State} (s : State) (q : Nat) (h0 : Keeps s0 s) : Keeps s0 (dropCtrl s q) := by
  unfold dropCtrl
  repeat' first
    | with_reducible assumption | with_reducible apply keeps_modPort | split | dsimp only

theorem keeps_execCredit {s0 : State} (q : PortId) (s : State) (h0 : Keeps s0 s) : KeepsO s0 (execCredit q s) := by
  unfold execCredit
  repeat' first
    | with_reducible assumption | with_reducible apply keeps_applyReturn | with_reducible apply keeps_dropCtrl
    | with_reducible apply keeps_onPort | with_reducible apply Keeps.foldl | with_reducible apply keeps_onPort
    | with_reducible intro _ _ _ | with_reducible intro _ _ | with_reducible intro _ | split | dsimp only

theorem keeps_execUnknownCtrl {s0 : State} (q : PortId) (s : State) (h0 : Keeps s0 s) :
    KeepsO s0 (execUnknownCtrl q s) := by
  unfold execUnknownCtrl
  repeat' first
    | with_reducible assumption | with_reducible apply keeps_pbump | with_reducible apply keeps_dropCtrl
    | with_reducible apply keeps_onPort | with_reducible apply Keeps.ite | with_reducible apply keeps_onPort | split
    | dsimp only

end Sys2Proof.Machine
end

