-- ==== Sys2Proof/Laws/KeepsFirewall.lean ====
section
/-!
SUPPORT. The functions of Machine/Firewall.lean keep what every command keeps.
-/

namespace Sys2Proof.Machine
open Sys2Proof

set_option linter.all false

theorem keeps_fwRefuse {s0 : State} (s : State) (pl : Place) (t : Txn) (status : BitVec 8) (h0 : Keeps s0 s) :
    Keeps s0 (fwRefuse s pl t status) := by
  unfold fwRefuse
  repeat' first
    | with_reducible assumption | with_reducible apply keeps_bump | with_reducible apply keeps_bump64
    | with_reducible apply keeps_answerRemote | with_reducible apply keeps_takeAt | with_reducible apply Keeps.ite
    | split | dsimp only

theorem keeps_countHit {s0 : State} (s : State) (i : Nat) (h0 : Keeps s0 s) : Keeps s0 (countHit s i) := by
  unfold countHit
  repeat' first
    | with_reducible assumption | fail_if_no_progress with_reducible apply Keeps.record | split | dsimp only

theorem keeps_takeBucket {s0 : State} (s : State) (i left : Nat) (h0 : Keeps s0 s) :
    Keeps s0 (takeBucket s i left) := by
  unfold takeBucket
  repeat' first
    | with_reducible assumption | fail_if_no_progress with_reducible apply Keeps.record | split | dsimp only

theorem keeps_atFirewall {s0 : State} (s : State) (pl : Place) (q k : Nat) (w : Waiting) (f : State → Waiting → State)
    (h0 : Keeps s0 s) (hf : ∀ u w, Keeps s0 u → Keeps s0 (f u w)) : Keeps s0 (atFirewall s pl q k w f) := by
  unfold atFirewall
  repeat' first
    | with_reducible assumption | with_reducible apply keeps_countHit | with_reducible apply keeps_fwRefuse
    | with_reducible apply keeps_putAt | with_reducible apply keeps_takeBucket | with_reducible apply Keeps.ite
    | with_reducible apply hf | with_reducible intro _ _ _ | with_reducible intro _ _ | split | dsimp only

theorem keeps_serveAt {s0 : State} (s : State) (pl : Place) (opc : Nat) (f : State → Waiting → State)
    (h0 : Keeps s0 s) (hf : ∀ u w, Keeps s0 u → Keeps s0 (f u w)) : KeepsO s0 (serveAt s pl opc f) := by
  unfold serveAt
  repeat' first
    | with_reducible assumption | with_reducible apply keeps_atFirewall | with_reducible apply KeepsO.next
    | with_reducible apply KeepsO.ite | with_reducible apply hf | with_reducible intro _ _ _
    | with_reducible intro _ _ | split | dsimp only

theorem keeps_admitWaiting {s0 : State} (s : State) (q : PortId) (k : Nat) (h0 : Keeps s0 s) :
    Keeps s0 (admitWaiting s q k) := by
  unfold admitWaiting
  repeat' first
    | with_reducible assumption | with_reducible apply keeps_fwRefuse | with_reducible apply keeps_putAt
    | with_reducible apply keeps_takeBucket | with_reducible apply Keeps.ite | split | dsimp only

theorem keeps_execFirewallAdmit {s0 : State} (q : PortId) (k : Nat) (s : State) (h0 : Keeps s0 s) :
    KeepsO s0 (execFirewallAdmit q k s) := by
  unfold execFirewallAdmit
  repeat' first
    | with_reducible assumption | with_reducible apply keeps_admitWaiting | with_reducible apply keeps_onPort
    | with_reducible apply keeps_onPort | split | dsimp only

theorem keeps_forwardAt {s0 : State} (s : State) (pl : Place) (w : Waiting) (route : List Nat) (h0 : Keeps s0 s) :
    Keeps s0 (forwardAt s pl w route) := by
  unfold forwardAt
  repeat' first
    | with_reducible assumption | with_reducible apply keeps_putAt | with_reducible apply keeps_queueOut
    | with_reducible apply keeps_takeAt | split | dsimp only

theorem keeps_targetOr {s0 : State} (s : State) (pl : Place) (w : Waiting) (f : State → State)
    (h0 : Keeps s0 s) (hf : ∀ u, Keeps s0 u → Keeps s0 (f u)) : Keeps s0 (targetOr s pl w f) := by
  unfold targetOr
  repeat' first
    | with_reducible assumption | with_reducible apply keeps_forwardAt | with_reducible apply keeps_takeAt
    | with_reducible apply keeps_answerAt | with_reducible apply Keeps.ite | with_reducible apply hf
    | with_reducible intro _ _ _ | with_reducible intro _ _ | split | dsimp only

end Sys2Proof.Machine
end

