-- ==== Sys2Proof/Laws/KeepsRlc.lean ====
section
/-!
SUPPORT. The functions of Machine/Rlc.lean keep what every command keeps.
-/

namespace Sys2Proof.Machine
open Sys2Proof

set_option linter.all false

theorem keeps_setLine {s0 : State} (s : State) (la : LineAddr) (l : RlcLine) (h0 : Keeps s0 s) :
    Keeps s0 (setLine s la l) := by
  unfold setLine
  repeat' first
    | with_reducible assumption | fail_if_no_progress with_reducible apply Keeps.record | split | dsimp only

theorem keeps_delLine {s0 : State} (s : State) (la : LineAddr) (h0 : Keeps s0 s) : Keeps s0 (delLine s la) := by
  unfold delLine
  repeat' first
    | with_reducible assumption | fail_if_no_progress with_reducible apply Keeps.record | split | dsimp only

theorem keeps_touchWay {s0 : State} (s : State) (set_ way : Nat) (toward : Bool) (h0 : Keeps s0 s) :
    Keeps s0 (touchWay s set_ way toward) := by
  unfold touchWay
  repeat' first
    | with_reducible assumption | fail_if_no_progress with_reducible apply Keeps.record | split | dsimp only

theorem keeps_queueCoh {s0 : State} (s : State) (t : Txn) (la : LineAddr) (h0 : Keeps s0 s) :
    Keeps s0 (queueCoh s t la) := by
  unfold queueCoh
  repeat' first
    | with_reducible assumption | with_reducible apply keeps_queueOut | split | dsimp only

theorem keeps_evictLine {s0 : State} (s : State) (la : LineAddr) (st : LineSt) (data : BitVec 1024) (waiting : List LineReq) (h0 : Keeps s0 s) :
    Keeps s0 (evictLine s la st data waiting) := by
  unfold evictLine
  repeat' first
    | with_reducible assumption | with_reducible apply keeps_delLine | with_reducible apply keeps_queueCoh
    | fail_if_no_progress with_reducible apply Keeps.record | split | dsimp only

theorem keeps_completeReq {s0 : State} (s : State) (r : LineReq) (status : BitVec 8) (bytes : List Byte) (h0 : Keeps s0 s) :
    Keeps s0 (completeReq s r status bytes) := by
  unfold completeReq
  repeat' first
    | with_reducible assumption | with_reducible apply keeps_answerFreeing | with_reducible apply keeps_answerSource
    | split | dsimp only

theorem keeps_serveFrom {s0 : State} (s : State) (r : LineReq) (st : LineSt) (v : BitVec 1024) (h0 : Keeps s0 s) :
    KeepsP s0 (serveFrom s r st v) := by
  unfold serveFrom
  repeat' first
    | with_reducible assumption | with_reducible apply keeps_completeReq | with_reducible apply KeepsP.mk | split
    | dsimp only

theorem keeps_openMiss {s0 : State} (s : State) (opc : BitVec 8) (la : LineAddr) (rs : List LineReq) (h0 : Keeps s0 s) :
    Keeps s0 (openMiss s opc la rs) := by
  unfold openMiss
  repeat' first
    | with_reducible assumption | with_reducible apply keeps_queueCoh
    | fail_if_no_progress with_reducible apply Keeps.record | split | dsimp only

theorem keeps_serveWaiting {s0 : State} (rs : List LineReq) (s : State) (st : LineSt) (v : BitVec 1024) (h0 : Keeps s0 s) :
    KeepsP s0 (serveWaiting rs s st v) := by
  induction rs generalizing s st v with
  | nil => exact h0
  | cons r rs ih =>
    unfold serveWaiting
    split
    · exact h0
    · split
      next e => exact ih _ _ _ (KeepsP.fst (keeps_serveFrom _ _ _ _ h0) e)

theorem keeps_reopen {s0 : State} (s : State) (la : LineAddr) (st : LineSt) (rs : List LineReq) (h0 : Keeps s0 s) :
    Keeps s0 (reopen s la st rs) := by
  unfold reopen
  repeat' first
    | with_reducible assumption | with_reducible apply keeps_openMiss | split | dsimp only

theorem keeps_modMiss {s0 : State} (s : State) (la : LineAddr) (f : Miss → Miss) (h0 : Keeps s0 s) :
    Keeps s0 (modMiss s la f) := by
  unfold modMiss
  repeat' first
    | with_reducible assumption | fail_if_no_progress with_reducible apply Keeps.record | split | dsimp only

theorem keeps_delMiss {s0 : State} (s : State) (la : LineAddr) (h0 : Keeps s0 s) : Keeps s0 (delMiss s la) := by
  unfold delMiss
  repeat' first
    | with_reducible assumption | fail_if_no_progress with_reducible apply Keeps.record | split | dsimp only

theorem keeps_evictMiss {s0 : State} (s : State) (m : Miss) (st : LineSt) (v : BitVec 1024) (rs : List LineReq) (h0 : Keeps s0 s) :
    Keeps s0 (evictMiss s m st v rs) := by
  unfold evictMiss
  repeat' first
    | with_reducible assumption | with_reducible apply keeps_delMiss | with_reducible apply keeps_evictLine | split
    | dsimp only

theorem keeps_finishMiss {s0 : State} (s : State) (m : Miss) (place : Option (Nat × Nat)) (h0 : Keeps s0 s) :
    Keeps s0 (finishMiss s m place) := by
  unfold finishMiss
  repeat' first
    | with_reducible assumption
    | (extract_lets +onlyGivenNames x; refine (have hx : Keeps s0 x := ?_; ?_); on_goal 1 => subst x)
    | (extract_lets +onlyGivenNames x; refine (have hx : KeepsP s0 x := ?_; ?_); on_goal 1 => subst x)
    | (extract_lets +onlyGivenNames x; refine (have hx : KeepsQ s0 x := ?_; ?_); on_goal 1 => subst x)
    | extract_lets +onlyGivenNames x | with_reducible apply keeps_delMiss | with_reducible apply keeps_evictMiss
    | with_reducible apply keeps_freeOf | with_reducible apply keeps_reopen | with_reducible apply keeps_sendOut
    | with_reducible apply keeps_serveWaiting | with_reducible apply keeps_setLine
    | with_reducible apply keeps_touchWay | with_reducible apply Keeps.ite
    | with_reducible refine KeepsP.fst ?_ (by with_reducible assumption)
    | fail_if_no_progress with_reducible apply Keeps.record | split | dsimp only

theorem keeps_finishLost {s0 : State} (s : State) (m : Miss) (failed : Bool) (h0 : Keeps s0 s) :
    Keeps s0 (finishLost s m failed) := by
  unfold finishLost
  repeat' first
    | with_reducible assumption | with_reducible apply keeps_completeReq | with_reducible apply keeps_delLine
    | with_reducible apply keeps_delMiss | with_reducible apply keeps_freeOf | with_reducible apply keeps_reopen
    | with_reducible apply keeps_sendOut | with_reducible apply Keeps.ite | with_reducible apply Keeps.foldl
    | with_reducible intro _ _ _ | with_reducible intro _ _ | with_reducible intro _ | split | dsimp only

theorem keeps_tryComplete {s0 : State} (s : State) (la : LineAddr) (h0 : Keeps s0 s) : Keeps s0 (tryComplete s la) := by
  unfold tryComplete
  repeat' first
    | with_reducible assumption | with_reducible apply keeps_evictLine | with_reducible apply keeps_evictMiss
    | with_reducible apply keeps_finishLost | with_reducible apply keeps_finishMiss | with_reducible apply Keeps.ite
    | split | dsimp only

theorem keeps_completeAll {s0 : State} (s : State) (h0 : Keeps s0 s) : Keeps s0 (completeAll s) := by
  unfold completeAll
  repeat' first
    | with_reducible assumption | with_reducible apply keeps_tryComplete | with_reducible apply Keeps.foldl
    | with_reducible intro _ _ _ | with_reducible intro _ _ | with_reducible intro _ | split | dsimp only

theorem keeps_keyLine {s0 : State} (s : State) (seq : Nat) (la : LineAddr) (h0 : Keeps s0 s) :
    Keeps s0 (keyLine s seq la) := by
  unfold keyLine
  repeat' first
    | with_reducible assumption | fail_if_no_progress with_reducible apply Keeps.record | split | dsimp only

theorem keeps_rlcServe {s0 : State} (s : State) (pl : Place) (w : Waiting) (g : Gpa) (h0 : Keeps s0 s) :
    Keeps s0 (rlcServe s pl w g) := by
  unfold rlcServe
  extract_lets la p t r wait line st u
  have hw : Keeps s0 wait := keeps_putAt _ _ _ h0
  refine Keeps.ite hw (Keeps.ite (keeps_modMiss _ _ _ (keeps_takeAt _ _ h0)) ?_)
  clear_value st
  split
  · refine keeps_setLine _ _ _ ?_
    exact KeepsP.proj (keeps_serveFrom _ _ _ _ (keeps_touchWay _ _ _ _ (keeps_bump64 _ _ _ _ (keeps_takeAt _ _ h0))))
  · exact Keeps.ite hw (keeps_openMiss _ _ _ _ (keeps_takeAt _ _ h0))
  · exact h0

theorem keeps_staleAnswer {s0 : State} (s : State) (t : Txn) (h0 : Keeps s0 s) : Keeps s0 (staleAnswer s t) := by
  unfold staleAnswer
  repeat' first
    | with_reducible assumption | with_reducible apply keeps_bump | with_reducible apply keeps_sendOut
    | with_reducible apply Keeps.ite | split | dsimp only

theorem keeps_takeAnswer {s0 : State} (s : State) (pl : Place) (w : Waiting) (f : Miss → Miss) (h0 : Keeps s0 s) :
    Keeps s0 (takeAnswer s pl w f) := by
  unfold takeAnswer
  repeat' first
    | with_reducible assumption | with_reducible apply keeps_modMiss | with_reducible apply keeps_staleAnswer
    | with_reducible apply keeps_takeAt | with_reducible apply keeps_targetOr
    | with_reducible apply keeps_tryComplete | with_reducible apply Keeps.ite | with_reducible intro _ _ _
    | with_reducible intro _ _ | with_reducible intro _ | split | dsimp only

theorem keeps_takeGnt {s0 : State} (s : State) (pl : Place) (w : Waiting) (h0 : Keeps s0 s) :
    Keeps s0 (takeGnt s pl w) := by
  unfold takeGnt
  repeat' first
    | with_reducible assumption | with_reducible apply keeps_takeAnswer | split | dsimp only

theorem keeps_takeFwd {s0 : State} (s : State) (pl : Place) (w : Waiting) (h0 : Keeps s0 s) :
    Keeps s0 (takeFwd s pl w) := by
  unfold takeFwd
  repeat' first
    | with_reducible assumption | with_reducible apply keeps_takeAnswer | split | dsimp only

theorem keeps_execFwd {s0 : State} (pl : Place) (s : State) (h0 : Keeps s0 s) : KeepsO s0 (execFwd pl s) := by
  unfold execFwd
  repeat' first
    | with_reducible assumption | with_reducible apply keeps_serveAt | with_reducible apply keeps_takeFwd
    | with_reducible intro _ _ _ | with_reducible intro _ _ | with_reducible intro _ | split | dsimp only

theorem keeps_execIack {s0 : State} (pl : Place) (s : State) (h0 : Keeps s0 s) : KeepsO s0 (execIack pl s) := by
  unfold execIack
  repeat' first
    | with_reducible assumption | with_reducible apply keeps_serveAt | with_reducible apply keeps_takeAnswer
    | with_reducible intro _ _ _ | with_reducible intro _ _ | with_reducible intro _ | split | dsimp only

theorem keeps_settleBusy {s0 : State} (s : State) (h0 : Keeps s0 s) : Keeps s0 (settleBusy s) := by
  unfold settleBusy
  repeat' first
    | with_reducible assumption | with_reducible apply Keeps.ite
    | fail_if_no_progress with_reducible apply Keeps.record | split | dsimp only

theorem keeps_freeVictim {s0 : State} (s : State) (la : LineAddr) (h0 : Keeps s0 s) : Keeps s0 (freeVictim s la) := by
  unfold freeVictim
  repeat' first
    | with_reducible assumption | with_reducible apply keeps_completeAll | with_reducible apply keeps_reopen
    | with_reducible apply keeps_settleBusy | fail_if_no_progress with_reducible apply Keeps.record | split
    | dsimp only

theorem keeps_takeWback {s0 : State} (s : State) (pl : Place) (w : Waiting) (h0 : Keeps s0 s) :
    Keeps s0 (takeWback s pl w) := by
  unfold takeWback
  repeat' first
    | with_reducible assumption | with_reducible apply keeps_bump | with_reducible apply keeps_freeTagAt
    | with_reducible apply keeps_freeVictim | with_reducible apply keeps_takeAt | with_reducible apply keeps_targetOr
    | with_reducible apply Keeps.ite | with_reducible intro _ _ _ | with_reducible intro _ _ | with_reducible intro _
    | split | dsimp only

theorem keeps_refuseMiss {s0 : State} (s : State) (la : LineAddr) (status : BitVec 8) (h0 : Keeps s0 s) :
    Keeps s0 (refuseMiss s la status) := by
  unfold refuseMiss
  repeat' first
    | with_reducible assumption | with_reducible apply keeps_completeReq | with_reducible apply keeps_delLine
    | with_reducible apply keeps_delMiss | with_reducible apply keeps_freeOf | with_reducible apply Keeps.foldl
    | with_reducible intro _ _ _ | with_reducible intro _ _ | with_reducible intro _ | split | dsimp only

theorem keeps_snoopLeaves {s0 : State} (s : State) (la : LineAddr) (inVictim : Bool) (st : LineSt) (h0 : Keeps s0 s) :
    Keeps s0 (snoopLeaves s la inVictim st) := by
  unfold snoopLeaves
  repeat' first
    | with_reducible assumption | with_reducible apply keeps_delLine | with_reducible apply keeps_delMiss
    | with_reducible apply keeps_modMiss | with_reducible apply keeps_reopen | with_reducible apply keeps_setLine
    | with_reducible apply Keeps.ite | fail_if_no_progress with_reducible apply Keeps.record | split | dsimp only

theorem keeps_doSnoop {s0 : State} (s : State) (t : Txn) (opc : BitVec 8) (la : LineAddr) (h0 : Keeps s0 s) :
    Keeps s0 (doSnoop s t opc la) := by
  unfold doSnoop
  repeat' first
    | with_reducible assumption | with_reducible apply keeps_bump64 | with_reducible apply keeps_sendOut
    | with_reducible apply keeps_snoopLeaves | with_reducible apply Keeps.ite | split | dsimp only

theorem keeps_takeSnoop {s0 : State} (s : State) (pl : Place) (w : Waiting) (h0 : Keeps s0 s) :
    Keeps s0 (takeSnoop s pl w) := by
  unfold takeSnoop
  repeat' first
    | with_reducible assumption | with_reducible apply keeps_doSnoop | with_reducible apply keeps_takeAt
    | with_reducible apply keeps_targetOr | with_reducible intro _ _ _ | with_reducible intro _ _
    | with_reducible intro _ | split | dsimp only

theorem keeps_execSnps {s0 : State} (pl : Place) (s : State) (h0 : Keeps s0 s) : KeepsO s0 (execSnps pl s) := by
  unfold execSnps
  repeat' first
    | with_reducible assumption | with_reducible apply keeps_serveAt | with_reducible apply keeps_takeSnoop
    | with_reducible intro _ _ _ | with_reducible intro _ _ | with_reducible intro _ | split | dsimp only

theorem keeps_execSnpx {s0 : State} (pl : Place) (s : State) (h0 : Keeps s0 s) : KeepsO s0 (execSnpx pl s) := by
  unfold execSnpx
  repeat' first
    | with_reducible assumption | with_reducible apply keeps_serveAt | with_reducible apply keeps_takeSnoop
    | with_reducible intro _ _ _ | with_reducible intro _ _ | with_reducible intro _ | split | dsimp only

theorem keeps_execSnpi {s0 : State} (pl : Place) (s : State) (h0 : Keeps s0 s) : KeepsO s0 (execSnpi pl s) := by
  unfold execSnpi
  repeat' first
    | with_reducible assumption | with_reducible apply keeps_serveAt | with_reducible apply keeps_takeSnoop
    | with_reducible intro _ _ _ | with_reducible intro _ _ | with_reducible intro _ | split | dsimp only

theorem keeps_execSnpf {s0 : State} (pl : Place) (s : State) (h0 : Keeps s0 s) : KeepsO s0 (execSnpf pl s) := by
  unfold execSnpf
  repeat' first
    | with_reducible assumption | with_reducible apply keeps_serveAt | with_reducible apply keeps_takeSnoop
    | with_reducible intro _ _ _ | with_reducible intro _ _ | with_reducible intro _ | split | dsimp only

theorem keeps_flushRegion {s0 : State} (s : State) (t : Txn) (h0 : Keeps s0 s) : Keeps s0 (flushRegion s t) := by
  unfold flushRegion
  repeat' first
    | with_reducible assumption | with_reducible apply keeps_doSnoop | with_reducible apply keeps_sendOut
    | with_reducible apply Keeps.ite | with_reducible apply Keeps.foldl | with_reducible intro _ _ _
    | with_reducible intro _ _ | with_reducible intro _ | split | dsimp only

theorem keeps_execSnpr {s0 : State} (pl : Place) (s : State) (h0 : Keeps s0 s) : KeepsO s0 (execSnpr pl s) := by
  unfold execSnpr
  repeat' first
    | with_reducible assumption | with_reducible apply keeps_flushRegion | with_reducible apply keeps_serveAt
    | with_reducible apply keeps_takeAt | with_reducible apply keeps_targetOr | with_reducible intro _ _ _
    | with_reducible intro _ _ | with_reducible intro _ | split | dsimp only

theorem keeps_oweEvictions {s0 : State} (s : State) (fills : Bool) (way : Nat → Bool) (h0 : Keeps s0 s) :
    Keeps s0 (oweEvictions s fills way) := by
  unfold oweEvictions
  repeat' first
    | with_reducible assumption | with_reducible apply keeps_settleBusy
    | fail_if_no_progress with_reducible apply Keeps.record | split | dsimp only

theorem keeps_evictOwed {s0 : State} (s : State) (h0 : Keeps s0 s) : Keeps s0 (evictOwed s) := by
  unfold evictOwed
  repeat' first
    | with_reducible assumption | with_reducible apply keeps_evictLine | with_reducible apply keeps_settleBusy
    | with_reducible apply Keeps.ite | fail_if_no_progress with_reducible apply Keeps.record | split | dsimp only

theorem keeps_execRlcEviction {s0 : State} (s : State) (h0 : Keeps s0 s) : KeepsO s0 (execRlcEviction s) := by
  unfold execRlcEviction
  repeat' first
    | with_reducible assumption | with_reducible apply keeps_evictOwed | with_reducible apply KeepsO.next | split
    | dsimp only

end Sys2Proof.Machine
end

