-- ==== Sys2Proof/Laws/KeepsHome.lean ====
section
/-!
SUPPORT. The functions of Machine/Home.lean keep what every command keeps.
-/

namespace Sys2Proof.Machine
open Sys2Proof

set_option linter.all false

theorem keeps_setFilter {s0 : State} (s : State) (f : List FilterEntry) (h0 : Keeps s0 s) :
    Keeps s0 (setFilter s f) := by
  unfold setFilter
  repeat' first
    | with_reducible assumption | fail_if_no_progress with_reducible apply Keeps.record | split | dsimp only

theorem keeps_modLine {s0 : State} (s : State) (la : LineAddr) (f : FilterEntry → FilterEntry) (h0 : Keeps s0 s) :
    Keeps s0 (modLine s la f) := by
  unfold modLine
  repeat' first
    | with_reducible assumption | with_reducible apply keeps_setFilter | split | dsimp only

theorem keeps_dropHolder {s0 : State} (s : State) (la : LineAddr) (h : Holder) (h0 : Keeps s0 s) :
    Keeps s0 (dropHolder s la h) := by
  unfold dropHolder
  repeat' first
    | with_reducible assumption | with_reducible apply keeps_modLine | split | dsimp only

theorem keeps_touchEntry {s0 : State} (s : State) (p : FilterEntry → Bool) (h0 : Keeps s0 s) :
    Keeps s0 (touchEntry s p) := by
  unfold touchEntry
  repeat' first
    | with_reducible assumption | fail_if_no_progress with_reducible apply Keeps.record | split | dsimp only

theorem keeps_lineLost {s0 : State} (s : State) (h0 : Keeps s0 s) : Keeps s0 (lineLost s) := by
  unfold lineLost
  repeat' first
    | with_reducible assumption | with_reducible apply keeps_bump | with_reducible apply keeps_irq | split
    | dsimp only

theorem keeps_modTrack {s0 : State} (s : State) (id : Nat) (f : Track → Track) (h0 : Keeps s0 s) :
    Keeps s0 (modTrack s id f) := by
  unfold modTrack
  repeat' first
    | with_reducible assumption | fail_if_no_progress with_reducible apply Keeps.record | split | dsimp only

theorem keeps_delTrack {s0 : State} (s : State) (id : Nat) (h0 : Keeps s0 s) : Keeps s0 (delTrack s id) := by
  unfold delTrack
  repeat' first
    | with_reducible assumption | fail_if_no_progress with_reducible apply Keeps.record | split | dsimp only

theorem keeps_addTrack {s0 : State} (s : State) (kind : TrackKind) (t : Txn) (la : LineAddr) (h0 : Keeps s0 s) :
    Keeps s0 (addTrack s kind t la) := by
  unfold addTrack
  repeat' first
    | with_reducible assumption | fail_if_no_progress with_reducible apply Keeps.record | split | dsimp only

theorem keeps_presentCoh {s0 : State} (s : State) (t : Txn) (opc : BitVec 8) (xpre : Nat) (nodata : Bool) (d : Bool) (h0 : Keeps s0 s) :
    Keeps s0 (presentCoh s t opc xpre nodata d) := by
  unfold presentCoh
  repeat' first
    | with_reducible assumption | with_reducible apply keeps_presentInb | split | dsimp only

theorem keeps_writeHome {s0 : State} (s : State) (la : LineAddr) (data : List Cell) (h0 : Keeps s0 s) :
    Keeps s0 (writeHome s la data) := by
  unfold writeHome
  repeat' first
    | with_reducible assumption | with_reducible apply keeps_presentCoh | split | dsimp only

theorem keeps_sendSnoop {s0 : State} (s : State) (t : Txn) (opc : BitVec 8) (la : LineAddr) (mode : Bool) (h : Holder) (h0 : Keeps s0 s) :
    Keeps s0 (sendSnoop s t opc la mode h) := by
  unfold sendSnoop
  repeat' first
    | with_reducible assumption | with_reducible apply keeps_sendOut | split | dsimp only

theorem keeps_sendSnoops {s0 : State} (s : State) (t : Txn) (opc : BitVec 8) (la : LineAddr) (mode : Bool) (hs : List Holder) (h0 : Keeps s0 s) :
    Keeps s0 (sendSnoops s t opc la mode hs) := by
  unfold sendSnoops
  repeat' first
    | with_reducible assumption | with_reducible apply keeps_sendSnoop | with_reducible apply Keeps.foldl
    | with_reducible intro _ _ _ | with_reducible intro _ _ | with_reducible intro _ | split | dsimp only

theorem keeps_foldRegion {s0 : State} (s : State) (base : LineAddr) (h0 : Keeps s0 s) :
    Keeps s0 (foldRegion s base) := by
  unfold foldRegion
  repeat' first
    | with_reducible assumption | with_reducible apply keeps_bump | with_reducible apply keeps_setFilter
    | fail_if_no_progress with_reducible apply Keeps.record | split | dsimp only

theorem keeps_beginRecall {s0 : State} (s : State) (id : Nat) (t : Track) (region : Bool) (la : LineAddr) (hs : List Holder) (h0 : Keeps s0 s) :
    Keeps s0 (beginRecall s id t region la hs) := by
  unfold beginRecall
  repeat' first
    | with_reducible assumption | with_reducible apply keeps_modTrack | with_reducible apply keeps_sendSnoops | split
    | dsimp only

theorem keeps_recallEntry {s0 : State} (s : State) (id : Nat) (t : Track) (e : FilterEntry) (h0 : Keeps s0 s) :
    Keeps s0 (recallEntry s id t e) := by
  unfold recallEntry
  repeat' first
    | with_reducible assumption | with_reducible apply keeps_bump | with_reducible apply keeps_beginRecall | split
    | dsimp only

theorem keeps_presentRequest {s0 : State} (s : State) (id : Nat) (t : Track) (h0 : Keeps s0 s) :
    Keeps s0 (presentRequest s id t) := by
  unfold presentRequest
  repeat' first
    | with_reducible assumption | with_reducible apply keeps_dropHolder | with_reducible apply keeps_lineLost
    | with_reducible apply keeps_modTrack | with_reducible apply keeps_presentCoh
    | with_reducible apply keeps_touchEntry | with_reducible apply Keeps.ite | split | dsimp only

theorem keeps_startRequest {s0 : State} (n : Nat) (s : State) (id : Nat) (t : Track) (h0 : Keeps s0 s) :
    Keeps s0 (startRequest n s id t) := by
  induction n generalizing s with
  | zero => exact h0
  | succ n ih =>
    unfold startRequest
    extract_lets r set_
    split
    · exact Keeps.ite (keeps_presentRequest _ _ _ h0)
        (Keeps.ite (Keeps.ite (keeps_recallEntry _ _ _ _ h0) h0) (keeps_beginRecall _ _ _ _ _ _ h0))
    · refine Keeps.ite (keeps_presentRequest _ _ _ h0) ?_
      split
      · exact ih _ (keeps_foldRegion _ _ h0)
      · split
        · exact keeps_recallEntry _ _ _ _ h0
        · exact h0

theorem keeps_sendWback {s0 : State} (s : State) (t : Txn) (stale : Bool) (h0 : Keeps s0 s) :
    Keeps s0 (sendWback s t stale) := by
  unfold sendWback
  repeat' first
    | with_reducible assumption | with_reducible apply keeps_sendOut | split | dsimp only

theorem keeps_startWriteback {s0 : State} (s : State) (id : Nat) (t : Track) (h0 : Keeps s0 s) :
    Keeps s0 (startWriteback s id t) := by
  unfold startWriteback
  repeat' first
    | with_reducible assumption | with_reducible apply keeps_delTrack | with_reducible apply keeps_dropHolder
    | with_reducible apply keeps_modTrack | with_reducible apply keeps_presentCoh
    | with_reducible apply keeps_sendWback | with_reducible apply Keeps.ite | split | dsimp only

theorem keeps_answerDirectory {s0 : State} (s : State) (t : Track) (h0 : Keeps s0 s) :
    Keeps s0 (answerDirectory s t) := by
  unfold answerDirectory
  repeat' first
    | with_reducible assumption | with_reducible apply keeps_toIfi | with_reducible apply keeps_delTrack | split
    | dsimp only

theorem keeps_startSnoop {s0 : State} (s : State) (id : Nat) (t : Track) (h0 : Keeps s0 s) :
    Keeps s0 (startSnoop s id t) := by
  unfold startSnoop
  repeat' first
    | with_reducible assumption | with_reducible apply keeps_answerDirectory | with_reducible apply keeps_dropHolder
    | with_reducible apply keeps_modTrack | with_reducible apply keeps_sendSnoops | with_reducible apply Keeps.ite
    | with_reducible apply Keeps.foldl | with_reducible intro _ _ _ | with_reducible intro _ _
    | with_reducible intro _ | split | dsimp only

theorem keeps_startAbsentRecall {s0 : State} (s : State) (id : Nat) (t : Track) (h0 : Keeps s0 s) :
    Keeps s0 (startAbsentRecall s id t) := by
  unfold startAbsentRecall
  repeat' first
    | with_reducible assumption | with_reducible apply keeps_delTrack | with_reducible apply keeps_recallEntry
    | split | dsimp only

theorem keeps_tryStart {s0 : State} (s : State) (id : Nat) (h0 : Keeps s0 s) : Keeps s0 (tryStart s id) := by
  unfold tryStart
  repeat' first
    | with_reducible assumption | with_reducible apply keeps_startAbsentRecall
    | with_reducible apply keeps_startRequest | with_reducible apply keeps_startSnoop
    | with_reducible apply keeps_startWriteback | with_reducible apply Keeps.ite | split | dsimp only

theorem keeps_pump {s0 : State} (s : State) (h0 : Keeps s0 s) : Keeps s0 (pump s) := by
  unfold pump
  repeat' first
    | with_reducible assumption | with_reducible apply keeps_tryStart | with_reducible apply Keeps.foldl
    | with_reducible intro _ _ _ | with_reducible intro _ _ | with_reducible intro _ | split | dsimp only

theorem keeps_settleTrack {s0 : State} (s : State) (id : Nat) (h0 : Keeps s0 s) : Keeps s0 (settleTrack s id) := by
  unfold settleTrack
  repeat' first
    | with_reducible assumption | with_reducible apply keeps_delTrack | with_reducible apply keeps_pump
    | with_reducible apply Keeps.ite | split | dsimp only

theorem keeps_recallEnds {s0 : State} (s : State) (t : Track) (h0 : Keeps s0 s) : Keeps s0 (recallEnds s t) := by
  unfold recallEnds
  repeat' first
    | with_reducible assumption | with_reducible apply keeps_delTrack | with_reducible apply keeps_modTrack
    | with_reducible apply keeps_presentRequest | with_reducible apply keeps_pump
    | with_reducible apply keeps_setFilter | with_reducible apply keeps_tryStart | with_reducible apply Keeps.ite
    | split | dsimp only

theorem keeps_snoopEnds {s0 : State} (s : State) (id : Nat) (h0 : Keeps s0 s) : Keeps s0 (snoopEnds s id) := by
  unfold snoopEnds
  repeat' first
    | with_reducible assumption | with_reducible apply keeps_answerDirectory | with_reducible apply keeps_pump
    | with_reducible apply Keeps.ite | split | dsimp only

theorem keeps_homeRequest {s0 : State} (s : State) (pl : Place) (w : Waiting) (h0 : Keeps s0 s) :
    Keeps s0 (homeRequest s pl w) := by
  unfold homeRequest
  repeat' first
    | with_reducible assumption | with_reducible apply keeps_addTrack | with_reducible apply keeps_answerAt
    | with_reducible apply keeps_pump | with_reducible apply keeps_takeAt | with_reducible apply keeps_targetOr
    | with_reducible apply Keeps.ite | with_reducible intro _ _ _ | with_reducible intro _ _ | with_reducible intro _
    | split | dsimp only

theorem keeps_homeWriteback {s0 : State} (s : State) (pl : Place) (w : Waiting) (h0 : Keeps s0 s) :
    Keeps s0 (homeWriteback s pl w) := by
  unfold homeWriteback
  repeat' first
    | with_reducible assumption | with_reducible apply keeps_addTrack | with_reducible apply keeps_pump
    | with_reducible apply keeps_takeAt | with_reducible apply keeps_targetOr | with_reducible apply Keeps.ite
    | with_reducible intro _ _ _ | with_reducible intro _ _ | with_reducible intro _ | split | dsimp only

theorem keeps_execCrd {s0 : State} (pl : Place) (s : State) (h0 : Keeps s0 s) : KeepsO s0 (execCrd pl s) := by
  unfold execCrd
  repeat' first
    | with_reducible assumption | with_reducible apply keeps_homeRequest | with_reducible apply keeps_serveAt
    | with_reducible intro _ _ _ | with_reducible intro _ _ | with_reducible intro _ | split | dsimp only

theorem keeps_execCrdx {s0 : State} (pl : Place) (s : State) (h0 : Keeps s0 s) : KeepsO s0 (execCrdx pl s) := by
  unfold execCrdx
  repeat' first
    | with_reducible assumption | with_reducible apply keeps_homeRequest | with_reducible apply keeps_serveAt
    | with_reducible intro _ _ _ | with_reducible intro _ _ | with_reducible intro _ | split | dsimp only

theorem keeps_execCupg {s0 : State} (pl : Place) (s : State) (h0 : Keeps s0 s) : KeepsO s0 (execCupg pl s) := by
  unfold execCupg
  repeat' first
    | with_reducible assumption | with_reducible apply keeps_homeRequest | with_reducible apply keeps_serveAt
    | with_reducible intro _ _ _ | with_reducible intro _ _ | with_reducible intro _ | split | dsimp only

theorem keeps_execCwrl {s0 : State} (pl : Place) (s : State) (h0 : Keeps s0 s) : KeepsO s0 (execCwrl pl s) := by
  unfold execCwrl
  repeat' first
    | with_reducible assumption | with_reducible apply keeps_homeRequest | with_reducible apply keeps_serveAt
    | with_reducible intro _ _ _ | with_reducible intro _ _ | with_reducible intro _ | split | dsimp only

theorem keeps_execCwb {s0 : State} (pl : Place) (s : State) (h0 : Keeps s0 s) : KeepsO s0 (execCwb pl s) := by
  unfold execCwb
  repeat' first
    | with_reducible assumption | with_reducible apply keeps_homeWriteback | with_reducible apply keeps_serveAt
    | with_reducible intro _ _ _ | with_reducible intro _ _ | with_reducible intro _ | split | dsimp only

theorem keeps_execCevc {s0 : State} (pl : Place) (s : State) (h0 : Keeps s0 s) : KeepsO s0 (execCevc pl s) := by
  unfold execCevc
  repeat' first
    | with_reducible assumption | with_reducible apply keeps_homeWriteback | with_reducible apply keeps_serveAt
    | with_reducible intro _ _ _ | with_reducible intro _ _ | with_reducible intro _ | split | dsimp only

theorem keeps_directorySnoop {s0 : State} (s : State) (k : Nat) (h0 : Keeps s0 s) : Keeps s0 (directorySnoop s k) := by
  unfold directorySnoop
  repeat' first
    | with_reducible assumption | with_reducible apply keeps_addTrack | with_reducible apply keeps_startSnoop
    | with_reducible apply keeps_takeAt | with_reducible apply Keeps.ite | split | dsimp only

theorem keeps_execDirectorySnoop {s0 : State} (k : Nat) (s : State) (h0 : Keeps s0 s) :
    KeepsO s0 (execDirectorySnoop k s) := by
  unfold execDirectorySnoop
  repeat' first
    | with_reducible assumption | with_reducible apply keeps_directorySnoop | with_reducible apply KeepsO.next
    | split | dsimp only

theorem keeps_dropInb {s0 : State} (s : State) (t : Txn) (h0 : Keeps s0 s) : Keeps s0 (dropInb s t) := by
  unfold dropInb
  repeat' first
    | with_reducible assumption | fail_if_no_progress with_reducible apply Keeps.record | split | dsimp only

theorem keeps_recordGrant {s0 : State} (s : State) (la : LineAddr) (r : Holder) (st : LineSt) (h0 : Keeps s0 s) :
    Keeps s0 (recordGrant s la r st) := by
  unfold recordGrant
  repeat' first
    | with_reducible assumption | with_reducible apply keeps_modLine | with_reducible apply keeps_setFilter
    | with_reducible apply Keeps.ite | split | dsimp only

theorem keeps_grantRequest {s0 : State} (s : State) (tr : Track) (g : Txn) (h0 : Keeps s0 s) :
    Keeps s0 (grantRequest s tr g) := by
  unfold grantRequest
  repeat' first
    | with_reducible assumption | with_reducible apply keeps_dropHolder | with_reducible apply keeps_modTrack
    | with_reducible apply keeps_recordGrant | with_reducible apply keeps_sendOut
    | with_reducible apply keeps_sendSnoop | with_reducible apply keeps_settleTrack | with_reducible apply Keeps.ite
    | with_reducible apply Keeps.foldl | with_reducible intro _ _ _ | with_reducible intro _ _
    | with_reducible intro _ | split | dsimp only

theorem keeps_forwardFetched {s0 : State} (s : State) (tr : Track) (g : Txn) (h0 : Keeps s0 s) :
    Keeps s0 (forwardFetched s tr g) := by
  unfold forwardFetched
  repeat' first
    | with_reducible assumption | with_reducible apply keeps_modTrack | with_reducible apply keeps_sendOut
    | with_reducible apply keeps_settleTrack | split | dsimp only

theorem keeps_inrGrant {s0 : State} (s : State) (k : Nat) (g : Txn) (h0 : Keeps s0 s) : Keeps s0 (inrGrant s k g) := by
  unfold inrGrant
  repeat' first
    | with_reducible assumption | with_reducible apply keeps_dropInb | with_reducible apply keeps_forwardFetched
    | with_reducible apply keeps_grantRequest | with_reducible apply keeps_takeAt | with_reducible apply Keeps.ite
    | split | dsimp only

theorem keeps_inrWback {s0 : State} (s : State) (k : Nat) (g : Txn) (h0 : Keeps s0 s) : Keeps s0 (inrWback s k g) := by
  unfold inrWback
  repeat' first
    | with_reducible assumption | with_reducible apply keeps_delTrack | with_reducible apply keeps_dropInb
    | with_reducible apply keeps_pump | with_reducible apply keeps_sendWback | with_reducible apply keeps_takeAt
    | with_reducible apply Keeps.ite | split | dsimp only

theorem keeps_execGnt {s0 : State} (pl : Place) (s : State) (h0 : Keeps s0 s) : KeepsO s0 (execGnt pl s) := by
  unfold execGnt
  repeat' first
    | with_reducible assumption | with_reducible apply keeps_inrGrant | with_reducible apply keeps_serveAt
    | with_reducible apply keeps_takeGnt | with_reducible intro _ _ _ | with_reducible intro _ _
    | with_reducible intro _ | split | dsimp only

theorem keeps_execWback {s0 : State} (pl : Place) (s : State) (h0 : Keeps s0 s) : KeepsO s0 (execWback pl s) := by
  unfold execWback
  repeat' first
    | with_reducible assumption | with_reducible apply keeps_inrWback | with_reducible apply keeps_serveAt
    | with_reducible apply keeps_takeWback | with_reducible intro _ _ _ | with_reducible intro _ _
    | with_reducible intro _ | split | dsimp only

theorem keeps_fetchLine {s0 : State} (s : State) (la : LineAddr) (h0 : Keeps s0 s) : Keeps s0 (fetchLine s la) := by
  unfold fetchLine
  repeat' first
    | with_reducible assumption | with_reducible apply keeps_bump | with_reducible apply keeps_modTrack
    | with_reducible apply keeps_presentCoh | split | dsimp only

theorem keeps_execCfetch {s0 : State} (la : LineAddr) (s : State) (h0 : Keeps s0 s) : KeepsO s0 (execCfetch la s) := by
  unfold execCfetch
  repeat' first
    | with_reducible assumption | with_reducible apply keeps_fetchLine | with_reducible apply KeepsO.next | split
    | dsimp only

theorem keeps_recallAnswer {s0 : State} (s : State) (x : Track) (t : Txn) (h : Holder) (h0 : Keeps s0 s) :
    Keeps s0 (recallAnswer s x t h) := by
  unfold recallAnswer
  repeat' first
    | with_reducible assumption | with_reducible apply keeps_lineLost | with_reducible apply keeps_modTrack
    | with_reducible apply keeps_recallEnds | with_reducible apply keeps_writeHome | with_reducible apply Keeps.ite
    | split | dsimp only

theorem keeps_directoryAnswer {s0 : State} (s : State) (x : Track) (t : Txn) (h : Holder) (h0 : Keeps s0 s) :
    Keeps s0 (directoryAnswer s x t h) := by
  unfold directoryAnswer
  repeat' first
    | with_reducible assumption | with_reducible apply keeps_dropHolder | with_reducible apply keeps_lineLost
    | with_reducible apply keeps_modLine | with_reducible apply keeps_modTrack | with_reducible apply keeps_snoopEnds
    | with_reducible apply Keeps.ite | split | dsimp only

theorem keeps_requestAnswer {s0 : State} (s : State) (x : Track) (t : Txn) (h : Holder) (h0 : Keeps s0 s) :
    Keeps s0 (requestAnswer s x t h) := by
  unfold requestAnswer
  repeat' first
    | with_reducible assumption | with_reducible apply keeps_dropHolder | with_reducible apply keeps_lineLost
    | with_reducible apply keeps_modLine | with_reducible apply keeps_modTrack
    | with_reducible apply keeps_settleTrack | with_reducible apply keeps_writeHome | with_reducible apply Keeps.ite
    | split | dsimp only

theorem keeps_takeSrsp {s0 : State} (s : State) (t : Txn) (h0 : Keeps s0 s) : Keeps s0 (takeSrsp s t) := by
  unfold takeSrsp
  repeat' first
    | with_reducible assumption | with_reducible apply keeps_directoryAnswer
    | with_reducible apply keeps_recallAnswer | with_reducible apply keeps_requestAnswer
    | with_reducible apply Keeps.ite | split | dsimp only

theorem keeps_execSrsp {s0 : State} (pl : Place) (s : State) (h0 : Keeps s0 s) : KeepsO s0 (execSrsp pl s) := by
  unfold execSrsp
  repeat' first
    | with_reducible assumption | with_reducible apply keeps_serveAt | with_reducible apply keeps_takeAt
    | with_reducible apply keeps_takeSrsp | with_reducible apply keeps_targetOr | with_reducible intro _ _ _
    | with_reducible intro _ _ | with_reducible intro _ | split | dsimp only

theorem keeps_takeSrspr {s0 : State} (s : State) (t : Txn) (h0 : Keeps s0 s) : Keeps s0 (takeSrspr s t) := by
  unfold takeSrspr
  repeat' first
    | with_reducible assumption | with_reducible apply keeps_modTrack | with_reducible apply keeps_recallEnds
    | with_reducible apply Keeps.ite | split | dsimp only

theorem keeps_execSrspr {s0 : State} (pl : Place) (s : State) (h0 : Keeps s0 s) : KeepsO s0 (execSrspr pl s) := by
  unfold execSrspr
  repeat' first
    | with_reducible assumption | with_reducible apply keeps_serveAt | with_reducible apply keeps_takeAt
    | with_reducible apply keeps_takeSrspr | with_reducible apply keeps_targetOr | with_reducible intro _ _ _
    | with_reducible intro _ _ | with_reducible intro _ | split | dsimp only

theorem keeps_dropStale {s0 : State} (s : State) (la : LineAddr) (h : Holder) (h0 : Keeps s0 s) :
    Keeps s0 (dropStale s la h) := by
  unfold dropStale
  repeat' first
    | with_reducible assumption | with_reducible apply keeps_dropHolder | with_reducible apply keeps_setFilter
    | with_reducible apply Keeps.ite | split | dsimp only

theorem keeps_takeCack {s0 : State} (s : State) (t : Txn) (h0 : Keeps s0 s) : Keeps s0 (takeCack s t) := by
  unfold takeCack
  repeat' first
    | with_reducible assumption | with_reducible apply keeps_dropStale | with_reducible apply keeps_modTrack
    | with_reducible apply keeps_settleTrack | with_reducible apply keeps_writeHome | with_reducible apply Keeps.ite
    | split | dsimp only

theorem keeps_execCack {s0 : State} (pl : Place) (s : State) (h0 : Keeps s0 s) : KeepsO s0 (execCack pl s) := by
  unfold execCack
  repeat' first
    | with_reducible assumption | with_reducible apply keeps_serveAt | with_reducible apply keeps_takeAt
    | with_reducible apply keeps_takeCack | with_reducible apply keeps_targetOr | with_reducible intro _ _ _
    | with_reducible intro _ _ | with_reducible intro _ | split | dsimp only

end Sys2Proof.Machine
end

