-- ==== Sys2Proof/Laws/KeepsSend.lean ====
section
/-!
SUPPORT. The functions of Machine/Send.lean keep what every command keeps.
-/

namespace Sys2Proof.Machine
open Sys2Proof

set_option linter.all false

theorem keeps_execCreditTimeout {s0 : State} (q : PortId) (s : State) (h0 : Keeps s0 s) :
    KeepsO s0 (execCreditTimeout q s) := by
  unfold execCreditTimeout
  repeat' first
    | with_reducible assumption | with_reducible apply keeps_onPort | with_reducible apply keeps_requestFull
    | with_reducible apply Keeps.ite | with_reducible apply keeps_onPort | split | dsimp only

theorem keeps_takeCand {s0 : State} (s : State) (c : Cand) (h0 : Keeps s0 s) : Keeps s0 (takeCand s c) := by
  unfold takeCand
  repeat' first
    | with_reducible assumption | with_reducible apply keeps_modPort | with_reducible apply keeps_takeAt | split
    | dsimp only

theorem keeps_countCoh {s0 : State} (s : State) (opc : BitVec 8) (h0 : Keeps s0 s) : Keeps s0 (countCoh s opc) := by
  unfold countCoh
  repeat' first
    | with_reducible assumption | with_reducible apply keeps_bump64 | with_reducible apply Keeps.ite | split
    | dsimp only

theorem keeps_noteTag {s0 : State} (s : State) (q : Nat) (tag : Tag) (w : Waiting) (h0 : Keeps s0 s) :
    Keeps s0 (noteTag s q tag w) := by
  unfold noteTag
  repeat' first
    | with_reducible assumption | with_reducible apply keeps_countCoh
    | fail_if_no_progress with_reducible apply Keeps.record | split | dsimp only

theorem keeps_commitTxn {s0 : State} (s : State) (q v : Nat) (c : Cand) (h0 : Keeps s0 s) :
    Keeps s0 (commitTxn s q v c) := by
  unfold commitTxn
  repeat' first
    | with_reducible assumption | with_reducible apply keeps_modPort | with_reducible apply keeps_setTag
    | with_reducible apply keeps_freeOf | with_reducible apply keeps_noteTag | with_reducible apply keeps_takeCand
    | with_reducible apply Keeps.ite | split | dsimp only

theorem keeps_refuseFeature {s0 : State} (s : State) (q : Nat) (c : Cand) (h0 : Keeps s0 s) :
    Keeps s0 (refuseFeature s q c) := by
  unfold refuseFeature
  repeat' first
    | with_reducible assumption | with_reducible apply keeps_bump | with_reducible apply keeps_countStatus
    | with_reducible apply keeps_answerAt | with_reducible apply keeps_freeVictim
    | with_reducible apply keeps_refuseMiss | with_reducible apply keeps_takeAt | with_reducible apply keeps_takeCand
    | with_reducible apply Keeps.ite | split | dsimp only

theorem keeps_commitStep {s0 : State} (s : State) (q : Nat) (h0 : Keeps s0 s) : KeepsM s0 (commitStep s q) := by
  unfold commitStep
  repeat' first
    | with_reducible assumption | with_reducible apply keeps_setPort | with_reducible apply keeps_commitTxn
    | with_reducible apply keeps_refuseFeature | with_reducible apply KeepsM.some | with_reducible apply KeepsM.none
    | split | dsimp only

theorem keeps_countReturn {s0 : State} (s : State) (q v n : Nat) (h0 : Keeps s0 s) :
    Keeps s0 (countReturn s q v n) := by
  unfold countReturn
  repeat' first
    | with_reducible assumption | with_reducible apply keeps_modPair | split | dsimp only

theorem keeps_takeReturn {s0 : State} (s : State) (q v n : Nat) (h0 : Keeps s0 s) : Keeps s0 (takeReturn s q v n) := by
  unfold takeReturn
  repeat' first
    | with_reducible assumption | with_reducible apply keeps_modPort | with_reducible apply keeps_countReturn
    | with_reducible apply Keeps.ite | split | dsimp only

theorem keeps_sendOnUnit {s0 : State} (f : Flit) (inverted : Bool) (place : Nat) (s : State) (u : Nat) (h0 : Keeps s0 s) :
    Keeps s0 (sendOnUnit f inverted place s u) := by
  unfold sendOnUnit
  repeat' first
    | with_reducible assumption | with_reducible apply keeps_emit | with_reducible apply keeps_modBundle
    | with_reducible apply keeps_modPort | with_reducible apply Keeps.ite | split | dsimp only

theorem keeps_driveFlit {s0 : State} (s : State) (q : Nat) (f : Flit) (inverted : Bool) (h0 : Keeps s0 s) :
    Keeps s0 (driveFlit s q f inverted) := by
  unfold driveFlit
  repeat' first
    | with_reducible assumption | with_reducible apply keeps_modPort | with_reducible apply keeps_pbump
    | with_reducible apply keeps_tev | with_reducible apply keeps_sendOnUnit | with_reducible apply Keeps.ite
    | with_reducible apply Keeps.foldl | with_reducible intro _ _ _ | with_reducible intro _ _
    | with_reducible intro _ | split | dsimp only

theorem keeps_sendNew {s0 : State} (s : State) (q : Nat) (f : Flit) (h0 : Keeps s0 s) : Keeps s0 (sendNew s q f) := by
  unfold sendNew
  repeat' first
    | with_reducible assumption | with_reducible apply keeps_modPort | with_reducible apply keeps_pbump64
    | with_reducible apply keeps_driveFlit | with_reducible apply keeps_takeReturn | split | dsimp only

theorem keeps_countSent {s0 : State} (q : Nat) (counts : List Nat) (s : State) (h0 : Keeps s0 s) :
    Keeps s0 (countSent q counts s) := by
  unfold countSent
  repeat' first
    | with_reducible assumption | with_reducible apply keeps_modPort | split | dsimp only

theorem keeps_sendReplay {s0 : State} (s : State) (q i : Nat) (h0 : Keeps s0 s) : Keeps s0 (sendReplay s q i) := by
  unfold sendReplay
  repeat' first
    | with_reducible assumption | with_reducible apply keeps_modPort | with_reducible apply keeps_pbump64
    | with_reducible apply keeps_countSent | with_reducible apply keeps_driveFlit
    | with_reducible apply keeps_takeReturn | with_reducible apply Keeps.ite | split | dsimp only

theorem keeps_flushPend {s0 : State} (s : State) (q : Nat) (h0 : Keeps s0 s) : Keeps s0 (flushPend s q) := by
  unfold flushPend
  repeat' first
    | with_reducible assumption | with_reducible apply keeps_modPort | with_reducible apply keeps_countReturn
    | with_reducible apply Keeps.foldl | with_reducible intro _ _ _ | with_reducible intro _ _
    | with_reducible intro _ | split | dsimp only

theorem keeps_sendCtrlFlit {s0 : State} (s : State) (q : Nat) (cs : List Cell) (h0 : Keeps s0 s) :
    Keeps s0 (sendCtrlFlit s q cs) := by
  unfold sendCtrlFlit
  repeat' first
    | with_reducible assumption | with_reducible apply keeps_modPort | with_reducible apply keeps_tev
    | with_reducible apply keeps_sendNew | with_reducible apply Keeps.foldl | with_reducible intro _ _ _
    | with_reducible intro _ _ | with_reducible intro _ | split | dsimp only

theorem keeps_sendAcko {s0 : State} (s : State) (q : Nat) (h0 : Keeps s0 s) : Keeps s0 (sendAcko s q) := by
  unfold sendAcko
  repeat' first
    | with_reducible assumption | with_reducible apply keeps_modPort | with_reducible apply keeps_driveFlit | split
    | dsimp only

theorem keeps_fillStream {s0 : State} (n : Nat) (s : State) (q : Nat) (h0 : Keeps s0 s) :
    Keeps s0 (fillStream n s q) := by
  induction n generalizing s with
  | zero => exact h0
  | succ n ih =>
    unfold fillStream
    refine Keeps.ite h0 ?_
    split
    next e => exact ih _ (KeepsM.get (keeps_commitStep _ _ h0) e)
    next => exact h0

theorem keeps_sendData {s0 : State} (s : State) (q : Nat) (h0 : Keeps s0 s) : Keeps s0 (sendData s q) := by
  unfold sendData
  repeat' first
    | with_reducible assumption | with_reducible apply keeps_modPort | with_reducible apply keeps_countSent
    | with_reducible apply keeps_sendNew | with_reducible apply Keeps.ite | split | dsimp only

theorem keeps_sendCredits {s0 : State} (s : State) (q : Nat) (h0 : Keeps s0 s) : Keeps s0 (sendCredits s q) := by
  unfold sendCredits
  repeat' first
    | with_reducible assumption | with_reducible apply keeps_flushPend | with_reducible apply keeps_sendCtrlFlit
    | with_reducible apply Keeps.ite | split | dsimp only

theorem keeps_sendAckOnly {s0 : State} (s : State) (q : Nat) (h0 : Keeps s0 s) : Keeps s0 (sendAckOnly s q) := by
  unfold sendAckOnly
  repeat' first
    | with_reducible assumption | with_reducible apply keeps_modPort | with_reducible apply keeps_sendAcko
    | with_reducible apply Keeps.ite | split | dsimp only

theorem keeps_fillOnDemand {s0 : State} (s : State) (q : Nat) (h0 : Keeps s0 s) : Keeps s0 (fillOnDemand s q) := by
  unfold fillOnDemand
  repeat' first
    | with_reducible assumption | with_reducible apply keeps_fillStream | with_reducible apply keeps_sendAckOnly
    | with_reducible apply keeps_sendData | with_reducible apply Keeps.ite | split | dsimp only

theorem keeps_fillSlot {s0 : State} (s : State) (q : Nat) (h0 : Keeps s0 s) : Keeps s0 (fillSlot s q) := by
  unfold fillSlot
  repeat' first
    | with_reducible assumption | with_reducible apply keeps_modPort | with_reducible apply keeps_fillOnDemand
    | with_reducible apply keeps_sendAckOnly | with_reducible apply keeps_sendCredits
    | with_reducible apply keeps_sendCtrlFlit | with_reducible apply keeps_sendNew
    | with_reducible apply keeps_sendReplay | split | dsimp only

theorem keeps_useSlot {s0 : State} (s : State) (q : Nat) (h0 : Keeps s0 s) : Keeps s0 (useSlot s q) := by
  unfold useSlot
  repeat' first
    | with_reducible assumption | with_reducible apply keeps_fillSlot | with_reducible apply Keeps.ite | split
    | dsimp only

theorem keeps_execFlitSlotFill {s0 : State} (q : PortId) (s : State) (h0 : Keeps s0 s) :
    KeepsO s0 (execFlitSlotFill q s) := by
  unfold execFlitSlotFill
  repeat' first
    | with_reducible assumption | with_reducible apply keeps_onPort | with_reducible apply keeps_useSlot
    | with_reducible apply keeps_onPort | split | dsimp only

theorem keeps_commitOne {s0 : State} (s : State) (q : Nat) (h0 : Keeps s0 s) : Keeps s0 (commitOne s q) := by
  unfold commitOne
  repeat' first
    | with_reducible assumption | with_reducible apply keeps_commitStep | with_reducible apply keeps_fillStream
    | with_reducible apply keeps_sendData | with_reducible apply keeps_wakePort | with_reducible apply Keeps.ite
    | with_reducible refine KeepsM.get ?_ (by with_reducible assumption) | split | dsimp only

theorem keeps_execTransactionCommit {s0 : State} (q : PortId) (s : State) (h0 : Keeps s0 s) :
    KeepsO s0 (execTransactionCommit q s) := by
  unfold execTransactionCommit
  repeat' first
    | with_reducible assumption | with_reducible apply keeps_commitOne | with_reducible apply keeps_onPort
    | with_reducible apply keeps_onPort | split | dsimp only

end Sys2Proof.Machine
end

