-- ==== Sys2Proof/Laws/KeepsRecovery.lean ====
section
/-!
SUPPORT. The functions of Machine/Recovery.lean keep what every command keeps.
-/

namespace Sys2Proof.Machine
open Sys2Proof

set_option linter.all false

theorem keeps_execFullReq {s0 : State} (q : PortId) (s : State) (h0 : Keeps s0 s) : KeepsO s0 (execFullReq q s) := by
  unfold execFullReq
  repeat' first
    | with_reducible assumption | with_reducible apply keeps_onPort | with_reducible apply keeps_requestFull
    | with_reducible apply keeps_onPort | split | dsimp only

theorem keeps_execRetrainReq {s0 : State} (q : PortId) (s : State) (h0 : Keeps s0 s) :
    KeepsO s0 (execRetrainReq q s) := by
  unfold execRetrainReq
  repeat' first
    | with_reducible assumption | with_reducible apply keeps_onPort | with_reducible apply keeps_requestRetrain
    | with_reducible apply keeps_onPort | split | dsimp only

theorem keeps_retrainEnds {s0 : State} (s : State) (q : Nat) (h0 : Keeps s0 s) : Keeps s0 (retrainEnds s q) := by
  unfold retrainEnds
  repeat' first
    | with_reducible assumption | with_reducible apply keeps_goto | with_reducible apply keeps_modPort
    | with_reducible apply keeps_pbump | with_reducible apply keeps_setRole | with_reducible apply Keeps.ite | split
    | dsimp only

theorem keeps_execRetrainComplete {s0 : State} (q : PortId) (s : State) (h0 : Keeps s0 s) :
    KeepsO s0 (execRetrainComplete q s) := by
  unfold execRetrainComplete
  repeat' first
    | with_reducible assumption | with_reducible apply keeps_onPort | with_reducible apply keeps_retrainEnds
    | with_reducible apply keeps_onPort | split | dsimp only

theorem keeps_pllLost {s0 : State} (s : State) (q : Nat) (h0 : Keeps s0 s) : Keeps s0 (pllLost s q) := by
  unfold pllLost
  repeat' first
    | with_reducible assumption | with_reducible apply keeps_modPort | with_reducible apply keeps_pbump
    | with_reducible apply keeps_put | with_reducible apply keeps_leavePair | with_reducible apply keeps_stopLink
    | with_reducible apply Keeps.ite | split | dsimp only

theorem keeps_execOwnPllLoss {s0 : State} (q : PortId) (s : State) (h0 : Keeps s0 s) :
    KeepsO s0 (execOwnPllLoss q s) := by
  unfold execOwnPllLoss
  repeat' first
    | with_reducible assumption | with_reducible apply keeps_onPort | with_reducible apply keeps_pllLost
    | with_reducible apply keeps_onPort | split | dsimp only

theorem keeps_execPllLossParkEnd {s0 : State} (q : PortId) (s : State) (h0 : Keeps s0 s) :
    KeepsO s0 (execPllLossParkEnd q s) := by
  unfold execPllLossParkEnd
  repeat' first
    | with_reducible assumption | with_reducible apply keeps_clearV | with_reducible apply keeps_modPort
    | with_reducible apply keeps_enterDetect | with_reducible apply keeps_onPort | with_reducible apply Keeps.ite
    | with_reducible apply keeps_onPort | split | dsimp only

theorem keeps_leaveFault {s0 : State} (s : State) (q cause : Nat) (h0 : Keeps s0 s) :
    Keeps s0 (leaveFault s q cause) := by
  unfold leaveFault
  repeat' first
    | with_reducible assumption | with_reducible apply keeps_modPort | with_reducible apply keeps_linkFull | split
    | dsimp only

theorem keeps_execFaultRetry {s0 : State} (q : PortId) (s : State) (h0 : Keeps s0 s) :
    KeepsO s0 (execFaultRetry q s) := by
  unfold execFaultRetry
  repeat' first
    | with_reducible assumption | with_reducible apply keeps_leaveFault | with_reducible apply keeps_onPort
    | with_reducible apply Keeps.ite | with_reducible apply keeps_onPort | split | dsimp only

theorem keeps_execStableActive {s0 : State} (q : PortId) (s : State) (h0 : Keeps s0 s) :
    KeepsO s0 (execStableActive q s) := by
  unfold execStableActive
  repeat' first
    | with_reducible assumption | with_reducible apply keeps_modPort | with_reducible apply keeps_onPort
    | with_reducible apply Keeps.ite | with_reducible apply keeps_onPort | split | dsimp only

theorem keeps_longHold {s0 : State} (s : State) (q : Nat) (h0 : Keeps s0 s) : Keeps s0 (longHold s q) := by
  unfold longHold
  repeat' first
    | with_reducible assumption | with_reducible apply keeps_irq | with_reducible apply keeps_modPort
    | with_reducible apply Keeps.ite | split | dsimp only

theorem keeps_execLongHoldNotice {s0 : State} (q : PortId) (s : State) (h0 : Keeps s0 s) :
    KeepsO s0 (execLongHoldNotice q s) := by
  unfold execLongHoldNotice
  repeat' first
    | with_reducible assumption | with_reducible apply keeps_longHold | with_reducible apply keeps_onPort
    | with_reducible apply keeps_onPort | split | dsimp only

theorem keeps_resetReqRetrain {s0 : State} (s : State) (q : Nat) (h0 : Keeps s0 s) :
    Keeps s0 (resetReqRetrain s q) := by
  unfold resetReqRetrain
  repeat' first
    | with_reducible assumption | with_reducible apply keeps_requestRetrain | split | dsimp only

theorem keeps_resetReqFull {s0 : State} (s : State) (q : Nat) (h0 : Keeps s0 s) : Keeps s0 (resetReqFull s q) := by
  unfold resetReqFull
  repeat' first
    | with_reducible assumption | with_reducible apply keeps_leaveFault | with_reducible apply keeps_requestFull
    | with_reducible apply Keeps.ite | split | dsimp only

theorem keeps_clearReceive {s0 : State} (s : State) (q : Nat) (h0 : Keeps s0 s) : Keeps s0 (clearReceive s q) := by
  unfold clearReceive
  repeat' first
    | with_reducible assumption | with_reducible apply keeps_irq | with_reducible apply keeps_modPort
    | with_reducible apply keeps_pbump | with_reducible apply Keeps.ite | split | dsimp only

theorem keeps_abortParam {s0 : State} (s : State) (q reason : Nat) (h0 : Keeps s0 s) :
    Keeps s0 (abortParam s q reason) := by
  unfold abortParam
  repeat' first
    | with_reducible assumption | with_reducible apply keeps_sendParam | with_reducible apply keeps_attemptFails
    | split | dsimp only

theorem keeps_sendEcho {s0 : State} (s : State) (q : Nat) (m : ParamMsg) (h0 : Keeps s0 s) :
    Keeps s0 (sendEcho s q m) := by
  unfold sendEcho
  repeat' first
    | with_reducible assumption | with_reducible apply keeps_modPort | with_reducible apply keeps_sendParam
    | with_reducible apply Keeps.ite | split | dsimp only

theorem keeps_checkCompat {s0 : State} (s : State) (q : Nat) (m : ParamMsg) (h0 : Keeps s0 s) :
    Keeps s0 (checkCompat s q m) := by
  unfold checkCompat
  repeat' first
    | with_reducible assumption | with_reducible apply keeps_bump | with_reducible apply keeps_irq
    | with_reducible apply Keeps.ite | split | dsimp only

theorem keeps_receiveOffer {s0 : State} (s : State) (q : Nat) (m : ParamMsg) (h0 : Keeps s0 s) :
    Keeps s0 (receiveOffer s q m) := by
  unfold receiveOffer
  repeat' first
    | with_reducible assumption | with_reducible apply keeps_modPort | with_reducible apply keeps_abortParam
    | with_reducible apply keeps_checkCompat | with_reducible apply keeps_clearReceive
    | with_reducible apply keeps_sendEcho | with_reducible apply Keeps.ite | split | dsimp only

theorem keeps_execOffer {s0 : State} (q : PortId) (body : BitVec 1920) (s : State) (h0 : Keeps s0 s) :
    KeepsO s0 (execOffer q body s) := by
  unfold execOffer
  repeat' first
    | with_reducible assumption | with_reducible apply keeps_onPort | with_reducible apply keeps_receiveOffer
    | with_reducible apply keeps_onPort | split | dsimp only

theorem keeps_receiveEcho {s0 : State} (s : State) (q : Nat) (m : ParamMsg) (h0 : Keeps s0 s) :
    Keeps s0 (receiveEcho s q m) := by
  unfold receiveEcho
  repeat' first
    | with_reducible assumption | with_reducible apply keeps_modPort | with_reducible apply keeps_sendParam
    | with_reducible apply keeps_abortParam | with_reducible apply Keeps.ite | split | dsimp only

theorem keeps_execEcho {s0 : State} (q : PortId) (body : BitVec 1920) (s : State) (h0 : Keeps s0 s) :
    KeepsO s0 (execEcho q body s) := by
  unfold execEcho
  repeat' first
    | with_reducible assumption | with_reducible apply keeps_onPort | with_reducible apply keeps_receiveEcho
    | with_reducible apply keeps_onPort | split | dsimp only

theorem keeps_receiveCommit {s0 : State} (s : State) (q : Nat) (m : ParamMsg) (h0 : Keeps s0 s) :
    Keeps s0 (receiveCommit s q m) := by
  unfold receiveCommit
  repeat' first
    | with_reducible assumption | with_reducible apply keeps_modPort | with_reducible apply Keeps.ite | split
    | dsimp only

theorem keeps_execCommit {s0 : State} (q : PortId) (body : BitVec 1920) (s : State) (h0 : Keeps s0 s) :
    KeepsO s0 (execCommit q body s) := by
  unfold execCommit
  repeat' first
    | with_reducible assumption | with_reducible apply keeps_onPort | with_reducible apply keeps_receiveCommit
    | with_reducible apply keeps_onPort | split | dsimp only

theorem keeps_receiveParamAbort {s0 : State} (s : State) (q : Nat) (h0 : Keeps s0 s) :
    Keeps s0 (receiveParamAbort s q) := by
  unfold receiveParamAbort
  repeat' first
    | with_reducible assumption | with_reducible apply keeps_attemptFails | with_reducible apply keeps_clearReceive
    | with_reducible apply keeps_lateMessage | with_reducible apply Keeps.ite | split | dsimp only

theorem keeps_execParamAbort {s0 : State} (q : PortId) (s : State) (h0 : Keeps s0 s) :
    KeepsO s0 (execParamAbort q s) := by
  unfold execParamAbort
  repeat' first
    | with_reducible assumption | with_reducible apply keeps_onPort | with_reducible apply keeps_receiveParamAbort
    | with_reducible apply keeps_onPort | split | dsimp only

theorem keeps_execOfferRepeat {s0 : State} (q : PortId) (s : State) (h0 : Keeps s0 s) :
    KeepsO s0 (execOfferRepeat q s) := by
  unfold execOfferRepeat
  repeat' first
    | with_reducible assumption | with_reducible apply keeps_onPort | with_reducible apply keeps_sendEcho
    | with_reducible apply Keeps.ite | with_reducible apply keeps_onPort | split | dsimp only

theorem keeps_execParamTimeout {s0 : State} (q : PortId) (s : State) (h0 : Keeps s0 s) :
    KeepsO s0 (execParamTimeout q s) := by
  unfold execParamTimeout
  repeat' first
    | with_reducible assumption | with_reducible apply keeps_attemptFails | with_reducible apply keeps_onPort
    | with_reducible apply Keeps.ite | with_reducible apply keeps_onPort | split | dsimp only

theorem keeps_clearUnits {s0 : State} (s : State) (l : Nat) (h0 : Keeps s0 s) : Keeps s0 (clearUnits s l) := by
  unfold clearUnits
  repeat' first
    | with_reducible assumption | with_reducible apply keeps_modPort | split | dsimp only

theorem keeps_settleLink {s0 : State} (s : State) (l : Nat) (m : ParamMsg) (gen : Gen) (h0 : Keeps s0 s) :
    Keeps s0 (settleLink s l m gen) := by
  unfold settleLink
  repeat' first
    | with_reducible assumption | with_reducible apply keeps_pbump | with_reducible apply keeps_setPort
    | with_reducible apply keeps_clearUnits | with_reducible apply Keeps.ite | split | dsimp only

theorem keeps_recordPartner {s0 : State} (s : State) (q : Nat) (m : ParamMsg) (h0 : Keeps s0 s) :
    Keeps s0 (recordPartner s q m) := by
  unfold recordPartner
  repeat' first
    | with_reducible assumption | with_reducible apply keeps_modPort | with_reducible apply keeps_put | split
    | dsimp only

theorem keeps_learnRoute {s0 : State} (s : State) (l : Nat) (d : Die) (h0 : Keeps s0 s) :
    Keeps s0 (learnRoute s l d) := by
  unfold learnRoute
  repeat' first
    | with_reducible assumption | with_reducible apply Keeps.ite
    | fail_if_no_progress with_reducible apply Keeps.record | split | dsimp only

theorem keeps_takeMask {s0 : State} (s : State) (q : Nat) (mask : Nat) (h0 : Keeps s0 s) :
    Keeps s0 (takeMask s q mask) := by
  unfold takeMask
  repeat' first
    | with_reducible assumption | with_reducible apply keeps_modPort | with_reducible apply keeps_service
    | with_reducible apply Keeps.ite | split | dsimp only

theorem keeps_rejoinUnit {s0 : State} (s : State) (k q : Nat) (m : ParamMsg) (mask : Nat) (h0 : Keeps s0 s) :
    Keeps s0 (rejoinUnit s k q m mask) := by
  unfold rejoinUnit
  repeat' first
    | with_reducible assumption | with_reducible apply keeps_irq | with_reducible apply keeps_service
    | with_reducible apply keeps_setRole | with_reducible apply Keeps.ite | split | dsimp only

theorem keeps_enterActive {s0 : State} (s : State) (q : Nat) (h0 : Keeps s0 s) : Keeps s0 (enterActive s q) := by
  unfold enterActive
  repeat' first
    | with_reducible assumption | with_reducible apply keeps_goto | with_reducible apply keeps_modPair
    | with_reducible apply keeps_modPort | with_reducible apply keeps_service | with_reducible apply keeps_learnRoute
    | with_reducible apply keeps_recordPartner | with_reducible apply keeps_rejoinUnit
    | with_reducible apply keeps_setRole | with_reducible apply keeps_settleLink
    | with_reducible apply keeps_takeMask | with_reducible apply Keeps.ite | split | dsimp only

theorem keeps_execEnterActive {s0 : State} (q : PortId) (s : State) (h0 : Keeps s0 s) :
    KeepsO s0 (execEnterActive q s) := by
  unfold execEnterActive
  repeat' first
    | with_reducible assumption | with_reducible apply keeps_enterActive | with_reducible apply keeps_onPort
    | with_reducible apply keeps_onPort | split | dsimp only

end Sys2Proof.Machine
end

