-- ==== Sys2Proof/Laws/KeepsIfr.lean ====
section
/-!
SUPPORT. The functions of Machine/Ifr.lean keep what every command keeps.
-/

namespace Sys2Proof.Machine
open Sys2Proof

set_option linter.all false

theorem keeps_setRid {s0 : State} (s : State) (rid : Rid) (r : RidState) (h0 : Keeps s0 s) :
    Keeps s0 (setRid s rid r) := by
  unfold setRid
  repeat' first
    | with_reducible assumption | fail_if_no_progress with_reducible apply Keeps.record | split | dsimp only

theorem keeps_freeRid {s0 : State} (s : State) (rid : Rid) (h0 : Keeps s0 s) : Keeps s0 (freeRid s rid) := by
  unfold freeRid
  repeat' first
    | with_reducible assumption | fail_if_no_progress with_reducible apply Keeps.record | split | dsimp only

theorem keeps_setOrphans {s0 : State} (s : State) (os : List Orphan) (h0 : Keeps s0 s) :
    Keeps s0 (setOrphans s os) := by
  unfold setOrphans
  repeat' first
    | with_reducible assumption | fail_if_no_progress with_reducible apply Keeps.record | split | dsimp only

theorem keeps_rstat {s0 : State} (s : State) (ten : Ten) (rqid : BitVec 16) (status : BitVec 8) (rkind : BitVec 4) (rid : Rid) (blkx : Nat) (f : BlkFlags) (eng : Nat) (h0 : Keeps s0 s) :
    Keeps s0 (rstat s ten rqid status rkind rid blkx f eng) := by
  unfold rstat
  repeat' first
    | with_reducible assumption | with_reducible apply keeps_toIfi | split | dsimp only

theorem keeps_toOrphans {s0 : State} (s : State) (b : BlockIn) (res : Bool) (h0 : Keeps s0 s) :
    Keeps s0 (toOrphans s b res) := by
  unfold toOrphans
  repeat' first
    | with_reducible assumption | with_reducible apply keeps_setOrphans | split | dsimp only

theorem keeps_stage {s0 : State} (s : State) (r : RidState) (b : BlockIn) (src : Nat) (h0 : Keeps s0 s) :
    Keeps s0 (stage s r b src) := by
  unfold stage
  repeat' first
    | with_reducible assumption | with_reducible apply keeps_setRid | split | dsimp only

theorem keeps_offerBlock {s0 : State} (s : State) (b : BlockIn) (h0 : Keeps s0 s) : KeepsM s0 (offerBlock s b) := by
  unfold offerBlock
  repeat' first
    | with_reducible assumption | with_reducible apply keeps_bump | with_reducible apply keeps_stage
    | with_reducible apply keeps_toOrphans | with_reducible apply KeepsM.some | with_reducible apply KeepsM.none
    | with_reducible apply KeepsM.ite | split | dsimp only

theorem keeps_takeBlocks {s0 : State} (w : Waiting) (holder : Option Holder) (n i : Nat) (s : State) (h0 : Keeps s0 s) :
    KeepsP s0 (takeBlocks w holder n i s) := by
  induction n generalizing i s with
  | zero => exact h0
  | succ n ih =>
    unfold takeBlocks
    refine KeepsP.ite (KeepsP.mk h0) ?_
    split
    next e => exact ih _ _ (KeepsM.get (keeps_offerBlock _ _ h0) e)
    next => exact h0

theorem keeps_creditPart {s0 : State} (s : State) (pl : Place) (w : Waiting) (n : Nat) (h0 : Keeps s0 s) :
    Keeps s0 (creditPart s pl w n) := by
  unfold creditPart
  repeat' first
    | with_reducible assumption | with_reducible apply keeps_creditDie | with_reducible apply keeps_creditLink
    | with_reducible apply Keeps.ite | split | dsimp only

theorem keeps_serveBlocks {s0 : State} (s : State) (pl : Place) (w : Waiting) (holder : Option Holder) (h0 : Keeps s0 s) :
    Keeps s0 (serveBlocks s pl w holder) := by
  unfold serveBlocks
  repeat' first
    | with_reducible assumption | with_reducible apply keeps_creditPart | with_reducible apply keeps_putAt
    | with_reducible apply keeps_takeAt | with_reducible apply keeps_takeBlocks | with_reducible apply Keeps.ite
    | split | dsimp only | with_reducible apply KeepsP.proj

theorem keeps_ridDone {s0 : State} (s : State) (rid : Rid) (r : RidState) (h0 : Keeps s0 s) :
    Keeps s0 (ridDone s rid r) := by
  unfold ridDone
  repeat' first
    | with_reducible assumption | with_reducible apply keeps_freeRid | with_reducible apply keeps_rstat | split
    | dsimp only

theorem keeps_presentRes {s0 : State} (s : State) (r : RidState) (blk nb fmt : Nat) (f : BlkFlags) (bytes : List Byte) (h0 : Keeps s0 s) :
    Keeps s0 (presentRes s r blk nb fmt f bytes) := by
  unfold presentRes
  repeat' first
    | with_reducible assumption | with_reducible apply keeps_toIfi | split | dsimp only

theorem keeps_giveRes {s0 : State} (s : State) (r : RidState) (blk nb fmt : Nat) (f : BlkFlags) (bytes : List Byte) (h0 : Keeps s0 s) :
    Keeps s0 (giveRes s r blk nb fmt f bytes) := by
  unfold giveRes
  repeat' first
    | with_reducible assumption | with_reducible apply keeps_presentRes | with_reducible apply keeps_sendOut
    | with_reducible apply Keeps.ite | with_reducible apply Keeps.foldl | with_reducible intro _ _ _
    | with_reducible intro _ _ | with_reducible intro _ | split | dsimp only

theorem keeps_countBlocks {s0 : State} (s : State) (fs : List BlkFlags) (h0 : Keeps s0 s) :
    Keeps s0 (countBlocks s fs) := by
  unfold countBlocks
  repeat' first
    | with_reducible assumption | with_reducible apply keeps_bump64 | split | dsimp only

theorem keeps_adoptRes {s0 : State} (s : State) (rid : Rid) (r : RidState) (o : Orphan) (h0 : Keeps s0 s) :
    Keeps s0 (adoptRes s rid r o) := by
  unfold adoptRes
  repeat' first
    | with_reducible assumption | with_reducible apply keeps_rstat | with_reducible apply keeps_bump
    | with_reducible apply keeps_ridDone | with_reducible apply keeps_giveRes | with_reducible apply keeps_setRid
    | with_reducible apply Keeps.ite | split | dsimp only

theorem keeps_adoptContribution {s0 : State} (s : State) (rid : Rid) (r : RidState) (o : Orphan) (h0 : Keeps s0 s) :
    Keeps s0 (adoptContribution s rid r o) := by
  unfold adoptContribution
  repeat' first
    | with_reducible assumption | with_reducible apply keeps_rstat | with_reducible apply keeps_bump
    | with_reducible apply keeps_stage | with_reducible apply Keeps.ite | split | dsimp only

theorem keeps_adoptOrphans {s0 : State} (s : State) (rid : Rid) (h0 : Keeps s0 s) : Keeps s0 (adoptOrphans s rid) := by
  unfold adoptOrphans
  repeat' first
    | with_reducible assumption | with_reducible apply keeps_adoptRes | with_reducible apply keeps_adoptContribution
    | with_reducible apply keeps_setOrphans | with_reducible apply Keeps.ite
    | with_reducible apply Keeps.foldl | with_reducible intro _ _ _ | with_reducible intro _ _
    | with_reducible intro _ | split | dsimp only

theorem keeps_rootResults {s0 : State} (s : State) (r : RidState) (k0 : Nat) (outs : List (List Byte × BlkFlags)) (h0 : Keeps s0 s) :
    Keeps s0 (rootResults s r k0 outs) := by
  unfold rootResults
  repeat' first
    | with_reducible assumption | with_reducible apply keeps_giveRes | with_reducible apply Keeps.foldl
    | with_reducible intro _ _ _ | with_reducible intro _ _ | with_reducible intro _ | split | dsimp only

theorem keeps_startGroup {s0 : State} (s : State) (rid : Rid) (r : RidState) (n : Nat) (h0 : Keeps s0 s) :
    Keeps s0 (startGroup s rid r n) := by
  unfold startGroup
  repeat' first
    | with_reducible assumption | with_reducible apply keeps_adoptOrphans | with_reducible apply keeps_countBlocks
    | with_reducible apply keeps_ridDone | with_reducible apply keeps_rootResults
    | with_reducible apply keeps_sendOut | with_reducible apply keeps_setRid | with_reducible apply Keeps.ite | split
    | dsimp only

theorem keeps_noteGroup {s0 : State} (s : State) (rid : Rid) (r : RidState) (n : Nat) (h0 : Keeps s0 s) :
    Keeps s0 (noteGroup s rid r n) := by
  unfold noteGroup
  repeat' first
    | with_reducible assumption | with_reducible apply keeps_setRid
    | fail_if_no_progress with_reducible apply Keeps.record | split | dsimp only

theorem keeps_execBlockStart {s0 : State} (rid : Rid) (s : State) (h0 : Keeps s0 s) :
    KeepsO s0 (execBlockStart rid s) := by
  unfold execBlockStart
  repeat' first
    | with_reducible assumption | with_reducible apply keeps_noteGroup | with_reducible apply keeps_startGroup
    | with_reducible apply Keeps.ite | with_reducible apply KeepsO.next | with_reducible apply KeepsO.ite | split
    | dsimp only

theorem keeps_openRid {s0 : State} (s : State) (k : Nat) (w : Waiting) (h0 : Keeps s0 s) :
    Keeps s0 (openRid s k w) := by
  unfold openRid
  repeat' first
    | with_reducible assumption | with_reducible apply keeps_bump | with_reducible apply keeps_adoptOrphans
    | with_reducible apply keeps_rstat | with_reducible apply keeps_setRid | with_reducible apply keeps_takeAt
    | with_reducible apply Keeps.ite | split | dsimp only

theorem keeps_onRed {s0 : State} (s : State) (k : Nat) (opc : BitVec 8) (f : Waiting → State)
    (h0 : Keeps s0 s) (hf : ∀ w, Keeps s0 (f w)) : KeepsO s0 (onRed s k opc f) := by
  unfold onRed
  repeat' first
    | with_reducible assumption | with_reducible apply Keeps.ite | with_reducible apply KeepsO.next
    | with_reducible apply hf | with_reducible intro _ _ _ | with_reducible intro _ _ | split | dsimp only

theorem keeps_execRopen {s0 : State} (k : Nat) (s : State) (h0 : Keeps s0 s) : KeepsO s0 (execRopen k s) := by
  unfold execRopen
  repeat' first
    | with_reducible assumption | with_reducible apply keeps_onRed | with_reducible apply keeps_openRid
    | with_reducible intro _ _ _ | with_reducible intro _ _ | with_reducible intro _ | split | dsimp only

theorem keeps_refuseCont {s0 : State} (s : State) (k : Nat) (t : Txn) (st : BitVec 8) (h0 : Keeps s0 s) :
    Keeps s0 (refuseCont s k t st) := by
  unfold refuseCont
  repeat' first
    | with_reducible assumption | with_reducible apply keeps_bump | with_reducible apply keeps_rstat
    | with_reducible apply keeps_takeAt | with_reducible apply Keeps.ite | split | dsimp only

theorem keeps_takeCont {s0 : State} (s : State) (k : Nat) (w : Waiting) (h0 : Keeps s0 s) :
    Keeps s0 (takeCont s k w) := by
  unfold takeCont
  repeat' first
    | with_reducible assumption | with_reducible apply keeps_refuseCont | with_reducible apply keeps_serveBlocks
    | with_reducible apply Keeps.ite | split | dsimp only

theorem keeps_execRcont {s0 : State} (k : Nat) (s : State) (h0 : Keeps s0 s) : KeepsO s0 (execRcont k s) := by
  unfold execRcont
  repeat' first
    | with_reducible assumption | with_reducible apply keeps_onRed | with_reducible apply keeps_takeCont
    | with_reducible intro _ _ _ | with_reducible intro _ _ | with_reducible intro _ | split | dsimp only

theorem keeps_abortRid {s0 : State} (s : State) (rid : Rid) (ten : Ten) (rqid : BitVec 16) (status : BitVec 8) (h0 : Keeps s0 s) :
    Keeps s0 (abortRid s rid ten rqid status) := by
  unfold abortRid
  repeat' first
    | with_reducible assumption | with_reducible apply keeps_rstat | with_reducible apply keeps_setOrphans
    | with_reducible apply keeps_setRid | split | dsimp only

theorem keeps_execRabort {s0 : State} (k : Nat) (s : State) (h0 : Keeps s0 s) : KeepsO s0 (execRabort k s) := by
  unfold execRabort
  repeat' first
    | with_reducible assumption | with_reducible apply keeps_abortRid | with_reducible apply keeps_onRed
    | with_reducible apply keeps_takeAt | with_reducible intro _ _ _ | with_reducible intro _ _
    | with_reducible intro _ | split | dsimp only

theorem keeps_abortWrite {s0 : State} (s : State) (v : Nat) (h0 : Keeps s0 s) : Keeps s0 (abortWrite s v) := by
  unfold abortWrite
  repeat' first
    | with_reducible assumption | with_reducible apply keeps_abortRid | split | dsimp only

theorem keeps_badBlock {s0 : State} (s : State) (pl : Place) (r : RidState) (h : BlkHead) (blkx : Nat) (h0 : Keeps s0 s) :
    Keeps s0 (badBlock s pl r h blkx) := by
  unfold badBlock
  repeat' first
    | with_reducible assumption | with_reducible apply keeps_bump | with_reducible apply keeps_rstat
    | with_reducible apply keeps_takeAt | split | dsimp only

theorem keeps_discardAborted {s0 : State} (s : State) (pl : Place) (n : Nat) (h0 : Keeps s0 s) :
    Keeps s0 (discardAborted s pl n) := by
  unfold discardAborted
  repeat' first
    | with_reducible assumption | with_reducible apply keeps_bump | with_reducible apply keeps_takeAt | split
    | dsimp only

theorem keeps_takeRblk {s0 : State} (s : State) (pl : Place) (w : Waiting) (h0 : Keeps s0 s) :
    Keeps s0 (takeRblk s pl w) := by
  unfold takeRblk
  repeat' first
    | with_reducible assumption | with_reducible apply keeps_badBlock | with_reducible apply keeps_discardAborted
    | with_reducible apply keeps_serveBlocks | with_reducible apply Keeps.ite | split | dsimp only

theorem keeps_execRblk {s0 : State} (pl : Place) (s : State) (h0 : Keeps s0 s) : KeepsO s0 (execRblk pl s) := by
  unfold execRblk
  repeat' first
    | with_reducible assumption | with_reducible apply keeps_serveAt | with_reducible apply keeps_takeRblk
    | with_reducible apply keeps_targetOr | with_reducible intro _ _ _ | with_reducible intro _ _
    | with_reducible intro _ | split | dsimp only

theorem keeps_pooledRres {s0 : State} (s : State) (pl : Place) (w : Waiting) (h0 : Keeps s0 s) :
    Keeps s0 (pooledRres s pl w) := by
  unfold pooledRres
  repeat' first
    | with_reducible assumption | with_reducible apply keeps_takeAt | with_reducible apply keeps_toOrphans
    | with_reducible apply Keeps.ite | with_reducible apply Keeps.foldl | with_reducible intro _ _ _
    | with_reducible intro _ _ | with_reducible intro _ | split | dsimp only

theorem keeps_takeRres {s0 : State} (s : State) (pl : Place) (w : Waiting) (h0 : Keeps s0 s) :
    Keeps s0 (takeRres s pl w) := by
  unfold takeRres
  repeat' first
    | with_reducible assumption | with_reducible apply keeps_badBlock | with_reducible apply keeps_discardAborted
    | with_reducible apply keeps_giveRes | with_reducible apply keeps_pooledRres | with_reducible apply keeps_ridDone
    | with_reducible apply keeps_setRid | with_reducible apply keeps_takeAt | with_reducible apply Keeps.ite | split
    | dsimp only

theorem keeps_execRres {s0 : State} (pl : Place) (s : State) (h0 : Keeps s0 s) : KeepsO s0 (execRres pl s) := by
  unfold execRres
  repeat' first
    | with_reducible assumption | with_reducible apply keeps_serveAt | with_reducible apply keeps_takeRres
    | with_reducible apply keeps_targetOr | with_reducible intro _ _ _ | with_reducible intro _ _
    | with_reducible intro _ | split | dsimp only

theorem keeps_resumeRx {s0 : State} (n : Nat) (s : State) (q : PortId) (i : Nat) (h0 : Keeps s0 s) :
    Keeps s0 (resumeRx n s q i) := by
  induction n generalizing s i with
  | zero => exact h0
  | succ n ih =>
    unfold resumeRx
    split
    · exact h0
    · exact Keeps.ite (ih _ _ (keeps_takeRblk _ _ _ h0)) (ih _ _ h0)

theorem keeps_resumeRed {s0 : State} (n : Nat) (s : State) (k : Nat) (h0 : Keeps s0 s) :
    Keeps s0 (resumeRed n s k) := by
  induction n generalizing s k with
  | zero => exact h0
  | succ n ih =>
    unfold resumeRed
    split
    · exact h0
    · exact Keeps.ite (ih _ _ (keeps_takeCont _ _ _ h0)) (ih _ _ h0)

theorem keeps_execBlockStageResume {s0 : State} (s : State) (h0 : Keeps s0 s) : KeepsO s0 (execBlockStageResume s) := by
  unfold execBlockStageResume
  repeat' first
    | with_reducible assumption | with_reducible apply keeps_resumeRed | with_reducible apply keeps_resumeRx
    | with_reducible apply Keeps.foldl | with_reducible apply KeepsO.next | with_reducible intro _ _ _
    | with_reducible intro _ _ | with_reducible intro _ | split | dsimp only

theorem keeps_setEngines {s0 : State} (s : State) (mask : Nat) (h0 : Keeps s0 s) : Keeps s0 (setEngines s mask) := by
  unfold setEngines
  repeat' first
    | with_reducible assumption | with_reducible apply keeps_put | with_reducible apply Keeps.ite | split
    | dsimp only

theorem keeps_execResidueError {s0 : State} (e : EngineId) (residue : BitVec 2) (s : State) (h0 : Keeps s0 s) :
    KeepsO s0 (execResidueError e residue s) := by
  unfold execResidueError
  repeat' first
    | with_reducible assumption | with_reducible apply keeps_bump | with_reducible apply keeps_service
    | with_reducible apply KeepsO.next | with_reducible apply KeepsO.fault | with_reducible apply KeepsO.ite
    | fail_if_no_progress with_reducible apply Keeps.record | split | dsimp only

theorem keeps_execRidMove {s0 : State} (rid : Rid) (s : State) (h0 : Keeps s0 s) : KeepsO s0 (execRidMove rid s) := by
  unfold execRidMove
  repeat' first
    | with_reducible assumption | with_reducible apply keeps_setRid | with_reducible apply Keeps.ite
    | with_reducible apply KeepsO.next | split | dsimp only

theorem keeps_execRidMoveEnd {s0 : State} (rid : Rid) (s : State) (h0 : Keeps s0 s) :
    KeepsO s0 (execRidMoveEnd rid s) := by
  unfold execRidMoveEnd
  repeat' first
    | with_reducible assumption | with_reducible apply keeps_bump | with_reducible apply keeps_rstat
    | with_reducible apply keeps_setRid | with_reducible apply KeepsO.next | with_reducible apply KeepsO.ite | split
    | dsimp only

end Sys2Proof.Machine
end

