-- ==== Sys2Proof/Laws/KeepsSched.lean ====
section
/-!
SUPPORT. The functions of Machine/Sched.lean keep what every command keeps.
-/

namespace Sys2Proof.Machine
open Sys2Proof

set_option linter.all false

theorem keeps_modSch {s0 : State} (s : State) (f : Sched → Sched) (h0 : Keeps s0 s) : Keeps s0 (State.modSch s f) := by
  unfold State.modSch
  repeat' first
    | with_reducible assumption | fail_if_no_progress with_reducible apply Keeps.record | split | dsimp only

theorem keeps_sendVoid {s0 : State} (s : State) (q reason : Nat) (epoch : Epoch) (slot : SlotId) (ten : Ten) (h0 : Keeps s0 s) :
    Keeps s0 (sendVoid s q reason epoch slot ten) := by
  unfold sendVoid
  repeat' first
    | with_reducible assumption | with_reducible apply keeps_pbump | with_reducible apply keeps_sendCtrl
    | with_reducible apply Keeps.ite | split | dsimp only

theorem keeps_dropSch {s0 : State} (s : State) (seq : Nat) (h0 : Keeps s0 s) : Keeps s0 (dropSch s seq) := by
  unfold dropSch
  repeat' first
    | with_reducible assumption | with_reducible apply keeps_creditDie
    | fail_if_no_progress with_reducible apply Keeps.record | split | dsimp only

theorem keeps_srcRefused {s0 : State} (s : State) (q : Nat) (slot : SlotId) (ten : Ten) (reason : Nat) (epoch : Epoch) (h0 : Keeps s0 s) :
    Keeps s0 (srcRefused s q slot ten reason epoch) := by
  unfold srcRefused
  repeat' first
    | with_reducible assumption | with_reducible apply keeps_pbump | with_reducible apply keeps_presentHead | split
    | dsimp only

theorem keeps_unassign {s0 : State} (s : State) (q : Nat) (a : Assigned) (reason : Nat) (h0 : Keeps s0 s) :
    Keeps s0 (unassign s q a reason) := by
  unfold unassign
  repeat' first
    | with_reducible assumption | with_reducible apply keeps_modPort | with_reducible apply keeps_dropSch
    | with_reducible apply keeps_srcRefused | with_reducible apply Keeps.ite | split | dsimp only

theorem keeps_sendLeap {s0 : State} (s : State) (c : Cell) (q : Nat) (h0 : Keeps s0 s) : Keeps s0 (sendLeap s c q) := by
  unfold sendLeap
  repeat' first
    | with_reducible assumption | with_reducible apply keeps_sendCtrl | with_reducible apply Keeps.ite
    | with_reducible apply Keeps.foldl | with_reducible intro _ _ _ | with_reducible intro _ _
    | with_reducible intro _ | split | dsimp only

theorem keeps_presentFault {s0 : State} (s : State) (reason : Nat) (epoch : Epoch) (h0 : Keeps s0 s) :
    Keeps s0 (presentFault s reason epoch) := by
  unfold presentFault
  repeat' first
    | with_reducible assumption | with_reducible apply keeps_irq | with_reducible apply keeps_put
    | with_reducible apply keeps_presentHead | with_reducible apply Keeps.foldl | with_reducible intro _ _ _
    | with_reducible intro _ _ | with_reducible intro _ | split | dsimp only

theorem keeps_noteCell {s0 : State} (s : State) (c : Cell) (h0 : Keeps s0 s) : Keeps s0 (noteCell s c) := by
  unfold noteCell
  repeat' first
    | with_reducible assumption | with_reducible apply keeps_modSch | split | dsimp only

theorem keeps_floodCell {s0 : State} (s : State) (c : Cell) (src : Option Nat) (h0 : Keeps s0 s) :
    Keeps s0 (floodCell s c src) := by
  unfold floodCell
  repeat' first
    | with_reducible assumption | with_reducible apply keeps_sendCtrl | with_reducible apply Keeps.foldl
    | with_reducible intro _ _ _ | with_reducible intro _ _ | with_reducible intro _ | split | dsimp only

theorem keeps_newNotice {s0 : State} (s : State) (c : Cell) (src : Option Nat) (reason : Nat) (epoch : Epoch) (h0 : Keeps s0 s) :
    Keeps s0 (newNotice s c src reason epoch) := by
  unfold newNotice
  repeat' first
    | with_reducible assumption | with_reducible apply keeps_bump | with_reducible apply keeps_floodCell
    | with_reducible apply keeps_noteCell | with_reducible apply keeps_presentFault | with_reducible apply Keeps.ite
    | split | dsimp only

theorem keeps_domainFault {s0 : State} (s : State) (reason : Nat) (epoch : Epoch) (h0 : Keeps s0 s) :
    Keeps s0 (domainFault s reason epoch) := by
  unfold domainFault
  repeat' first
    | with_reducible assumption | with_reducible apply keeps_newNotice | split | dsimp only

theorem keeps_catchUp {s0 : State} (s : State) (n : Epoch) (d : Nat) (h0 : Keeps s0 s) : Keeps s0 (catchUp s n d) := by
  unfold catchUp
  repeat' first
    | with_reducible assumption | with_reducible apply keeps_bump | with_reducible apply keeps_modSch
    | with_reducible apply keeps_floodCell | with_reducible apply keeps_noteCell
    | with_reducible apply keeps_presentFault | split | dsimp only

theorem keeps_mergeEpoch {s0 : State} (k : Nat) (x : State × Bool) (n : Epoch) (h0 : KeepsP s0 x) :
    KeepsP s0 (mergeEpoch k x n) := by
  obtain ⟨y, z⟩ := x
  replace h0 : Keeps s0 y := h0
  unfold mergeEpoch
  repeat' first
    | with_reducible assumption | with_reducible apply keeps_bump | with_reducible apply keeps_modSch
    | with_reducible apply keeps_catchUp | with_reducible apply keeps_domainFault | with_reducible apply KeepsP.mk
    | split | dsimp only

theorem keeps_merge {s0 : State} (s : State) (c : Cell) (src : Option Nat) (h0 : Keeps s0 s) :
    Keeps s0 (merge s c src) := by
  unfold merge
  extract_lets span k targets
  have h : KeepsP s0 (targets.foldl (mergeEpoch k) (s, false)) :=
    KeepsP.foldl (fun u x h => keeps_mergeEpoch k u x h) (KeepsP.mk h0)
  generalize targets.foldl (mergeEpoch k) (s, false) = r at h
  exact Keeps.ite (Keeps.foldl (fun _ _ h => keeps_sendLeap _ _ _ h) (KeepsP.proj h)) (KeepsP.proj h)

theorem keeps_originate {s0 : State} (s : State) (ctype span k : Nat) (h0 : Keeps s0 s) :
    Keeps s0 (originate s ctype span k) := by
  unfold originate
  repeat' first
    | with_reducible assumption | with_reducible apply keeps_merge | with_reducible apply Keeps.ite | split
    | dsimp only

theorem keeps_sendTempo {s0 : State} (s : State) (h0 : Keeps s0 s) : Keeps s0 (sendTempo s) := by
  unfold sendTempo
  repeat' first
    | with_reducible assumption | with_reducible apply keeps_merge | with_reducible apply keeps_originate
    | with_reducible apply Keeps.ite | split | dsimp only

theorem keeps_reviewPort {s0 : State} (s : State) (q : Nat) (h0 : Keeps s0 s) : Keeps s0 (reviewPort s q) := by
  unfold reviewPort
  repeat' first
    | with_reducible assumption | with_reducible apply keeps_modPort | with_reducible apply keeps_unassign
    | with_reducible apply Keeps.ite | with_reducible apply Keeps.foldl | with_reducible intro _ _ _
    | with_reducible intro _ _ | with_reducible intro _ | split | dsimp only

theorem keeps_captureSwitch {s0 : State} (s : State) (h0 : Keeps s0 s) : Keeps s0 (captureSwitch s) := by
  unfold captureSwitch
  repeat' first
    | with_reducible assumption | with_reducible apply keeps_modPort | with_reducible apply keeps_modSch
    | with_reducible apply Keeps.foldl | with_reducible intro _ _ _ | with_reducible intro _ _
    | with_reducible intro _ | split | dsimp only

theorem keeps_dropSwitch {s0 : State} (s : State) (h0 : Keeps s0 s) : Keeps s0 (dropSwitch s) := by
  unfold dropSwitch
  repeat' first
    | with_reducible assumption | split | dsimp only
    | ((with_reducible refine Keeps.recordAll ?_ ?_ ?_ ?_); (on_goal 4 => exact id); (on_goal 3 => (first | with_reducible rfl | exact List.length_map .. | exact mapIf_length .. | exact setAt_length ..)); (on_goal 2 => (first | with_reducible rfl | exact List.length_map .. | exact mapIf_length .. | exact setAt_length ..)))

theorem keeps_freeze {s0 : State} (s : State) (h0 : Keeps s0 s) : Keeps s0 (freeze s) := by
  unfold freeze
  repeat' first
    | with_reducible assumption | with_reducible apply keeps_modSch | with_reducible apply keeps_put
    | with_reducible apply keeps_captureSwitch | with_reducible apply keeps_reviewPort
    | with_reducible apply Keeps.ite | with_reducible apply Keeps.foldl | with_reducible intro _ _ _
    | with_reducible intro _ _ | with_reducible intro _ | split | dsimp only

theorem keeps_execEpochFreeze {s0 : State} (s : State) (h0 : Keeps s0 s) : KeepsO s0 (execEpochFreeze s) := by
  unfold execEpochFreeze
  repeat' first
    | with_reducible assumption | with_reducible apply keeps_freeze | with_reducible apply KeepsO.next | split
    | dsimp only

theorem keeps_execEpochHeadCell {s0 : State} (s : State) (h0 : Keeps s0 s) : KeepsO s0 (execEpochHeadCell s) := by
  unfold execEpochHeadCell
  repeat' first
    | with_reducible assumption | with_reducible apply keeps_presentHead | with_reducible apply Keeps.foldl
    | with_reducible apply KeepsO.next | with_reducible apply KeepsO.ite | with_reducible intro _ _ _
    | with_reducible intro _ _ | with_reducible intro _ | split | dsimp only

theorem keeps_advanceEpoch {s0 : State} (s : State) (h0 : Keeps s0 s) : Keeps s0 (advanceEpoch s) := by
  unfold advanceEpoch
  repeat' first
    | with_reducible assumption | with_reducible apply keeps_bump64 | with_reducible apply keeps_modSch
    | with_reducible apply Keeps.ite | split | dsimp only

theorem keeps_wakeForCalendar {s0 : State} (s : State) (q : Nat) (h0 : Keeps s0 s) :
    Keeps s0 (wakeForCalendar s q) := by
  unfold wakeForCalendar
  repeat' first
    | with_reducible assumption | with_reducible apply keeps_wakePort | with_reducible apply Keeps.ite | split
    | dsimp only

theorem keeps_turnCalendars {s0 : State} (s : State) (h0 : Keeps s0 s) : Keeps s0 (turnCalendars s) := by
  unfold turnCalendars
  repeat' first
    | with_reducible assumption | with_reducible apply keeps_modPort | with_reducible apply keeps_put
    | with_reducible apply keeps_unassign | with_reducible apply keeps_wakeForCalendar
    | with_reducible apply Keeps.ite | with_reducible apply Keeps.foldl
    | fail_if_no_progress with_reducible apply Keeps.record | with_reducible intro _ _ _ | with_reducible intro _ _
    | with_reducible intro _ | split | dsimp only

theorem keeps_oweTempo {s0 : State} (s : State) (h0 : Keeps s0 s) : Keeps s0 (oweTempo s) := by
  unfold oweTempo
  repeat' first
    | with_reducible assumption | fail_if_no_progress with_reducible apply Keeps.record | split | dsimp only

theorem keeps_payTempo {s0 : State} (s : State) (h0 : Keeps s0 s) : Keeps s0 (payTempo s) := by
  unfold payTempo
  repeat' first
    | with_reducible assumption | with_reducible apply keeps_sendTempo | with_reducible apply Keeps.ite
    | fail_if_no_progress with_reducible apply Keeps.record | split | dsimp only

theorem keeps_boundary {s0 : State} (s : State) (h0 : Keeps s0 s) : Keeps s0 (boundary s) := by
  unfold boundary
  repeat' first
    | with_reducible assumption | with_reducible apply keeps_advanceEpoch | with_reducible apply keeps_oweTempo
    | with_reducible apply keeps_sendCtrl | with_reducible apply keeps_turnCalendars | with_reducible apply Keeps.ite
    | with_reducible apply Keeps.foldl | with_reducible intro _ _ _ | with_reducible intro _ _
    | with_reducible intro _ | split | dsimp only

theorem keeps_execEpochBoundary {s0 : State} (s : State) (h0 : Keeps s0 s) : KeepsO s0 (execEpochBoundary s) := by
  unfold execEpochBoundary
  repeat' first
    | with_reducible assumption | with_reducible apply keeps_boundary | with_reducible apply KeepsO.next | split
    | dsimp only

theorem keeps_schPayload {s0 : State} (s : State) (w : Waiting) (h0 : Keeps s0 s) : Keeps s0 (schPayload s w) := by
  unfold schPayload
  repeat' first
    | with_reducible assumption | with_reducible apply keeps_modPort | with_reducible apply keeps_pbump
    | with_reducible apply keeps_dropSch | with_reducible apply keeps_presentHead
    | with_reducible apply keeps_sendVoid | with_reducible apply keeps_srcRefused | with_reducible apply Keeps.ite
    | fail_if_no_progress with_reducible apply Keeps.record | split | dsimp only

theorem keeps_execSchPayload {s0 : State} (k : Nat) (s : State) (h0 : Keeps s0 s) : KeepsO s0 (execSchPayload k s) := by
  unfold execSchPayload
  repeat' first
    | with_reducible assumption | with_reducible apply keeps_schPayload | with_reducible apply Keeps.ite
    | with_reducible apply KeepsO.next | split | dsimp only

theorem keeps_acceptFlit {s0 : State} (s : State) (q : Nat) (slot : SlotId) (cells : List Cell) (h0 : Keeps s0 s) :
    Keeps s0 (acceptFlit s q slot cells) := by
  unfold acceptFlit
  repeat' first
    | with_reducible assumption | with_reducible apply keeps_modPort | with_reducible apply keeps_pbump64 | split
    | dsimp only

theorem keeps_acceptTx {s0 : State} (s : State) (q : Nat) (slot : SlotId) (r : Nat) (h0 : Keeps s0 s) :
    Keeps s0 (acceptTx s q slot r) := by
  unfold acceptTx
  repeat' first
    | with_reducible assumption | with_reducible apply keeps_modPort | with_reducible apply keeps_acceptFlit
    | with_reducible apply keeps_dropSch | with_reducible apply keeps_sendVoid | with_reducible apply keeps_unassign
    | with_reducible apply Keeps.ite | split | dsimp only

theorem keeps_acceptTxf {s0 : State} (s : State) (q : Nat) (slot : SlotId) (h0 : Keeps s0 s) :
    Keeps s0 (acceptTxf s q slot) := by
  unfold acceptTxf
  repeat' first
    | with_reducible assumption | with_reducible apply keeps_modPort | with_reducible apply keeps_acceptFlit | split
    | dsimp only

theorem keeps_execSlotAccept {s0 : State} (q : PortId) (slot : SlotId) (s : State) (h0 : Keeps s0 s) :
    KeepsO s0 (execSlotAccept q slot s) := by
  unfold execSlotAccept
  repeat' first
    | with_reducible assumption | with_reducible apply keeps_acceptTx | with_reducible apply keeps_acceptTxf
    | with_reducible apply keeps_onPort | with_reducible apply Keeps.ite | with_reducible apply keeps_onPort | split
    | dsimp only

theorem keeps_voidFor {s0 : State} (s : State) (x : Option (Nat × SlotId × Epoch)) (reason : Nat) (ten : Ten) (h0 : Keeps s0 s) :
    Keeps s0 (voidFor s x reason ten) := by
  unfold voidFor
  repeat' first
    | with_reducible assumption | with_reducible apply keeps_sendVoid | split | dsimp only

theorem keeps_proxyDeliver {s0 : State} (s : State) (q : Nat) (slot : SlotId) (cells : List Cell) (h0 : Keeps s0 s) :
    Keeps s0 (proxyDeliver s q slot cells) := by
  unfold proxyDeliver
  repeat' first
    | with_reducible assumption | with_reducible apply keeps_bump | with_reducible apply keeps_queueOut
    | with_reducible apply Keeps.ite | fail_if_no_progress with_reducible apply Keeps.record | split | dsimp only

theorem keeps_deliverRx {s0 : State} (s : State) (q : Nat) (slot : SlotId) (row : Nat) (n : Epoch) (miss rpld : Bool) (reason late due : Nat) (cells : List Cell) (d : Nat) (h0 : Keeps s0 s) :
    Keeps s0 (deliverRx s q slot row n miss rpld reason late due cells d) := by
  unfold deliverRx
  repeat' first
    | with_reducible assumption | with_reducible apply keeps_presentSch | with_reducible apply keeps_proxyDeliver
    | with_reducible apply Keeps.ite | split | dsimp only

theorem keeps_placeFlit {s0 : State} (s : State) (q : Nat) (f : Flit) (r : Nat) (n : Epoch) (d pr : Int) (h0 : Keeps s0 s) :
    Keeps s0 (placeFlit s q f r n d pr) := by
  unfold placeFlit
  repeat' first
    | with_reducible assumption | with_reducible apply keeps_modPort | with_reducible apply keeps_pbump
    | with_reducible apply keeps_deliverRx | with_reducible apply keeps_voidFor | with_reducible apply Keeps.ite
    | split | dsimp only

theorem keeps_takeSched {s0 : State} (s : State) (q : Nat) (h0 : Keeps s0 s) : Keeps s0 (takeSched s q) := by
  unfold takeSched
  repeat' first
    | with_reducible assumption | with_reducible apply keeps_modPort | with_reducible apply keeps_pbump
    | with_reducible apply keeps_deliverRx | with_reducible apply keeps_placeFlit | with_reducible apply Keeps.ite
    | split | dsimp only

theorem keeps_execSchedFlit {s0 : State} (q : PortId) (s : State) (h0 : Keeps s0 s) :
    KeepsO s0 (execSchedFlit q s) := by
  unfold execSchedFlit
  repeat' first
    | with_reducible assumption | with_reducible apply keeps_onPort | with_reducible apply keeps_takeSched
    | with_reducible apply keeps_onPort | split | dsimp only

theorem keeps_releaseHeld {s0 : State} (s : State) (q : Nat) (h : Held) (h0 : Keeps s0 s) :
    Keeps s0 (releaseHeld s q h) := by
  unfold releaseHeld
  repeat' first
    | with_reducible assumption | with_reducible apply keeps_bump | with_reducible apply keeps_modPort
    | with_reducible apply keeps_pbump | with_reducible apply keeps_pbump64 | with_reducible apply keeps_deliverRx
    | with_reducible apply keeps_presentHead | with_reducible apply keeps_voidFor | with_reducible apply Keeps.ite
    | split | dsimp only

theorem keeps_execDeadline {s0 : State} (q : PortId) (slot : SlotId) (s : State) (h0 : Keeps s0 s) :
    KeepsO s0 (execDeadline q slot s) := by
  unfold execDeadline
  repeat' first
    | with_reducible assumption | with_reducible apply keeps_onPort | with_reducible apply keeps_releaseHeld
    | with_reducible apply keeps_onPort | split | dsimp only

theorem keeps_takeCtrl {s0 : State} (s : State) (q ctype : Nat) (f : State → CtrlIn → State)
    (h0 : Keeps s0 s) (hf : ∀ u c, Keeps s0 u → Keeps s0 (f u c)) : Keeps s0 (takeCtrl s q ctype f) := by
  unfold takeCtrl
  repeat' first
    | with_reducible assumption | with_reducible apply keeps_dropCtrl | with_reducible apply Keeps.ite
    | with_reducible apply hf | with_reducible intro _ _ _ | with_reducible intro _ _ | split | dsimp only

theorem keeps_placeVoid {s0 : State} (s : State) (q : Nat) (c : CtrlIn) (r : Nat) (h0 : Keeps s0 s) :
    Keeps s0 (placeVoid s q c r) := by
  unfold placeVoid
  repeat' first
    | with_reducible assumption | with_reducible apply keeps_bump | with_reducible apply keeps_presentSch
    | with_reducible apply keeps_voidFor | with_reducible apply Keeps.ite | split | dsimp only

theorem keeps_takeVoid {s0 : State} (s : State) (q : Nat) (h0 : Keeps s0 s) : Keeps s0 (takeVoid s q) := by
  unfold takeVoid
  repeat' first
    | with_reducible assumption | with_reducible apply keeps_pbump | with_reducible apply keeps_dropCtrl
    | with_reducible apply keeps_placeVoid | with_reducible apply Keeps.ite | split | dsimp only

theorem keeps_execVoidCell {s0 : State} (q : PortId) (s : State) (h0 : Keeps s0 s) : KeepsO s0 (execVoidCell q s) := by
  unfold execVoidCell
  repeat' first
    | with_reducible assumption | with_reducible apply keeps_onPort | with_reducible apply keeps_takeVoid
    | with_reducible apply keeps_onPort | split | dsimp only

theorem keeps_joinFrom {s0 : State} (s : State) (c : CtrlIn) (start : Int) (h0 : Keeps s0 s) :
    Keeps s0 (joinFrom s c start) := by
  unfold joinFrom
  repeat' first
    | with_reducible assumption | split | dsimp only
    | ((with_reducible refine Keeps.recordAll ?_ ?_ ?_ ?_); (on_goal 4 => exact id); (on_goal 3 => (first | with_reducible rfl | exact List.length_map .. | exact mapIf_length .. | exact setAt_length ..)); (on_goal 2 => (first | with_reducible rfl | exact List.length_map .. | exact mapIf_length .. | exact setAt_length ..)))

theorem keeps_enterDesync {s0 : State} (s : State) (q : Nat) (n : Epoch) (h0 : Keeps s0 s) :
    Keeps s0 (enterDesync s q n) := by
  unfold enterDesync
  repeat' first
    | with_reducible assumption | with_reducible apply keeps_modPort | with_reducible apply keeps_presentFault
    | split | dsimp only

theorem keeps_checkBeacon {s0 : State} (s : State) (q : Nat) (c : CtrlIn) (h0 : Keeps s0 s) :
    Keeps s0 (checkBeacon s q c) := by
  unfold checkBeacon
  repeat' first
    | with_reducible assumption | with_reducible apply keeps_modPort | with_reducible apply keeps_pbump
    | with_reducible apply keeps_domainFault | with_reducible apply keeps_enterDesync
    | with_reducible apply Keeps.ite | split | dsimp only

theorem keeps_takeBeacon {s0 : State} (s : State) (q : Nat) (h0 : Keeps s0 s) : Keeps s0 (takeBeacon s q) := by
  unfold takeBeacon
  repeat' first
    | with_reducible assumption | with_reducible apply keeps_checkBeacon | with_reducible apply keeps_joinFrom
    | with_reducible apply keeps_takeCtrl | with_reducible apply Keeps.ite | with_reducible intro _ _ _
    | with_reducible intro _ _ | with_reducible intro _ | split | dsimp only

theorem keeps_execBeacon {s0 : State} (q : PortId) (s : State) (h0 : Keeps s0 s) : KeepsO s0 (execBeacon q s) := by
  unfold execBeacon
  repeat' first
    | with_reducible assumption | with_reducible apply keeps_onPort | with_reducible apply keeps_takeBeacon
    | with_reducible apply keeps_onPort | split | dsimp only

theorem keeps_takeLeap {s0 : State} (s : State) (q ctype : Nat) (h0 : Keeps s0 s) : Keeps s0 (takeLeap s q ctype) := by
  unfold takeLeap
  repeat' first
    | with_reducible assumption | with_reducible apply keeps_merge | with_reducible apply keeps_takeCtrl
    | with_reducible apply Keeps.ite | with_reducible intro _ _ _ | with_reducible intro _ _ | with_reducible intro _
    | split | dsimp only

theorem keeps_execLeapReq {s0 : State} (q : PortId) (s : State) (h0 : Keeps s0 s) : KeepsO s0 (execLeapReq q s) := by
  unfold execLeapReq
  repeat' first
    | with_reducible assumption | with_reducible apply keeps_onPort | with_reducible apply keeps_takeLeap
    | with_reducible apply keeps_onPort | split | dsimp only

theorem keeps_execTempo {s0 : State} (q : PortId) (s : State) (h0 : Keeps s0 s) : KeepsO s0 (execTempo q s) := by
  unfold execTempo
  repeat' first
    | with_reducible assumption | with_reducible apply keeps_onPort | with_reducible apply keeps_takeLeap
    | with_reducible apply keeps_onPort | split | dsimp only

theorem keeps_execLeapNotice {s0 : State} (q : PortId) (s : State) (h0 : Keeps s0 s) :
    KeepsO s0 (execLeapNotice q s) := by
  unfold execLeapNotice
  repeat' first
    | with_reducible assumption | with_reducible apply keeps_newNotice | with_reducible apply keeps_onPort
    | with_reducible apply keeps_takeCtrl | with_reducible apply Keeps.ite | with_reducible apply keeps_onPort
    | with_reducible intro _ _ _ | with_reducible intro _ _ | with_reducible intro _ | split | dsimp only

theorem keeps_execDfault {s0 : State} (q : PortId) (s : State) (h0 : Keeps s0 s) : KeepsO s0 (execDfault q s) := by
  unfold execDfault
  repeat' first
    | with_reducible assumption | with_reducible apply keeps_newNotice | with_reducible apply keeps_onPort
    | with_reducible apply keeps_takeCtrl | with_reducible apply keeps_onPort | with_reducible intro _ _ _
    | with_reducible intro _ _ | with_reducible intro _ | split | dsimp only

theorem keeps_domainEnable {s0 : State} (s : State) (h0 : Keeps s0 s) : Keeps s0 (domainEnable s) := by
  unfold domainEnable
  repeat' first
    | with_reducible assumption | with_reducible apply keeps_modSch | with_reducible apply keeps_put
    | with_reducible apply keeps_sendCtrl | with_reducible apply Keeps.ite | with_reducible apply Keeps.foldl
    | with_reducible intro _ _ _ | with_reducible intro _ _ | with_reducible intro _ | split | dsimp only
    | ((with_reducible refine Keeps.recordAll ?_ ?_ ?_ ?_); (on_goal 4 => exact id); (on_goal 3 => (first | with_reducible rfl | exact List.length_map .. | exact mapIf_length .. | exact setAt_length ..)); (on_goal 2 => (first | with_reducible rfl | exact List.length_map .. | exact mapIf_length .. | exact setAt_length ..)))

theorem keeps_refuseAssigned {s0 : State} (s : State) (h0 : Keeps s0 s) : Keeps s0 (refuseAssigned s) := by
  unfold refuseAssigned
  repeat' first
    | with_reducible assumption | with_reducible apply keeps_unassign | with_reducible apply Keeps.foldl
    | with_reducible intro _ _ _ | with_reducible intro _ _ | with_reducible intro _ | split | dsimp only

theorem keeps_releaseAll {s0 : State} (s : State) (q : Nat) (h0 : Keeps s0 s) : Keeps s0 (releaseAll s q) := by
  unfold releaseAll
  repeat' first
    | with_reducible assumption | with_reducible apply keeps_modPort | with_reducible apply keeps_pbump
    | with_reducible apply keeps_deliverRx | with_reducible apply Keeps.ite | with_reducible apply Keeps.foldl
    | with_reducible intro _ _ _ | with_reducible intro _ _ | with_reducible intro _ | split | dsimp only

theorem keeps_domainDisable {s0 : State} (s : State) (h0 : Keeps s0 s) : Keeps s0 (domainDisable s) := by
  unfold domainDisable
  repeat' first
    | with_reducible assumption | with_reducible apply keeps_put | with_reducible apply keeps_dropSwitch
    | with_reducible apply keeps_refuseAssigned | with_reducible apply keeps_releaseAll
    | with_reducible apply Keeps.ite | with_reducible apply Keeps.foldl | with_reducible intro _ _ _
    | with_reducible intro _ _ | with_reducible intro _ | split | dsimp only
    | ((with_reducible refine Keeps.recordAll ?_ ?_ ?_ ?_); (on_goal 4 => exact id); (on_goal 3 => (first | with_reducible rfl | exact List.length_map .. | exact mapIf_length .. | exact setAt_length ..)); (on_goal 2 => (first | with_reducible rfl | exact List.length_map .. | exact mapIf_length .. | exact setAt_length ..)))

theorem keeps_rejoin {s0 : State} (s : State) (h0 : Keeps s0 s) : Keeps s0 (rejoin s) := by
  unfold rejoin
  repeat' first
    | with_reducible assumption | with_reducible apply keeps_dropSwitch | with_reducible apply keeps_refuseAssigned
    | with_reducible apply Keeps.ite | split | dsimp only
    | ((with_reducible refine Keeps.recordAll ?_ ?_ ?_ ?_); (on_goal 4 => exact id); (on_goal 3 => (first | with_reducible rfl | exact List.length_map .. | exact mapIf_length .. | exact setAt_length ..)); (on_goal 2 => (first | with_reducible rfl | exact List.length_map .. | exact mapIf_length .. | exact setAt_length ..)))

theorem keeps_leapRequest {s0 : State} (s : State) (k : Nat) (h0 : Keeps s0 s) : Keeps s0 (leapRequest s k) := by
  unfold leapRequest
  repeat' first
    | with_reducible assumption | with_reducible apply keeps_originate | split | dsimp only

theorem keeps_armSwitch {s0 : State} (s : State) (n : Epoch) (h0 : Keeps s0 s) : Keeps s0 (armSwitch s n) := by
  unfold armSwitch
  repeat' first
    | with_reducible assumption | with_reducible apply keeps_put | with_reducible apply Keeps.ite | split
    | dsimp only

end Sys2Proof.Machine
end

