-- ==== Sys2Proof/Laws/KeepsSem.lean ====
section
/-!
SUPPORT. The functions of Machine/Sem.lean keep what every command keeps.
-/

namespace Sys2Proof.Machine
open Sys2Proof

set_option linter.all false

theorem keeps_routeOut {s0 : State} (s : State) (pl : Place) (w : Waiting) (g : Gpa) (ports : List Nat) (h0 : Keeps s0 s) :
    Keeps s0 (routeOut s pl w g ports) := by
  unfold routeOut
  repeat' first
    | with_reducible assumption | with_reducible apply keeps_putAt | split | dsimp only

theorem keeps_semReply {s0 : State} (s : State) (r : SemReq) (status : BitVec 8) (rval : Nat) (h0 : Keeps s0 s) :
    Keeps s0 (semReply s r status rval) := by
  unfold semReply
  repeat' first
    | with_reducible assumption | with_reducible apply keeps_answerRemote | with_reducible apply keeps_answerSource
    | split | dsimp only

theorem keeps_setSem {s0 : State} (s : State) (sid : Nat) (m : Sem) (h0 : Keeps s0 s) : Keeps s0 (setSem s sid m) := by
  unfold setSem
  repeat' first
    | with_reducible assumption | fail_if_no_progress with_reducible apply Keeps.record | split | dsimp only

theorem keeps_replyAll {s0 : State} (s : State) (ws : List Waiter) (status : BitVec 8) (rval : Nat) (h0 : Keeps s0 s) :
    Keeps s0 (replyAll s ws status rval) := by
  unfold replyAll
  repeat' first
    | with_reducible assumption | with_reducible apply keeps_semReply | with_reducible apply Keeps.foldl
    | with_reducible intro _ _ _ | with_reducible intro _ _ | with_reducible intro _ | split | dsimp only

theorem keeps_joinFifo {s0 : State} (s : State) (sid : Nat) (m : Sem) (r : SemReq) (count : Nat) (h0 : Keeps s0 s) :
    Keeps s0 (joinFifo s sid m r count) := by
  unfold joinFifo
  repeat' first
    | with_reducible assumption | with_reducible apply keeps_semReply | with_reducible apply keeps_setSem
    | with_reducible apply Keeps.ite | split | dsimp only

theorem keeps_doInit {s0 : State} (s : State) (r : SemReq) (m : Sem) (h0 : Keeps s0 s) : Keeps s0 (doInit s r m) := by
  unfold doInit
  repeat' first
    | with_reducible assumption | with_reducible apply keeps_semReply | with_reducible apply keeps_setSem
    | with_reducible apply Keeps.ite | split | dsimp only

theorem keeps_doSignal {s0 : State} (s : State) (r : SemReq) (h0 : Keeps s0 s) : Keeps s0 (doSignal s r) := by
  unfold doSignal
  repeat' first
    | with_reducible assumption | with_reducible apply keeps_semReply | with_reducible apply keeps_setSem
    | with_reducible apply Keeps.ite | with_reducible apply Keeps.foldl | with_reducible intro _ _ _
    | with_reducible intro _ _ | with_reducible intro _ | split | dsimp only

theorem keeps_doWait {s0 : State} (s : State) (r : SemReq) (mayWait : Bool) (h0 : Keeps s0 s) :
    Keeps s0 (doWait s r mayWait) := by
  unfold doWait
  repeat' first
    | with_reducible assumption | with_reducible apply keeps_joinFifo | with_reducible apply keeps_semReply
    | with_reducible apply keeps_setSem | with_reducible apply Keeps.ite | split | dsimp only

theorem keeps_doRead {s0 : State} (s : State) (r : SemReq) (h0 : Keeps s0 s) : Keeps s0 (doRead s r) := by
  unfold doRead
  repeat' first
    | with_reducible assumption | with_reducible apply keeps_semReply | split | dsimp only

theorem keeps_doArrive {s0 : State} (s : State) (r : SemReq) (h0 : Keeps s0 s) : Keeps s0 (doArrive s r) := by
  unfold doArrive
  repeat' first
    | with_reducible assumption | with_reducible apply keeps_joinFifo | with_reducible apply keeps_replyAll
    | with_reducible apply keeps_semReply | with_reducible apply keeps_setSem | with_reducible apply Keeps.ite
    | split | dsimp only

theorem keeps_doFree {s0 : State} (s : State) (r : SemReq) (h0 : Keeps s0 s) : Keeps s0 (doFree s r) := by
  unfold doFree
  repeat' first
    | with_reducible assumption | with_reducible apply keeps_replyAll | with_reducible apply keeps_semReply
    | with_reducible apply Keeps.ite | fail_if_no_progress with_reducible apply Keeps.record | split | dsimp only

theorem keeps_serveSync {s0 : State} (s : State) (pl : Place) (w : Waiting) (zero : Bool) (f : State → SemReq → State)
    (h0 : Keeps s0 s) (hf : ∀ u r, Keeps s0 u → Keeps s0 (f u r)) : Keeps s0 (serveSync s pl w zero f) := by
  unfold serveSync
  repeat' first
    | with_reducible assumption | with_reducible apply keeps_answerAt | with_reducible apply keeps_putAt
    | with_reducible apply keeps_takeAt | with_reducible apply keeps_routeOut | with_reducible apply keeps_targetOr
    | with_reducible apply Keeps.ite | with_reducible apply hf | with_reducible intro _ _ _
    | with_reducible intro _ _ | split | dsimp only

theorem keeps_execSemInit {s0 : State} (pl : Place) (s : State) (h0 : Keeps s0 s) : KeepsO s0 (execSemInit pl s) := by
  unfold execSemInit
  repeat' first
    | with_reducible assumption | with_reducible apply keeps_doInit | with_reducible apply keeps_serveAt
    | with_reducible apply keeps_serveSync | with_reducible intro _ _ _ | with_reducible intro _ _
    | with_reducible intro _ | split | dsimp only

theorem keeps_execSemSignal {s0 : State} (pl : Place) (s : State) (h0 : Keeps s0 s) :
    KeepsO s0 (execSemSignal pl s) := by
  unfold execSemSignal
  repeat' first
    | with_reducible assumption | with_reducible apply keeps_doSignal | with_reducible apply keeps_serveAt
    | with_reducible apply keeps_serveSync | with_reducible intro _ _ _ | with_reducible intro _ _
    | with_reducible intro _ | split | dsimp only

theorem keeps_execSemWait {s0 : State} (pl : Place) (s : State) (h0 : Keeps s0 s) : KeepsO s0 (execSemWait pl s) := by
  unfold execSemWait
  repeat' first
    | with_reducible assumption | with_reducible apply keeps_doWait | with_reducible apply keeps_serveAt
    | with_reducible apply keeps_serveSync | with_reducible intro _ _ _ | with_reducible intro _ _
    | with_reducible intro _ | split | dsimp only

theorem keeps_execSemTry {s0 : State} (pl : Place) (s : State) (h0 : Keeps s0 s) : KeepsO s0 (execSemTry pl s) := by
  unfold execSemTry
  repeat' first
    | with_reducible assumption | with_reducible apply keeps_doWait | with_reducible apply keeps_serveAt
    | with_reducible apply keeps_serveSync | with_reducible intro _ _ _ | with_reducible intro _ _
    | with_reducible intro _ | split | dsimp only

theorem keeps_execSemRead {s0 : State} (pl : Place) (s : State) (h0 : Keeps s0 s) : KeepsO s0 (execSemRead pl s) := by
  unfold execSemRead
  repeat' first
    | with_reducible assumption | with_reducible apply keeps_doRead | with_reducible apply keeps_serveAt
    | with_reducible apply keeps_serveSync | with_reducible intro _ _ _ | with_reducible intro _ _
    | with_reducible intro _ | split | dsimp only

theorem keeps_execBarInit {s0 : State} (pl : Place) (s : State) (h0 : Keeps s0 s) : KeepsO s0 (execBarInit pl s) := by
  unfold execBarInit
  repeat' first
    | with_reducible assumption | with_reducible apply keeps_doInit | with_reducible apply keeps_serveAt
    | with_reducible apply keeps_serveSync | with_reducible intro _ _ _ | with_reducible intro _ _
    | with_reducible intro _ | split | dsimp only

theorem keeps_execBarArrive {s0 : State} (pl : Place) (s : State) (h0 : Keeps s0 s) :
    KeepsO s0 (execBarArrive pl s) := by
  unfold execBarArrive
  repeat' first
    | with_reducible assumption | with_reducible apply keeps_doArrive | with_reducible apply keeps_serveAt
    | with_reducible apply keeps_serveSync | with_reducible intro _ _ _ | with_reducible intro _ _
    | with_reducible intro _ | split | dsimp only

theorem keeps_execSemFree {s0 : State} (pl : Place) (s : State) (h0 : Keeps s0 s) : KeepsO s0 (execSemFree pl s) := by
  unfold execSemFree
  repeat' first
    | with_reducible assumption | with_reducible apply keeps_doFree | with_reducible apply keeps_serveAt
    | with_reducible apply keeps_serveSync | with_reducible intro _ _ _ | with_reducible intro _ _
    | with_reducible intro _ | split | dsimp only

theorem keeps_quiesceSem {s0 : State} (t : Ten) (s : State) (x : Nat × Sem) (h0 : Keeps s0 s) :
    Keeps s0 (quiesceSem t s x) := by
  unfold quiesceSem
  repeat' first
    | with_reducible assumption | with_reducible apply keeps_semReply | with_reducible apply keeps_setSem
    | with_reducible apply Keeps.foldl | with_reducible intro _ _ _ | with_reducible intro _ _
    | with_reducible intro _ | split | dsimp only

theorem keeps_quiesceSems {s0 : State} (s : State) (t : Ten) (h0 : Keeps s0 s) : Keeps s0 (quiesceSems s t) := by
  unfold quiesceSems
  repeat' first
    | with_reducible assumption | with_reducible apply keeps_quiesceSem | with_reducible apply Keeps.foldl
    | with_reducible intro _ _ _ | with_reducible intro _ _ | with_reducible intro _ | split | dsimp only

end Sys2Proof.Machine
end

