-- ==== Sys2Proof/Laws/KeepsTxnServe.lean ====
section
/-!
SUPPORT. The functions of Machine/TxnServe.lean keep what every command keeps.
-/

namespace Sys2Proof.Machine
open Sys2Proof

set_option linter.all false

theorem keeps_memSource {s0 : State} (s : State) (pl : Place) (w : Waiting) (h0 : Keeps s0 s) :
    Keeps s0 (memSource s pl w) := by
  unfold memSource
  repeat' first
    | with_reducible assumption | with_reducible apply keeps_answerAt | with_reducible apply keeps_keyLine
    | with_reducible apply keeps_putAt | with_reducible apply keeps_rlcServe | with_reducible apply keeps_routeOut
    | with_reducible apply Keeps.ite | split | dsimp only

theorem keeps_memTarget {s0 : State} (s : State) (pl : Place) (w : Waiting) (h0 : Keeps s0 s) :
    Keeps s0 (memTarget s pl w) := by
  unfold memTarget
  repeat' first
    | with_reducible assumption | with_reducible apply keeps_answerAt | with_reducible apply keeps_forwardAt
    | with_reducible apply keeps_presentInb | with_reducible apply keeps_putAt | with_reducible apply keeps_rlcServe
    | with_reducible apply keeps_takeAt | with_reducible apply Keeps.ite | split | dsimp only

theorem keeps_serveMem {s0 : State} (s : State) (pl : Place) (w : Waiting) (h0 : Keeps s0 s) :
    Keeps s0 (serveMem s pl w) := by
  unfold serveMem
  repeat' first
    | with_reducible assumption | with_reducible apply keeps_memSource | with_reducible apply keeps_memTarget
    | with_reducible apply Keeps.ite | split | dsimp only

theorem keeps_execRd {s0 : State} (pl : Place) (s : State) (h0 : Keeps s0 s) : KeepsO s0 (execRd pl s) := by
  unfold execRd
  repeat' first
    | with_reducible assumption | with_reducible apply keeps_serveAt | with_reducible apply keeps_serveMem
    | with_reducible intro _ _ _ | with_reducible intro _ _ | with_reducible intro _ | split | dsimp only

theorem keeps_execWr {s0 : State} (pl : Place) (s : State) (h0 : Keeps s0 s) : KeepsO s0 (execWr pl s) := by
  unfold execWr
  repeat' first
    | with_reducible assumption | with_reducible apply keeps_serveAt | with_reducible apply keeps_serveMem
    | with_reducible intro _ _ _ | with_reducible intro _ _ | with_reducible intro _ | split | dsimp only

theorem keeps_execWrp {s0 : State} (pl : Place) (s : State) (h0 : Keeps s0 s) : KeepsO s0 (execWrp pl s) := by
  unfold execWrp
  repeat' first
    | with_reducible assumption | with_reducible apply keeps_serveAt | with_reducible apply keeps_serveMem
    | with_reducible intro _ _ _ | with_reducible intro _ _ | with_reducible intro _ | split | dsimp only

theorem keeps_execAadd {s0 : State} (pl : Place) (s : State) (h0 : Keeps s0 s) : KeepsO s0 (execAadd pl s) := by
  unfold execAadd
  repeat' first
    | with_reducible assumption | with_reducible apply keeps_serveAt | with_reducible apply keeps_serveMem
    | with_reducible intro _ _ _ | with_reducible intro _ _ | with_reducible intro _ | split | dsimp only

theorem keeps_execAand {s0 : State} (pl : Place) (s : State) (h0 : Keeps s0 s) : KeepsO s0 (execAand pl s) := by
  unfold execAand
  repeat' first
    | with_reducible assumption | with_reducible apply keeps_serveAt | with_reducible apply keeps_serveMem
    | with_reducible intro _ _ _ | with_reducible intro _ _ | with_reducible intro _ | split | dsimp only

theorem keeps_execAor {s0 : State} (pl : Place) (s : State) (h0 : Keeps s0 s) : KeepsO s0 (execAor pl s) := by
  unfold execAor
  repeat' first
    | with_reducible assumption | with_reducible apply keeps_serveAt | with_reducible apply keeps_serveMem
    | with_reducible intro _ _ _ | with_reducible intro _ _ | with_reducible intro _ | split | dsimp only

theorem keeps_execAxor {s0 : State} (pl : Place) (s : State) (h0 : Keeps s0 s) : KeepsO s0 (execAxor pl s) := by
  unfold execAxor
  repeat' first
    | with_reducible assumption | with_reducible apply keeps_serveAt | with_reducible apply keeps_serveMem
    | with_reducible intro _ _ _ | with_reducible intro _ _ | with_reducible intro _ | split | dsimp only

theorem keeps_execAswap {s0 : State} (pl : Place) (s : State) (h0 : Keeps s0 s) : KeepsO s0 (execAswap pl s) := by
  unfold execAswap
  repeat' first
    | with_reducible assumption | with_reducible apply keeps_serveAt | with_reducible apply keeps_serveMem
    | with_reducible intro _ _ _ | with_reducible intro _ _ | with_reducible intro _ | split | dsimp only

theorem keeps_execAcas {s0 : State} (pl : Place) (s : State) (h0 : Keeps s0 s) : KeepsO s0 (execAcas pl s) := by
  unfold execAcas
  repeat' first
    | with_reducible assumption | with_reducible apply keeps_serveAt | with_reducible apply keeps_serveMem
    | with_reducible intro _ _ _ | with_reducible intro _ _ | with_reducible intro _ | split | dsimp only

theorem keeps_execAmax {s0 : State} (pl : Place) (s : State) (h0 : Keeps s0 s) : KeepsO s0 (execAmax pl s) := by
  unfold execAmax
  repeat' first
    | with_reducible assumption | with_reducible apply keeps_serveAt | with_reducible apply keeps_serveMem
    | with_reducible intro _ _ _ | with_reducible intro _ _ | with_reducible intro _ | split | dsimp only

theorem keeps_execAmin {s0 : State} (pl : Place) (s : State) (h0 : Keeps s0 s) : KeepsO s0 (execAmin pl s) := by
  unfold execAmin
  repeat' first
    | with_reducible assumption | with_reducible apply keeps_serveAt | with_reducible apply keeps_serveMem
    | with_reducible intro _ _ _ | with_reducible intro _ _ | with_reducible intro _ | split | dsimp only

theorem keeps_execAmaxu {s0 : State} (pl : Place) (s : State) (h0 : Keeps s0 s) : KeepsO s0 (execAmaxu pl s) := by
  unfold execAmaxu
  repeat' first
    | with_reducible assumption | with_reducible apply keeps_serveAt | with_reducible apply keeps_serveMem
    | with_reducible intro _ _ _ | with_reducible intro _ _ | with_reducible intro _ | split | dsimp only

theorem keeps_execAminu {s0 : State} (pl : Place) (s : State) (h0 : Keeps s0 s) : KeepsO s0 (execAminu pl s) := by
  unfold execAminu
  repeat' first
    | with_reducible assumption | with_reducible apply keeps_serveAt | with_reducible apply keeps_serveMem
    | with_reducible intro _ _ _ | with_reducible intro _ _ | with_reducible intro _ | split | dsimp only

theorem keeps_execFence {s0 : State} (pl : Place) (s : State) (h0 : Keeps s0 s) : KeepsO s0 (execFence pl s) := by
  unfold execFence
  repeat' first
    | with_reducible assumption | with_reducible apply keeps_answerAt | with_reducible apply keeps_putAt
    | with_reducible apply keeps_serveAt | with_reducible apply Keeps.ite | with_reducible intro _ _ _
    | with_reducible intro _ _ | with_reducible intro _ | split | dsimp only

theorem keeps_msgHere {s0 : State} (s : State) (pl : Place) (w : Waiting) (h0 : Keeps s0 s) :
    Keeps s0 (msgHere s pl w) := by
  unfold msgHere
  repeat' first
    | with_reducible assumption | with_reducible apply keeps_setTag | with_reducible apply keeps_toIfi
    | with_reducible apply keeps_putAt | with_reducible apply keeps_takeAt | with_reducible apply Keeps.ite | split
    | dsimp only

theorem keeps_feedProxy {s0 : State} (s : State) (pl : Place) (w : Waiting) (r : Nat) (h0 : Keeps s0 s) :
    Keeps s0 (feedProxy s pl w r) := by
  unfold feedProxy
  repeat' first
    | with_reducible assumption | with_reducible apply keeps_modPort | with_reducible apply keeps_answerAt
    | with_reducible apply Keeps.ite | split | dsimp only

theorem keeps_serveMsg {s0 : State} (s : State) (pl : Place) (w : Waiting) (h0 : Keeps s0 s) :
    Keeps s0 (serveMsg s pl w) := by
  unfold serveMsg
  repeat' first
    | with_reducible assumption | with_reducible apply keeps_toIfi | with_reducible apply keeps_answerAt
    | with_reducible apply keeps_feedProxy | with_reducible apply keeps_msgHere | with_reducible apply keeps_putAt
    | with_reducible apply keeps_routeOut | with_reducible apply keeps_takeAt | with_reducible apply keeps_targetOr
    | with_reducible apply Keeps.ite | with_reducible intro _ _ _ | with_reducible intro _ _ | with_reducible intro _
    | split | dsimp only

theorem keeps_execMsg {s0 : State} (pl : Place) (s : State) (h0 : Keeps s0 s) : KeepsO s0 (execMsg pl s) := by
  unfold execMsg
  repeat' first
    | with_reducible assumption | with_reducible apply keeps_serveAt | with_reducible apply keeps_serveMsg
    | with_reducible intro _ _ _ | with_reducible intro _ _ | with_reducible intro _ | split | dsimp only

theorem keeps_execMsgc {s0 : State} (pl : Place) (s : State) (h0 : Keeps s0 s) : KeepsO s0 (execMsgc pl s) := by
  unfold execMsgc
  repeat' first
    | with_reducible assumption | with_reducible apply keeps_bump | with_reducible apply keeps_countStatus
    | with_reducible apply keeps_carryAt | with_reducible apply keeps_serveAt | with_reducible apply Keeps.ite
    | with_reducible intro _ _ _ | with_reducible intro _ _ | with_reducible intro _ | split | dsimp only

theorem keeps_inrAnswer {s0 : State} (s : State) (k : Nat) (w : Waiting) (h0 : Keeps s0 s) :
    Keeps s0 (inrAnswer s k w) := by
  unfold inrAnswer
  repeat' first
    | with_reducible assumption | with_reducible apply keeps_bump | with_reducible apply keeps_countStatus
    | with_reducible apply keeps_carryAt | with_reducible apply keeps_takeAt | with_reducible apply Keeps.ite
    | fail_if_no_progress with_reducible apply Keeps.record | split | dsimp only

theorem keeps_execInrCpl {s0 : State} (k : Nat) (s : State) (h0 : Keeps s0 s) : KeepsO s0 (execInrCpl k s) := by
  unfold execInrCpl
  repeat' first
    | with_reducible assumption | with_reducible apply keeps_inrAnswer | with_reducible apply Keeps.ite
    | with_reducible apply KeepsO.next | split | dsimp only

theorem keeps_proxyDone {s0 : State} (s : State) (row : Nat) (st : BitVec 8) (h0 : Keeps s0 s) :
    Keeps s0 (proxyDone s row st) := by
  unfold proxyDone
  repeat' first
    | with_reducible assumption | with_reducible apply keeps_bump | with_reducible apply Keeps.ite
    | fail_if_no_progress with_reducible apply Keeps.record | split | dsimp only

theorem keeps_markDone {s0 : State} (s : State) (q t : Nat) (i : TagInfo) (h0 : Keeps s0 s) :
    Keeps s0 (State.markDone s q t i) := by
  unfold State.markDone
  repeat' first
    | with_reducible assumption | with_reducible apply keeps_modPort | with_reducible apply Keeps.ite
    | fail_if_no_progress with_reducible apply Keeps.record | split | dsimp only

theorem keeps_cplArrives {s0 : State} (s : State) (t : Txn) (h0 : Keeps s0 s) : Keeps s0 (cplArrives s t) := by
  unfold cplArrives
  repeat' first
    | with_reducible assumption | with_reducible apply keeps_bump | with_reducible apply keeps_finish
    | with_reducible apply keeps_freeTagAt | with_reducible apply keeps_markDone
    | with_reducible apply keeps_freeVictim | with_reducible apply keeps_presentCpl
    | with_reducible apply keeps_proxyDone | with_reducible apply keeps_refuseMiss | split | dsimp only

theorem keeps_execCpl {s0 : State} (pl : Place) (s : State) (h0 : Keeps s0 s) : KeepsO s0 (execCpl pl s) := by
  unfold execCpl
  repeat' first
    | with_reducible assumption | with_reducible apply keeps_cplArrives | with_reducible apply keeps_serveAt
    | with_reducible apply keeps_takeAt | with_reducible apply keeps_targetOr | with_reducible apply Keeps.ite
    | with_reducible intro _ _ _ | with_reducible intro _ _ | with_reducible intro _ | split | dsimp only

theorem keeps_execLocalHandover {s0 : State} (k : Nat) (s : State) (h0 : Keeps s0 s) :
    KeepsO s0 (execLocalHandover k s) := by
  unfold execLocalHandover
  repeat' first
    | with_reducible assumption | with_reducible apply keeps_putAt | with_reducible apply Keeps.ite
    | with_reducible apply KeepsO.next | split | dsimp only

theorem keeps_refuseOpcode {s0 : State} (s : State) (pl : Place) (w : Waiting) (h0 : Keeps s0 s) :
    Keeps s0 (refuseOpcode s pl w) := by
  unfold refuseOpcode
  repeat' first
    | with_reducible assumption | with_reducible apply keeps_bump | with_reducible apply keeps_answerAt
    | with_reducible apply keeps_takeAt | split | dsimp only

theorem keeps_execUnknownOpcode {s0 : State} (pl : Place) (s : State) (h0 : Keeps s0 s) :
    KeepsO s0 (execUnknownOpcode pl s) := by
  unfold execUnknownOpcode
  repeat' first
    | with_reducible assumption | with_reducible apply keeps_atFirewall | with_reducible apply keeps_refuseOpcode
    | with_reducible apply KeepsO.next | with_reducible apply KeepsO.ite | with_reducible intro _ _ _
    | with_reducible intro _ _ | with_reducible intro _ | split | dsimp only

theorem keeps_setOwnPkg {s0 : State} (s : State) (pkg : Nat) (h0 : Keeps s0 s) : Keeps s0 (setOwnPkg s pkg) := by
  unfold setOwnPkg
  repeat' first
    | with_reducible assumption | with_reducible apply keeps_put
    | fail_if_no_progress with_reducible apply Keeps.record | split | dsimp only

end Sys2Proof.Machine
end

