-- ==== Sys2Proof/Laws/KeepsRepair.lean ====
section
/-!
SUPPORT. The functions of Machine/Repair.lean keep what every command keeps.
-/

namespace Sys2Proof.Machine
open Sys2Proof

set_option linter.all false

theorem keeps_recallOnly {s0 : State} (s : State) (region : Bool) (la : LineAddr) (discard : Bool) (h0 : Keeps s0 s) :
    Keeps s0 (recallOnly s region la discard) := by
  unfold recallOnly
  repeat' first
    | with_reducible assumption | fail_if_no_progress with_reducible apply Keeps.record | split | dsimp only

theorem keeps_trimFilter {s0 : State} (s : State) (h0 : Keeps s0 s) : Keeps s0 (trimFilter s) := by
  unfold trimFilter
  repeat' first
    | with_reducible assumption | with_reducible apply keeps_pump | with_reducible apply keeps_recallOnly
    | with_reducible apply Keeps.foldl | with_reducible intro _ _ _ | with_reducible intro _ _
    | with_reducible intro _ | split | dsimp only

theorem keeps_downsizeEffect {s0 : State} (s : State) (st : Structure) (unit : Nat) (h0 : Keeps s0 s) :
    Keeps s0 (downsizeEffect s st unit) := by
  unfold downsizeEffect
  repeat' first
    | with_reducible assumption | with_reducible apply keeps_put | with_reducible apply keeps_oweEvictions
    | with_reducible apply keeps_requestFull | with_reducible apply keeps_trimFilter | with_reducible apply Keeps.ite
    | fail_if_no_progress with_reducible apply Keeps.record | split | dsimp only

theorem keeps_downsize {s0 : State} (s : State) (st : Structure) (unit : Nat) (h0 : Keeps s0 s) :
    Keeps s0 (downsize s st unit) := by
  unfold downsize
  repeat' first
    | with_reducible assumption | with_reducible apply keeps_service | with_reducible apply keeps_downsizeEffect
    | fail_if_no_progress with_reducible apply Keeps.record | split | dsimp only

theorem keeps_rowFails {s0 : State} (s : State) (st : Structure) (unit words : Nat) (h0 : Keeps s0 s) :
    Keeps s0 (rowFails s st unit words) := by
  unfold rowFails
  repeat' first
    | with_reducible assumption | with_reducible apply keeps_bump | with_reducible apply keeps_bump64
    | with_reducible apply keeps_downsize | with_reducible apply Keeps.ite
    | fail_if_no_progress with_reducible apply Keeps.record | split | dsimp only

theorem keeps_execSramRowFailed {s0 : State} (st : Structure) (unit words : Nat) (s : State) (h0 : Keeps s0 s) :
    KeepsO s0 (execSramRowFailed st unit words s) := by
  unfold execSramRowFailed
  repeat' first
    | with_reducible assumption | with_reducible apply keeps_rowFails | with_reducible apply KeepsO.next
    | with_reducible apply KeepsO.fault | with_reducible apply KeepsO.ite | split | dsimp only

theorem keeps_replayError {s0 : State} (s : State) (q i : Nat) (h0 : Keeps s0 s) : Keeps s0 (replayError s q i) := by
  unfold replayError
  repeat' first
    | with_reducible assumption | with_reducible apply keeps_modPort | with_reducible apply keeps_service
    | with_reducible apply Keeps.ite | split | dsimp only

theorem keeps_coherenceLost {s0 : State} (s : State) (pl : Place) (w : Waiting) (h0 : Keeps s0 s) :
    Keeps s0 (coherenceLost s pl w) := by
  unfold coherenceLost
  repeat' first
    | with_reducible assumption | with_reducible apply keeps_creditLink | with_reducible apply keeps_lineLost
    | with_reducible apply keeps_modMiss | with_reducible apply keeps_modTrack | with_reducible apply keeps_putAt
    | with_reducible apply keeps_settleTrack | with_reducible apply keeps_takeAt | with_reducible apply Keeps.ite
    | split | dsimp only

theorem keeps_receiveError {s0 : State} (s : State) (q : PortId) (i : Nat) (h0 : Keeps s0 s) :
    Keeps s0 (receiveError s q i) := by
  unfold receiveError
  repeat' first
    | with_reducible assumption | with_reducible apply keeps_creditLink | with_reducible apply keeps_answerAt
    | with_reducible apply keeps_coherenceLost | with_reducible apply keeps_putAt | with_reducible apply keeps_takeAt
    | with_reducible apply Keeps.ite | split | dsimp only

theorem keeps_holdError {s0 : State} (s : State) (q i : Nat) (h0 : Keeps s0 s) : Keeps s0 (holdError s q i) := by
  unfold holdError
  repeat' first
    | with_reducible assumption | with_reducible apply keeps_modPort | with_reducible apply keeps_voidFor
    | with_reducible apply Keeps.ite | split | dsimp only

theorem keeps_rlcError {s0 : State} (s : State) (la : LineAddr) (waiting : Bool) (h0 : Keeps s0 s) :
    Keeps s0 (rlcError s la waiting) := by
  unfold rlcError
  repeat' first
    | with_reducible assumption | with_reducible apply keeps_answerAt | with_reducible apply keeps_delLine
    | with_reducible apply keeps_modMiss | with_reducible apply Keeps.ite | split | dsimp only

theorem keeps_filterError {s0 : State} (s : State) (la : LineAddr) (bothCopies : Bool) (h0 : Keeps s0 s) :
    Keeps s0 (filterError s la bothCopies) := by
  unfold filterError
  repeat' first
    | with_reducible assumption | with_reducible apply keeps_irq | with_reducible apply keeps_service
    | with_reducible apply keeps_pump | with_reducible apply keeps_recallOnly | with_reducible apply keeps_setFilter
    | with_reducible apply Keeps.ite | split | dsimp only

theorem keeps_calendarError {s0 : State} (s : State) (q : Nat) (slot : SlotId) (h0 : Keeps s0 s) :
    Keeps s0 (calendarError s q slot) := by
  unfold calendarError
  repeat' first
    | with_reducible assumption | with_reducible apply keeps_modPort | with_reducible apply keeps_service
    | with_reducible apply keeps_unassign | with_reducible apply Keeps.ite
    | fail_if_no_progress with_reducible apply Keeps.record | split | dsimp only

theorem keeps_stagingError {s0 : State} (s : State) (rid : Rid) (h0 : Keeps s0 s) : Keeps s0 (stagingError s rid) := by
  unfold stagingError
  repeat' first
    | with_reducible assumption | with_reducible apply keeps_abortRid | split | dsimp only

theorem keeps_contain {s0 : State} (s : State) (l : ErrorSite) (h0 : Keeps s0 s) : Keeps s0 (contain s l) := by
  cases l
  · exact keeps_replayError _ _ _ h0
  · exact keeps_receiveError _ _ _ h0
  · exact keeps_holdError _ _ _ h0
  · exact keeps_rlcError _ _ _ h0
  · exact keeps_filterError _ _ _ h0
  · exact keeps_calendarError _ _ _ h0
  · exact keeps_stagingError _ _ h0

theorem keeps_execUncorrectableError {s0 : State} (loc : ErrorSite) (s : State) (h0 : Keeps s0 s) :
    KeepsO s0 (execUncorrectableError loc s) := by
  unfold execUncorrectableError
  repeat' first
    | with_reducible assumption | with_reducible apply keeps_contain | with_reducible apply KeepsO.next
    | with_reducible apply KeepsO.fault | with_reducible apply KeepsO.ite | split | dsimp only

end Sys2Proof.Machine
end

