-- ==== Sys2Proof/Laws/KeepsAlmTables.lean ====
section
/-!
SUPPORT. The functions of Machine/AlmTables.lean keep what every command keeps.
-/

namespace Sys2Proof.Machine
open Sys2Proof

set_option linter.all false

theorem keeps_recallAbsent {s0 : State} (s : State) (old new : List Nat) (h0 : Keeps s0 s) :
    Keeps s0 (recallAbsent s old new) := by
  unfold recallAbsent
  repeat' first
    | with_reducible assumption | with_reducible apply keeps_pump | with_reducible apply keeps_recallOnly
    | with_reducible apply Keeps.foldl | with_reducible intro _ _ _ | with_reducible intro _ _
    | with_reducible intro _ | split | dsimp only

theorem keeps_resetPairs {s0 : State} (s : State) (old new : List Nat) (h0 : Keeps s0 s) :
    Keeps s0 (resetPairs s old new) := by
  unfold resetPairs
  repeat' first
    | with_reducible assumption | with_reducible apply keeps_modPair | with_reducible apply Keeps.ite
    | with_reducible apply Keeps.foldl | with_reducible intro _ _ _ | with_reducible intro _ _
    | with_reducible intro _ | split | dsimp only

theorem keeps_tableEffect {s0 : State} (s : State) (base sub : Nat) (old new : List Nat) (h0 : Keeps s0 s) :
    Keeps s0 (tableEffect s base sub old new) := by
  unfold tableEffect
  repeat' first
    | with_reducible assumption | with_reducible apply keeps_recallAbsent | with_reducible apply keeps_resetPairs
    | fail_if_no_progress with_reducible apply Keeps.record | split | dsimp only

theorem keeps_putRows {s0 : State} (s : State) (idx sub : Nat) (rows : List Nat) (h0 : Keeps s0 s) :
    Keeps s0 (putRows s idx sub rows) := by
  unfold putRows
  repeat' first
    | with_reducible assumption | fail_if_no_progress with_reducible apply Keeps.record | split | dsimp only

theorem keeps_takeCalendar {s0 : State} (s : State) (idx q : Nat) (rows : List Nat) (h0 : Keeps s0 s) :
    KeepsP s0 (takeCalendar s idx q rows) := by
  unfold takeCalendar
  repeat' first
    | with_reducible assumption | with_reducible apply keeps_modPort | with_reducible apply keeps_put
    | with_reducible apply keeps_putRows | with_reducible apply KeepsP.mk | split | dsimp only

theorem keeps_takeTable {s0 : State} (s : State) (idx sub : Nat) (bytes : List Byte) (h0 : Keeps s0 s) :
    KeepsP s0 (takeTable s idx sub bytes) := by
  unfold takeTable
  repeat' first
    | with_reducible assumption | with_reducible apply keeps_putRows | with_reducible apply keeps_tableEffect
    | with_reducible apply keeps_takeCalendar | with_reducible apply KeepsP.mk | split | dsimp only
    | with_reducible apply KeepsP.proj

end Sys2Proof.Machine
end

