-- ==== Sys2Proof/Laws/KeepsSupervisor.lean ====
section
/-!
SUPPORT. The functions of Machine/Supervisor.lean keep what every command keeps.
-/

namespace Sys2Proof.Machine
open Sys2Proof

set_option linter.all false

theorem keeps_supReset {s0 : State} (s : State) (h0 : Keeps s0 s) : Keeps s0 (supReset s) := by
  unfold supReset
  repeat' first
    | with_reducible assumption | with_reducible apply keeps_bump
    | fail_if_no_progress with_reducible apply Keeps.record | split | dsimp only

theorem keeps_watchdog {s0 : State} (s : State) (h0 : Keeps s0 s) : Keeps s0 (watchdog s) := by
  unfold watchdog
  repeat' first
    | with_reducible assumption | with_reducible apply keeps_bump | with_reducible apply keeps_irq
    | with_reducible apply keeps_supReset | with_reducible apply Keeps.ite | split | dsimp only

theorem keeps_takePatch {s0 : State} (s : State) (image : List Byte) (h0 : Keeps s0 s) :
    KeepsP s0 (takePatch s image) := by
  unfold takePatch
  repeat' first
    | with_reducible assumption | with_reducible apply keeps_irq | with_reducible apply KeepsP.mk
    | fail_if_no_progress with_reducible apply Keeps.record | split | dsimp only

theorem keeps_resumeAttempt {s0 : State} (s : State) (q : Nat) (h0 : Keeps s0 s) : Keeps s0 (resumeAttempt s q) := by
  unfold resumeAttempt
  repeat' first
    | with_reducible assumption | with_reducible apply keeps_goto | with_reducible apply keeps_modPort
    | with_reducible apply keeps_leaveDetect | with_reducible apply keeps_leaveOff
    | with_reducible apply keeps_sendStart | with_reducible apply Keeps.ite | split | dsimp only

theorem keeps_adoptBank {s0 : State} (s : State) (h0 : Keeps s0 s) : Keeps s0 (adoptBank s) := by
  unfold adoptBank
  repeat' first
    | with_reducible assumption | fail_if_no_progress with_reducible apply Keeps.record | split | dsimp only

theorem keeps_supStarts {s0 : State} (s : State) (h0 : Keeps s0 s) : Keeps s0 (supStarts s) := by
  unfold supStarts
  repeat' first
    | with_reducible assumption | with_reducible apply keeps_adoptBank | with_reducible apply keeps_resumeAttempt
    | with_reducible apply Keeps.foldl | with_reducible intro _ _ _ | with_reducible intro _ _
    | with_reducible intro _ | split | dsimp only

end Sys2Proof.Machine
end

