-- ==== Sys2Proof/Laws/KeepsThermal.lean ====
section
/-!
SUPPORT. The functions of Machine/Thermal.lean keep what every command keeps.
-/

namespace Sys2Proof.Machine
open Sys2Proof

set_option linter.all false

theorem keeps_watchOverload {s0 : State} (s : State) (h0 : Keeps s0 s) : Keeps s0 (watchOverload s) := by
  unfold watchOverload
  repeat' first
    | with_reducible assumption | with_reducible apply Keeps.ite
    | fail_if_no_progress with_reducible apply Keeps.record | split | dsimp only

theorem keeps_refreshDemand {s0 : State} (s : State) (h0 : Keeps s0 s) : Keeps s0 (refreshDemand s) := by
  unfold refreshDemand
  repeat' first
    | with_reducible assumption | with_reducible apply keeps_oweTempo | with_reducible apply keeps_presentSch
    | with_reducible apply keeps_watchOverload | with_reducible apply Keeps.ite | with_reducible apply Keeps.foldl
    | fail_if_no_progress with_reducible apply Keeps.record | with_reducible intro _ _ _ | with_reducible intro _ _
    | with_reducible intro _ | split | dsimp only

theorem keeps_acceptTemp {s0 : State} (s : State) (below : Bool) (a b : BitVec 8) (h0 : Keeps s0 s) :
    Keeps s0 (acceptTemp s below a b) := by
  unfold acceptTemp
  repeat' first
    | with_reducible assumption | with_reducible apply keeps_put | with_reducible apply keeps_service
    | with_reducible apply Keeps.ite | split | dsimp only

theorem keeps_execThermalSample {s0 : State} (local1 local2 below1 below2 : BitVec 8) (s : State) (h0 : Keeps s0 s) :
    KeepsO s0 (execThermalSample local1 local2 below1 below2 s) := by
  unfold execThermalSample
  repeat' first
    | with_reducible assumption | with_reducible apply keeps_acceptTemp | with_reducible apply keeps_refreshDemand
    | with_reducible apply KeepsO.next | split | dsimp only

theorem keeps_overload {s0 : State} (s : State) (h0 : Keeps s0 s) : Keeps s0 (overload s) := by
  unfold overload
  repeat' first
    | with_reducible assumption | with_reducible apply keeps_bump | with_reducible apply keeps_evt
    | with_reducible apply keeps_service | with_reducible apply Keeps.ite
    | fail_if_no_progress with_reducible apply Keeps.record | split | dsimp only

theorem keeps_execThermalOverload {s0 : State} (s : State) (h0 : Keeps s0 s) : KeepsO s0 (execThermalOverload s) := by
  unfold execThermalOverload
  repeat' first
    | with_reducible assumption | with_reducible apply keeps_overload | with_reducible apply KeepsO.next | split
    | dsimp only

theorem keeps_execStrapSample {s0 : State} (dieId : Die) (role : BitVec 3) (pos : BitVec 6) (s : State) (h0 : Keeps s0 s) :
    KeepsO s0 (execStrapSample dieId role pos s) := by
  unfold execStrapSample
  repeat' first
    | with_reducible assumption | with_reducible apply keeps_put | with_reducible apply KeepsO.next
    | with_reducible apply KeepsO.ite | split | dsimp only

end Sys2Proof.Machine
end

