-- ==== Sys2Proof/Laws/KeepsTraceUnit.lean ====
section
/-!
SUPPORT. The functions of Machine/TraceUnit.lean keep what every command keeps.
-/

namespace Sys2Proof.Machine
open Sys2Proof

set_option linter.all false

theorem keeps_modTrace {s0 : State} (s : State) (f : Trace → Trace) (h0 : Keeps s0 s) :
    Keeps s0 (State.modTrace s f) := by
  unfold State.modTrace
  repeat' first
    | with_reducible assumption | fail_if_no_progress with_reducible apply Keeps.record | split | dsimp only

theorem keeps_enqueue {s0 : State} (s : State) (kind port sub : Nat) (bad : Bool) (data : BitVec 64) (h0 : Keeps s0 s) :
    Keeps s0 (enqueue s kind port sub bad data) := by
  unfold enqueue
  repeat' first
    | with_reducible assumption | with_reducible apply keeps_modTrace | split | dsimp only

theorem keeps_recordEvent {s0 : State} (s : State) (e : TraceEvent) (h0 : Keeps s0 s) : Keeps s0 (recordEvent s e) := by
  unfold recordEvent
  repeat' first
    | with_reducible assumption | with_reducible apply keeps_bump | with_reducible apply keeps_modTrace
    | with_reducible apply keeps_enqueue | with_reducible apply Keeps.ite | split | dsimp only

theorem keeps_evalEvent {s0 : State} (s : State) (e : TraceEvent) (h0 : Keeps s0 s) : Keeps s0 (evalEvent s e) := by
  unfold evalEvent
  repeat' first
    | with_reducible assumption | with_reducible apply keeps_modTrace | with_reducible apply keeps_recordEvent
    | with_reducible apply Keeps.ite | split | dsimp only

theorem keeps_evalEvents {s0 : State} (s : State) (h0 : Keeps s0 s) : Keeps s0 (evalEvents s) := by
  unfold evalEvents
  repeat' first
    | with_reducible assumption | with_reducible apply keeps_modTrace | with_reducible apply keeps_evalEvent
    | with_reducible apply Keeps.ite | with_reducible apply Keeps.foldl | with_reducible intro _ _ _
    | with_reducible intro _ _ | with_reducible intro _ | split | dsimp only

theorem keeps_armTrace {s0 : State} (s : State) (h0 : Keeps s0 s) : Keeps s0 (armTrace s) := by
  unfold armTrace
  repeat' first
    | with_reducible assumption | with_reducible apply keeps_modTrace | with_reducible apply keeps_recordEvent
    | split | dsimp only

theorem keeps_stopTrace {s0 : State} (s : State) (h0 : Keeps s0 s) : Keeps s0 (stopTrace s) := by
  unfold stopTrace
  repeat' first
    | with_reducible assumption | with_reducible apply keeps_modTrace | split | dsimp only

theorem keeps_markTrace {s0 : State} (s : State) (v : Nat) (h0 : Keeps s0 s) : Keeps s0 (markTrace s v) := by
  unfold markTrace
  repeat' first
    | with_reducible assumption | with_reducible apply keeps_tev | split | dsimp only

theorem keeps_drainQueue {s0 : State} (s : State) (h0 : Keeps s0 s) : Keeps s0 (drainQueue s) := by
  unfold drainQueue
  repeat' first
    | with_reducible assumption | with_reducible apply keeps_bump | with_reducible apply keeps_modTrace
    | with_reducible apply Keeps.ite | split | dsimp only

theorem keeps_streamOut {s0 : State} (s : State) (h0 : Keeps s0 s) : Keeps s0 (streamOut s) := by
  unfold streamOut
  repeat' first
    | with_reducible assumption | with_reducible apply keeps_emit | with_reducible apply keeps_modTrace
    | with_reducible apply Keeps.ite | split | dsimp only

theorem keeps_reportLost {s0 : State} (s : State) (h0 : Keeps s0 s) : Keeps s0 (reportLost s) := by
  unfold reportLost
  repeat' first
    | with_reducible assumption | with_reducible apply keeps_modTrace | with_reducible apply keeps_enqueue
    | with_reducible apply Keeps.ite | split | dsimp only

theorem keeps_execTraceRecord {s0 : State} (s : State) (h0 : Keeps s0 s) : KeepsO s0 (execTraceRecord s) := by
  unfold execTraceRecord
  repeat' first
    | with_reducible assumption | with_reducible apply keeps_drainQueue | with_reducible apply keeps_reportLost
    | with_reducible apply keeps_streamOut | with_reducible apply Keeps.ite | with_reducible apply KeepsO.next
    | split | dsimp only

theorem keeps_execTsfull {s0 : State} (s : State) (h0 : Keeps s0 s) : KeepsO s0 (execTsfull s) := by
  unfold execTsfull
  repeat' first
    | with_reducible assumption | with_reducible apply keeps_tev | with_reducible apply KeepsO.next | split
    | dsimp only

end Sys2Proof.Machine
end

