-- ==== Sys2Proof/Laws/KeepsAlmWrite.lean ====
section
/-!
SUPPORT. The functions of Machine/AlmWrite.lean keep what every command keeps.
-/

namespace Sys2Proof.Machine
open Sys2Proof

set_option linter.all false

theorem keeps_countRefusal {s0 : State} (s : State) (st : Nat) (h0 : Keeps s0 s) : Keeps s0 (countRefusal s st) := by
  unfold countRefusal
  repeat' first
    | with_reducible assumption | with_reducible apply keeps_bump | with_reducible apply Keeps.ite | split
    | dsimp only

theorem keeps_closeRecords {s0 : State} (s : State) (v : Nat) (h0 : Keeps s0 s) : Keeps s0 (closeRecords s v) := by
  unfold closeRecords
  repeat' first
    | with_reducible assumption | with_reducible apply Keeps.ite | split | dsimp only
    | ((with_reducible refine Keeps.recordAll ?_ ?_ ?_ ?_); (on_goal 4 => exact id); (on_goal 3 => (first | with_reducible rfl | exact List.length_map .. | exact mapIf_length .. | exact setAt_length ..)); (on_goal 2 => (first | with_reducible rfl | exact List.length_map .. | exact mapIf_length .. | exact setAt_length ..)))

theorem keeps_clearIrq {s0 : State} (s : State) (mask : Nat) (h0 : Keeps s0 s) : Keeps s0 (clearIrq s mask) := by
  unfold clearIrq
  repeat' first
    | with_reducible assumption | with_reducible apply keeps_put | split | dsimp only

theorem keeps_writeRlcEnable {s0 : State} (s : State) (v : Nat) (h0 : Keeps s0 s) : Keeps s0 (writeRlcEnable s v) := by
  unfold writeRlcEnable
  repeat' first
    | with_reducible assumption | with_reducible apply keeps_put | with_reducible apply keeps_oweEvictions
    | with_reducible apply Keeps.ite | split | dsimp only

theorem keeps_writeRlcWays {s0 : State} (s : State) (v : Nat) (h0 : Keeps s0 s) : Keeps s0 (writeRlcWays s v) := by
  unfold writeRlcWays
  repeat' first
    | with_reducible assumption | with_reducible apply keeps_put | with_reducible apply keeps_oweEvictions | split
    | dsimp only

theorem keeps_writeRlcFlush {s0 : State} (s : State) (v : Nat) (h0 : Keeps s0 s) : Keeps s0 (writeRlcFlush s v) := by
  unfold writeRlcFlush
  repeat' first
    | with_reducible assumption | with_reducible apply keeps_oweEvictions | with_reducible apply Keeps.ite | split
    | dsimp only

theorem keeps_writePortEnable {s0 : State} (s : State) (q v : Nat) (h0 : Keeps s0 s) :
    Keeps s0 (writePortEnable s q v) := by
  unfold writePortEnable
  repeat' first
    | with_reducible assumption | with_reducible apply keeps_put | with_reducible apply keeps_enterOff
    | with_reducible apply keeps_leaveOff | with_reducible apply Keeps.ite | split | dsimp only

theorem keeps_writeResetReq {s0 : State} (s : State) (q v : Nat) (h0 : Keeps s0 s) :
    Keeps s0 (writeResetReq s q v) := by
  unfold writeResetReq
  repeat' first
    | with_reducible assumption | with_reducible apply keeps_resetReqFull
    | with_reducible apply keeps_resetReqRetrain | with_reducible apply keeps_wakePort
    | with_reducible apply Keeps.ite | split | dsimp only

theorem keeps_writeWakePorts {s0 : State} (s : State) (mask : Nat) (h0 : Keeps s0 s) :
    Keeps s0 (writeWakePorts s mask) := by
  unfold writeWakePorts
  repeat' first
    | with_reducible assumption | with_reducible apply keeps_startCore | with_reducible apply keeps_wakePort
    | with_reducible apply Keeps.foldl | with_reducible intro _ _ _ | with_reducible intro _ _
    | with_reducible intro _ | split | dsimp only

theorem keeps_burnAlias {s0 : State} (s : State) (i r : Nat) (h0 : Keeps s0 s) : Keeps s0 (burnAlias s i r) := by
  unfold burnAlias
  repeat' first
    | with_reducible assumption | fail_if_no_progress with_reducible apply Keeps.record | split | dsimp only

theorem keeps_burnMap {s0 : State} (s : State) (q b v : Nat) (h0 : Keeps s0 s) : Keeps s0 (burnMap s q b v) := by
  unfold burnMap
  repeat' first
    | with_reducible assumption | fail_if_no_progress with_reducible apply Keeps.record | split | dsimp only

theorem keeps_installScalar {s0 : State} (s : State) (e : Entry) (idx sub v : Nat) (h0 : Keeps s0 s) :
    Keeps s0 (installScalar s e idx sub v) := by
  unfold installScalar
  repeat' first
    | with_reducible assumption | with_reducible apply keeps_put | with_reducible apply keeps_abortWrite
    | with_reducible apply keeps_armSwitch | with_reducible apply keeps_armTrace
    | with_reducible apply keeps_burnAlias | with_reducible apply keeps_burnMap | with_reducible apply keeps_clearIrq
    | with_reducible apply keeps_closeRecords | with_reducible apply keeps_domainDisable
    | with_reducible apply keeps_domainEnable | with_reducible apply keeps_leapRequest
    | with_reducible apply keeps_markTrace | with_reducible apply keeps_refreshDemand
    | with_reducible apply keeps_rejoin | with_reducible apply keeps_setEngines
    | with_reducible apply keeps_setOwnPkg | with_reducible apply keeps_stopTrace
    | with_reducible apply keeps_supReset | with_reducible apply keeps_writePortEnable
    | with_reducible apply keeps_writeResetReq | with_reducible apply keeps_writeRlcEnable
    | with_reducible apply keeps_writeRlcFlush | with_reducible apply keeps_writeRlcWays
    | with_reducible apply keeps_writeWakePorts | split | dsimp only

theorem keeps_noteWrite {s0 : State} (s : State) (e : Entry) (idx sub : Nat) (bytes : List Byte) (h0 : Keeps s0 s) :
    Keeps s0 (noteWrite s e idx sub bytes) := by
  unfold noteWrite
  repeat' first
    | with_reducible assumption | with_reducible apply keeps_tev | split | dsimp only

theorem keeps_takeScalar {s0 : State} (s : State) (e : Entry) (idx sub v : Nat) (h0 : Keeps s0 s) :
    KeepsP s0 (takeScalar s e idx sub v) := by
  unfold takeScalar
  repeat' first
    | with_reducible assumption | with_reducible apply keeps_installScalar | with_reducible apply KeepsP.mk | split
    | dsimp only

theorem keeps_takeValue {s0 : State} (s : State) (e : Entry) (idx sub : Nat) (bytes : List Byte) (h0 : Keeps s0 s) :
    KeepsP s0 (takeValue s e idx sub bytes) := by
  unfold takeValue
  repeat' first
    | with_reducible assumption | with_reducible apply keeps_noteWrite | with_reducible apply keeps_takePatch
    | with_reducible apply keeps_takeScalar | with_reducible apply keeps_takeTable | with_reducible apply Keeps.ite
    | with_reducible apply KeepsP.mk | with_reducible refine KeepsP.fst ?_ (by with_reducible assumption) | split
    | dsimp only | with_reducible apply KeepsP.proj

theorem keeps_writeWhole {s0 : State} (s : State) (path : Option Path) (idx sub : Nat) (bytes : List Byte) (h0 : Keeps s0 s) :
    KeepsP s0 (writeWhole s path idx sub bytes) := by
  unfold writeWhole
  repeat' first
    | with_reducible assumption | with_reducible apply keeps_takeValue | with_reducible apply KeepsP.mk | split
    | dsimp only | with_reducible apply KeepsP.proj

theorem keeps_setTransfer {s0 : State} (s : State) (path : Path) (x : Option Transfer) (h0 : Keeps s0 s) :
    Keeps s0 (setTransfer s path x) := by
  unfold setTransfer
  repeat' first
    | with_reducible assumption | fail_if_no_progress with_reducible apply Keeps.record | split | dsimp only

theorem keeps_doReadCmd {s0 : State} (s : State) (path : Path) (idx sub : Nat) (h0 : Keeps s0 s) :
    KeepsP s0 (doReadCmd s path idx sub) := by
  unfold doReadCmd
  repeat' first
    | with_reducible assumption | with_reducible apply KeepsP.mk | split | dsimp only

theorem keeps_doWriteCmd {s0 : State} (s : State) (path : Path) (idx sub : Nat) (bytes : List Byte) (h0 : Keeps s0 s) :
    KeepsP s0 (doWriteCmd s path idx sub bytes) := by
  unfold doWriteCmd
  repeat' first
    | with_reducible assumption | with_reducible apply keeps_takeValue | with_reducible apply KeepsP.mk
    | with_reducible refine KeepsP.fst ?_ (by with_reducible assumption) | split | dsimp only

theorem keeps_doReadSeg {s0 : State} (s : State) (path : Path) (idx sub segoff seglen : Nat) (h0 : Keeps s0 s) :
    KeepsP s0 (doReadSeg s path idx sub segoff seglen) := by
  unfold doReadSeg
  repeat' first
    | with_reducible assumption | with_reducible apply keeps_setTransfer | with_reducible apply KeepsP.mk | split
    | dsimp only

theorem keeps_doWriteSeg {s0 : State} (s : State) (path : Path) (idx sub segoff : Nat) (bytes : List Byte) (h0 : Keeps s0 s) :
    KeepsP s0 (doWriteSeg s path idx sub segoff bytes) := by
  unfold doWriteSeg
  repeat' first
    | with_reducible assumption
    | (extract_lets +onlyGivenNames x; refine (have hx : Keeps s0 x := ?_; ?_); on_goal 1 => subst x)
    | (extract_lets +onlyGivenNames x; refine (have hx : KeepsP s0 x := ?_; ?_); on_goal 1 => subst x)
    | (extract_lets +onlyGivenNames x; refine (have hx : KeepsQ s0 x := ?_; ?_); on_goal 1 => subst x)
    | extract_lets +onlyGivenNames x | with_reducible apply keeps_setTransfer | with_reducible apply keeps_takeValue
    | with_reducible apply Keeps.ite | with_reducible apply KeepsP.mk
    | with_reducible refine KeepsP.fst ?_ (by with_reducible assumption) | split | dsimp only

theorem keeps_doAbort {s0 : State} (s : State) (path : Path) (h0 : Keeps s0 s) : KeepsP s0 (doAbort s path) := by
  unfold doAbort
  repeat' first
    | with_reducible assumption | with_reducible apply keeps_setTransfer | with_reducible apply KeepsP.mk | split
    | dsimp only

theorem keeps_runCommand {s0 : State} (s : State) (path : Path) (op idx sub segoff seglen : Nat) (data : List Byte) (h0 : Keeps s0 s) :
    KeepsP s0 (runCommand s path op idx sub segoff seglen data) := by
  unfold runCommand
  repeat' first
    | with_reducible assumption | with_reducible apply keeps_countRefusal | with_reducible apply keeps_doAbort
    | with_reducible apply keeps_doReadCmd | with_reducible apply keeps_doReadSeg
    | with_reducible apply keeps_doWriteCmd | with_reducible apply keeps_doWriteSeg | with_reducible apply KeepsP.mk
    | split | dsimp only | with_reducible apply KeepsP.proj

theorem keeps_ownWrite {s0 : State} (s : State) (idx sub : Nat) (bytes : List Byte) (h0 : Keeps s0 s) :
    Keeps s0 (ownWrite s idx sub bytes) := by
  unfold ownWrite
  repeat' first
    | with_reducible assumption | with_reducible apply keeps_countRefusal | with_reducible apply keeps_startCore
    | with_reducible apply keeps_writeWhole | with_reducible apply Keeps.ite | split | dsimp only
    | with_reducible apply KeepsP.proj

end Sys2Proof.Machine
end

