-- ==== Sys2Proof/Laws/KeepsAlmCmd.lean ====
section
/-!
SUPPORT. The functions of Machine/AlmCmd.lean keep what every command keeps.
-/

namespace Sys2Proof.Machine
open Sys2Proof

set_option linter.all false

theorem keeps_modCfg {s0 : State} (s : State) (f : CfgWindow → CfgWindow) (h0 : Keeps s0 s) :
    Keeps s0 (State.modCfg s f) := by
  unfold State.modCfg
  repeat' first
    | with_reducible assumption | fail_if_no_progress with_reducible apply Keeps.record | split | dsimp only

theorem keeps_cfgEnd {s0 : State} (s : State) (r : Reply) (h0 : Keeps s0 s) : Keeps s0 (cfgEnd s r) := by
  unfold cfgEnd
  repeat' first
    | with_reducible assumption | with_reducible apply keeps_modCfg | split | dsimp only

theorem keeps_cfgRun {s0 : State} (s : State) (op : Nat) (h0 : Keeps s0 s) : Keeps s0 (cfgRun s op) := by
  unfold cfgRun
  repeat' first
    | with_reducible assumption | with_reducible apply keeps_cfgEnd | with_reducible apply keeps_runCommand | split
    | dsimp only | with_reducible apply KeepsP.proj

theorem keeps_cfgAborted {s0 : State} (s : State) (h0 : Keeps s0 s) : Keeps s0 (cfgAborted s) := by
  unfold cfgAborted
  repeat' first
    | with_reducible assumption | with_reducible apply keeps_cfgEnd | with_reducible apply keeps_countRefusal | split
    | dsimp only

theorem keeps_cfgStart {s0 : State} (s : State) (op : Nat) (h0 : Keeps s0 s) : Keeps s0 (cfgStart s op) := by
  unfold cfgStart
  repeat' first
    | with_reducible assumption | with_reducible apply keeps_modCfg | with_reducible apply keeps_cfgAborted
    | with_reducible apply keeps_cfgEnd | with_reducible apply keeps_cfgRun | with_reducible apply keeps_countRefusal
    | with_reducible apply keeps_setTransfer | with_reducible apply keeps_startCore | with_reducible apply Keeps.ite
    | split | dsimp only

theorem keeps_cfgAccess {s0 : State} (s : State) (wroteOp : Bool) (h0 : Keeps s0 s) :
    Keeps s0 (cfgAccess s wroteOp) := by
  unfold cfgAccess
  repeat' first
    | with_reducible assumption | with_reducible apply keeps_modCfg | with_reducible apply Keeps.ite | split
    | dsimp only

theorem keeps_cfgNoCommand {s0 : State} (s : State) (h0 : Keeps s0 s) : Keeps s0 (cfgNoCommand s) := by
  unfold cfgNoCommand
  repeat' first
    | with_reducible assumption | with_reducible apply keeps_modCfg | with_reducible apply Keeps.ite | split
    | dsimp only

theorem keeps_execCfgNoOperation {s0 : State} (_op : BitVec 4) (s : State) (h0 : Keeps s0 s) :
    KeepsO s0 (execCfgNoOperation _op s) := by
  unfold execCfgNoOperation
  repeat' first
    | with_reducible assumption | with_reducible apply keeps_cfgAccess | with_reducible apply keeps_cfgNoCommand
    | with_reducible apply KeepsO.next | split | dsimp only

theorem keeps_execCfgRead {s0 : State} (s : State) (h0 : Keeps s0 s) : KeepsO s0 (execCfgRead s) := by
  unfold execCfgRead
  repeat' first
    | with_reducible assumption | with_reducible apply keeps_cfgAccess | with_reducible apply keeps_cfgStart
    | with_reducible apply KeepsO.next | split | dsimp only

theorem keeps_execCfgWrite {s0 : State} (s : State) (h0 : Keeps s0 s) : KeepsO s0 (execCfgWrite s) := by
  unfold execCfgWrite
  repeat' first
    | with_reducible assumption | with_reducible apply keeps_cfgAccess | with_reducible apply keeps_cfgStart
    | with_reducible apply KeepsO.next | split | dsimp only

theorem keeps_execCfgReadSeg {s0 : State} (s : State) (h0 : Keeps s0 s) : KeepsO s0 (execCfgReadSeg s) := by
  unfold execCfgReadSeg
  repeat' first
    | with_reducible assumption | with_reducible apply keeps_cfgAccess | with_reducible apply keeps_cfgStart
    | with_reducible apply KeepsO.next | split | dsimp only

theorem keeps_execCfgWriteSeg {s0 : State} (s : State) (h0 : Keeps s0 s) : KeepsO s0 (execCfgWriteSeg s) := by
  unfold execCfgWriteSeg
  repeat' first
    | with_reducible assumption | with_reducible apply keeps_cfgAccess | with_reducible apply keeps_cfgStart
    | with_reducible apply KeepsO.next | split | dsimp only

theorem keeps_execCfgAbort {s0 : State} (s : State) (h0 : Keeps s0 s) : KeepsO s0 (execCfgAbort s) := by
  unfold execCfgAbort
  repeat' first
    | with_reducible assumption | with_reducible apply keeps_cfgAccess | with_reducible apply keeps_cfgStart
    | with_reducible apply KeepsO.next | split | dsimp only

theorem keeps_execCfgWordWrite {s0 : State} (word : BitVec 4) (data : BitVec 32) (s : State) (h0 : Keeps s0 s) :
    KeepsO s0 (execCfgWordWrite word data s) := by
  unfold execCfgWordWrite
  repeat' first
    | with_reducible assumption | with_reducible apply keeps_modCfg | with_reducible apply keeps_cfgAccess
    | with_reducible apply Keeps.ite | with_reducible apply KeepsO.next | split | dsimp only

theorem keeps_execSegmentTransferTimeout {s0 : State} (path : Path) (s : State) (h0 : Keeps s0 s) :
    KeepsO s0 (execSegmentTransferTimeout path s) := by
  unfold execSegmentTransferTimeout
  repeat' first
    | with_reducible assumption | with_reducible apply keeps_setTransfer | with_reducible apply KeepsO.next | split
    | dsimp only

theorem keeps_execAlmanacWrite {s0 : State} (index : BitVec 16) (sub : BitVec 8) (bytes : List Byte) (s : State) (h0 : Keeps s0 s) :
    KeepsO s0 (execAlmanacWrite index sub bytes s) := by
  unfold execAlmanacWrite
  repeat' first
    | with_reducible assumption | with_reducible apply keeps_ownWrite | with_reducible apply KeepsO.next | split
    | dsimp only

theorem keeps_execLinkPortEnable {s0 : State} (q : PortId) (value : Bool) (s : State) (h0 : Keeps s0 s) :
    KeepsO s0 (execLinkPortEnable q value s) := by
  unfold execLinkPortEnable
  repeat' first
    | with_reducible assumption | with_reducible apply keeps_ownWrite | with_reducible apply KeepsO.next | split
    | dsimp only

theorem keeps_execPmWakePorts {s0 : State} (mask : BitVec 16) (s : State) (h0 : Keeps s0 s) :
    KeepsO s0 (execPmWakePorts mask s) := by
  unfold execPmWakePorts
  repeat' first
    | with_reducible assumption | with_reducible apply keeps_ownWrite | with_reducible apply KeepsO.next | split
    | dsimp only

theorem keeps_execLinkResetReqRetrain {s0 : State} (q : PortId) (s : State) (h0 : Keeps s0 s) :
    KeepsO s0 (execLinkResetReqRetrain q s) := by
  unfold execLinkResetReqRetrain
  repeat' first
    | with_reducible assumption | with_reducible apply keeps_ownWrite | with_reducible apply KeepsO.next | split
    | dsimp only

theorem keeps_execLinkResetReqFull {s0 : State} (q : PortId) (s : State) (h0 : Keeps s0 s) :
    KeepsO s0 (execLinkResetReqFull q s) := by
  unfold execLinkResetReqFull
  repeat' first
    | with_reducible assumption | with_reducible apply keeps_ownWrite | with_reducible apply KeepsO.next | split
    | dsimp only

theorem keeps_execXphyPathDelayReset {s0 : State} (q : PortId) (s : State) (h0 : Keeps s0 s) :
    KeepsO s0 (execXphyPathDelayReset q s) := by
  unfold execXphyPathDelayReset
  repeat' first
    | with_reducible assumption | with_reducible apply keeps_ownWrite | with_reducible apply KeepsO.next
    | with_reducible apply KeepsO.fault | with_reducible apply KeepsO.ite | split | dsimp only

theorem keeps_execSchDomainEnable {s0 : State} (s : State) (h0 : Keeps s0 s) : KeepsO s0 (execSchDomainEnable s) := by
  unfold execSchDomainEnable
  repeat' first
    | with_reducible assumption | with_reducible apply keeps_ownWrite | with_reducible apply KeepsO.next | split
    | dsimp only

theorem keeps_execSchDomainDisable {s0 : State} (s : State) (h0 : Keeps s0 s) : KeepsO s0 (execSchDomainDisable s) := by
  unfold execSchDomainDisable
  repeat' first
    | with_reducible assumption | with_reducible apply keeps_ownWrite | with_reducible apply KeepsO.next | split
    | dsimp only

theorem keeps_execSchRejoin {s0 : State} (s : State) (h0 : Keeps s0 s) : KeepsO s0 (execSchRejoin s) := by
  unfold execSchRejoin
  repeat' first
    | with_reducible assumption | with_reducible apply keeps_ownWrite | with_reducible apply KeepsO.next | split
    | dsimp only

theorem keeps_execSchLeapRequest {s0 : State} (k : BitVec 8) (s : State) (h0 : Keeps s0 s) :
    KeepsO s0 (execSchLeapRequest k s) := by
  unfold execSchLeapRequest
  repeat' first
    | with_reducible assumption | with_reducible apply keeps_ownWrite | with_reducible apply KeepsO.next | split
    | dsimp only

theorem keeps_execSchSwitchEpoch {s0 : State} (epoch : BitVec 64) (s : State) (h0 : Keeps s0 s) :
    KeepsO s0 (execSchSwitchEpoch epoch s) := by
  unfold execSchSwitchEpoch
  repeat' first
    | with_reducible assumption | with_reducible apply keeps_ownWrite | with_reducible apply KeepsO.next | split
    | dsimp only

theorem keeps_execTxnOwnPkgWrite {s0 : State} (pkg : BitVec 16) (s : State) (h0 : Keeps s0 s) :
    KeepsO s0 (execTxnOwnPkgWrite pkg s) := by
  unfold execTxnOwnPkgWrite
  repeat' first
    | with_reducible assumption | with_reducible apply keeps_ownWrite | with_reducible apply KeepsO.next | split
    | dsimp only

theorem keeps_execTxnAbsentMapWrite {s0 : State} (rows : List (BitVec 64)) (s : State) (h0 : Keeps s0 s) :
    KeepsO s0 (execTxnAbsentMapWrite rows s) := by
  unfold execTxnAbsentMapWrite
  repeat' first
    | with_reducible assumption | with_reducible apply keeps_ownWrite | with_reducible apply KeepsO.next | split
    | dsimp only

theorem keeps_execRlcEnable {s0 : State} (value : Bool) (s : State) (h0 : Keeps s0 s) :
    KeepsO s0 (execRlcEnable value s) := by
  unfold execRlcEnable
  repeat' first
    | with_reducible assumption | with_reducible apply keeps_ownWrite | with_reducible apply KeepsO.next | split
    | dsimp only

theorem keeps_execRlcWaysEnabled {s0 : State} (mask : BitVec 16) (s : State) (h0 : Keeps s0 s) :
    KeepsO s0 (execRlcWaysEnabled mask s) := by
  unfold execRlcWaysEnabled
  repeat' first
    | with_reducible assumption | with_reducible apply keeps_ownWrite | with_reducible apply KeepsO.next | split
    | dsimp only

theorem keeps_execRlcFlush {s0 : State} (s : State) (h0 : Keeps s0 s) : KeepsO s0 (execRlcFlush s) := by
  unfold execRlcFlush
  repeat' first
    | with_reducible assumption | with_reducible apply keeps_ownWrite | with_reducible apply KeepsO.next | split
    | dsimp only

theorem keeps_execIfrAbortRid {s0 : State} (value : BitVec 16) (s : State) (h0 : Keeps s0 s) :
    KeepsO s0 (execIfrAbortRid value s) := by
  unfold execIfrAbortRid
  repeat' first
    | with_reducible assumption | with_reducible apply keeps_ownWrite | with_reducible apply KeepsO.next | split
    | dsimp only

theorem keeps_execIfrEnginesEnabled {s0 : State} (mask : BitVec 8) (s : State) (h0 : Keeps s0 s) :
    KeepsO s0 (execIfrEnginesEnabled mask s) := by
  unfold execIfrEnginesEnabled
  repeat' first
    | with_reducible assumption | with_reducible apply keeps_ownWrite | with_reducible apply KeepsO.next | split
    | dsimp only

theorem keeps_execAliasRowWrite {s0 : State} (row : Fin 16) (value : BitVec 64) (s : State) (h0 : Keeps s0 s) :
    KeepsO s0 (execAliasRowWrite row value s) := by
  unfold execAliasRowWrite
  repeat' first
    | with_reducible assumption | with_reducible apply keeps_ownWrite | with_reducible apply KeepsO.next | split
    | dsimp only

theorem keeps_execSvcClose {s0 : State} (value : BitVec 8) (s : State) (h0 : Keeps s0 s) :
    KeepsO s0 (execSvcClose value s) := by
  unfold execSvcClose
  repeat' first
    | with_reducible assumption | with_reducible apply keeps_ownWrite | with_reducible apply KeepsO.next | split
    | dsimp only

theorem keeps_execFwPortMode {s0 : State} (q : PortId) (mode : BitVec 8) (s : State) (h0 : Keeps s0 s) :
    KeepsO s0 (execFwPortMode q mode s) := by
  unfold execFwPortMode
  repeat' first
    | with_reducible assumption | with_reducible apply keeps_ownWrite | with_reducible apply KeepsO.next | split
    | dsimp only

theorem keeps_execCapCompatLevel {s0 : State} (level : BitVec 8) (s : State) (h0 : Keeps s0 s) :
    KeepsO s0 (execCapCompatLevel level s) := by
  unfold execCapCompatLevel
  repeat' first
    | with_reducible assumption | with_reducible apply keeps_ownWrite | with_reducible apply KeepsO.next | split
    | dsimp only

theorem keeps_execSupRestart {s0 : State} (s : State) (h0 : Keeps s0 s) : KeepsO s0 (execSupRestart s) := by
  unfold execSupRestart
  repeat' first
    | with_reducible assumption | with_reducible apply keeps_ownWrite | with_reducible apply KeepsO.next | split
    | dsimp only

theorem keeps_execIrqClear {s0 : State} (mask : BitVec 32) (s : State) (h0 : Keeps s0 s) :
    KeepsO s0 (execIrqClear mask s) := by
  unfold execIrqClear
  repeat' first
    | with_reducible assumption | with_reducible apply keeps_ownWrite | with_reducible apply KeepsO.next | split
    | dsimp only

theorem keeps_execIxtFuseWrite {s0 : State} (q : PortId) (b : BundleId) (value : BitVec 32) (s : State) (h0 : Keeps s0 s) :
    KeepsO s0 (execIxtFuseWrite q b value s) := by
  unfold execIxtFuseWrite
  repeat' first
    | with_reducible assumption | with_reducible apply keeps_ownWrite | with_reducible apply KeepsO.next | split
    | dsimp only

theorem keeps_execTraceArm {s0 : State} (s : State) (h0 : Keeps s0 s) : KeepsO s0 (execTraceArm s) := by
  unfold execTraceArm
  repeat' first
    | with_reducible assumption | with_reducible apply keeps_ownWrite | with_reducible apply KeepsO.next | split
    | dsimp only

theorem keeps_execTraceStop {s0 : State} (s : State) (h0 : Keeps s0 s) : KeepsO s0 (execTraceStop s) := by
  unfold execTraceStop
  repeat' first
    | with_reducible assumption | with_reducible apply keeps_ownWrite | with_reducible apply KeepsO.next | split
    | dsimp only

theorem keeps_execTraceMark {s0 : State} (value : BitVec 32) (s : State) (h0 : Keeps s0 s) :
    KeepsO s0 (execTraceMark value s) := by
  unfold execTraceMark
  repeat' first
    | with_reducible assumption | with_reducible apply keeps_ownWrite | with_reducible apply KeepsO.next | split
    | dsimp only

theorem keeps_modRing {s0 : State} (s : State) (f : RingAgent → RingAgent) (h0 : Keeps s0 s) :
    Keeps s0 (State.modRing s f) := by
  unfold State.modRing
  repeat' first
    | with_reducible assumption | fail_if_no_progress with_reducible apply Keeps.record | split | dsimp only

theorem keeps_forwardFrame {s0 : State} (s : State) (bytes : List Byte) (h0 : Keeps s0 s) :
    Keeps s0 (forwardFrame s bytes) := by
  unfold forwardFrame
  repeat' first
    | with_reducible assumption | with_reducible apply keeps_bump | with_reducible apply keeps_emit
    | with_reducible apply Keeps.ite | split | dsimp only

theorem keeps_execRingFrameForward {s0 : State} (frame : List Byte) (s : State) (h0 : Keeps s0 s) :
    KeepsO s0 (execRingFrameForward frame s) := by
  unfold execRingFrameForward
  repeat' first
    | with_reducible assumption | with_reducible apply keeps_forwardFrame | with_reducible apply KeepsO.next | split
    | dsimp only

theorem keeps_placeResp {s0 : State} (s : State) (bytes : List Byte) (h0 : Keeps s0 s) :
    Keeps s0 (placeResp s bytes) := by
  unfold placeResp
  repeat' first
    | with_reducible assumption | with_reducible apply keeps_bump | with_reducible apply keeps_modRing
    | with_reducible apply Keeps.ite | split | dsimp only

theorem keeps_keepRequest {s0 : State} (s : State) (src : Nat) (key : List Byte) (h0 : Keeps s0 s) :
    Keeps s0 (keepRequest s src key) := by
  unfold keepRequest
  repeat' first
    | with_reducible assumption | with_reducible apply keeps_modRing | split | dsimp only

theorem keeps_ringAnswer {s0 : State} (s : State) (bytes : List Byte) (r : Reply) (h0 : Keeps s0 s) :
    Keeps s0 (ringAnswer s bytes r) := by
  unfold ringAnswer
  repeat' first
    | with_reducible assumption | with_reducible apply keeps_bump64 | with_reducible apply keeps_modRing
    | with_reducible apply keeps_placeResp | split | dsimp only

theorem keeps_ringRun {s0 : State} (s : State) (bytes : List Byte) (h0 : Keeps s0 s) : Keeps s0 (ringRun s bytes) := by
  unfold ringRun
  repeat' first
    | with_reducible assumption | with_reducible apply keeps_ringAnswer | with_reducible apply keeps_runCommand
    | split | dsimp only | with_reducible apply KeepsP.proj

theorem keeps_ringServe {s0 : State} (s : State) (kind : Nat) (bytes : List Byte) (h0 : Keeps s0 s) :
    Keeps s0 (ringServe s kind bytes) := by
  unfold ringServe
  repeat' first
    | with_reducible assumption | with_reducible apply keeps_bump | with_reducible apply keeps_modRing
    | with_reducible apply keeps_countRefusal | with_reducible apply keeps_keepRequest
    | with_reducible apply keeps_placeResp | with_reducible apply keeps_ringAnswer
    | with_reducible apply keeps_ringRun | with_reducible apply keeps_startCore | with_reducible apply Keeps.ite
    | split | dsimp only

theorem keeps_execRingRead {s0 : State} (frame : List Byte) (s : State) (h0 : Keeps s0 s) :
    KeepsO s0 (execRingRead frame s) := by
  unfold execRingRead
  repeat' first
    | with_reducible assumption | with_reducible apply keeps_ringServe | with_reducible apply KeepsO.next | split
    | dsimp only

theorem keeps_execRingWrite {s0 : State} (frame : List Byte) (s : State) (h0 : Keeps s0 s) :
    KeepsO s0 (execRingWrite frame s) := by
  unfold execRingWrite
  repeat' first
    | with_reducible assumption | with_reducible apply keeps_ringServe | with_reducible apply KeepsO.next | split
    | dsimp only

theorem keeps_execRingReadSeg {s0 : State} (frame : List Byte) (s : State) (h0 : Keeps s0 s) :
    KeepsO s0 (execRingReadSeg frame s) := by
  unfold execRingReadSeg
  repeat' first
    | with_reducible assumption | with_reducible apply keeps_ringServe | with_reducible apply KeepsO.next | split
    | dsimp only

theorem keeps_execRingWriteSeg {s0 : State} (frame : List Byte) (s : State) (h0 : Keeps s0 s) :
    KeepsO s0 (execRingWriteSeg frame s) := by
  unfold execRingWriteSeg
  repeat' first
    | with_reducible assumption | with_reducible apply keeps_ringServe | with_reducible apply KeepsO.next | split
    | dsimp only

theorem keeps_execRingAbort {s0 : State} (frame : List Byte) (s : State) (h0 : Keeps s0 s) :
    KeepsO s0 (execRingAbort frame s) := by
  unfold execRingAbort
  repeat' first
    | with_reducible assumption | with_reducible apply keeps_ringServe | with_reducible apply KeepsO.next | split
    | dsimp only

theorem keeps_sendNotice {s0 : State} (s : State) (h0 : Keeps s0 s) : Keeps s0 (sendNotice s) := by
  unfold sendNotice
  repeat' first
    | with_reducible assumption | with_reducible apply keeps_emit | with_reducible apply keeps_modRing
    | with_reducible apply Keeps.ite | split | dsimp only

theorem keeps_execNotice {s0 : State} (s : State) (h0 : Keeps s0 s) : KeepsO s0 (execNotice s) := by
  unfold execNotice
  repeat' first
    | with_reducible assumption | with_reducible apply keeps_sendNotice | with_reducible apply KeepsO.next | split
    | dsimp only

theorem keeps_execRingJoin {s0 : State} (s : State) (h0 : Keeps s0 s) : KeepsO s0 (execRingJoin s) := by
  unfold execRingJoin
  repeat' first
    | with_reducible assumption | with_reducible apply keeps_modRing | with_reducible apply Keeps.ite
    | with_reducible apply KeepsO.next | split | dsimp only

theorem keeps_resumeCommands {s0 : State} (s : State) (h0 : Keeps s0 s) : Keeps s0 (resumeCommands s) := by
  unfold resumeCommands
  repeat' first
    | with_reducible assumption | with_reducible apply keeps_modRing | with_reducible apply keeps_cfgRun
    | with_reducible apply keeps_ringRun | with_reducible apply Keeps.ite | with_reducible apply Keeps.foldl
    | with_reducible intro _ _ _ | with_reducible intro _ _ | with_reducible intro _ | split | dsimp only

theorem keeps_execWatchdogExpiry {s0 : State} (s : State) (h0 : Keeps s0 s) : KeepsO s0 (execWatchdogExpiry s) := by
  unfold execWatchdogExpiry
  repeat' first
    | with_reducible assumption | with_reducible apply keeps_watchdog | with_reducible apply KeepsO.next | split
    | dsimp only

theorem keeps_execSupStart {s0 : State} (s : State) (h0 : Keeps s0 s) : KeepsO s0 (execSupStart s) := by
  unfold execSupStart
  repeat' first
    | with_reducible assumption | with_reducible apply keeps_resumeCommands | with_reducible apply keeps_supStarts
    | with_reducible apply Keeps.ite | with_reducible apply KeepsO.next | split | dsimp only

end Sys2Proof.Machine
end

