-- ==== Sys2Proof/Laws/KeepsCaps.lean ====
section
/-!
SUPPORT. The functions of Machine/Caps.lean keep what every command keeps.
-/

namespace Sys2Proof.Machine
open Sys2Proof

set_option linter.all false

theorem keeps_ucieLost {s0 : State} (s : State) (q : Nat) (h0 : Keeps s0 s) : Keeps s0 (ucieLost s q) := by
  unfold ucieLost
  repeat' first
    | with_reducible assumption | with_reducible apply keeps_partnerLost | with_reducible apply Keeps.ite | split
    | dsimp only

theorem keeps_execUcieSidebandLoss {s0 : State} (q : PortId) (s : State) (h0 : Keeps s0 s) :
    KeepsO s0 (execUcieSidebandLoss q s) := by
  unfold execUcieSidebandLoss
  repeat' first
    | with_reducible assumption | with_reducible apply keeps_onPort | with_reducible apply keeps_ucieLost
    | with_reducible apply keeps_onPort | split | dsimp only

theorem keeps_execUcieLinkerror {s0 : State} (q : PortId) (s : State) (h0 : Keeps s0 s) :
    KeepsO s0 (execUcieLinkerror q s) := by
  unfold execUcieLinkerror
  repeat' first
    | with_reducible assumption | with_reducible apply keeps_onPort | with_reducible apply keeps_partnerLost
    | with_reducible apply Keeps.ite | with_reducible apply keeps_onPort | split | dsimp only

end Sys2Proof.Machine
end

