-- ==== Sys2Proof/Laws/KeepsMgmt.lean ====
section
/-!
SUPPORT. The functions of Machine/Mgmt.lean keep what every command keeps.
-/

namespace Sys2Proof.Machine
open Sys2Proof

set_option linter.all false

theorem keeps_mgmtHere {s0 : State} (s : State) (pl : Place) (w : Waiting) (h0 : Keeps s0 s) :
    Keeps s0 (mgmtHere s pl w) := by
  unfold mgmtHere
  repeat' first
    | with_reducible assumption | with_reducible apply keeps_bump64 | with_reducible apply keeps_answerAt
    | with_reducible apply keeps_countRefusal | with_reducible apply keeps_runCommand
    | with_reducible apply keeps_startCore | with_reducible apply Keeps.ite | split | dsimp only
    | with_reducible apply KeepsP.proj

theorem keeps_serveMgmt {s0 : State} (s : State) (pl : Place) (w : Waiting) (h0 : Keeps s0 s) :
    Keeps s0 (serveMgmt s pl w) := by
  unfold serveMgmt
  repeat' first
    | with_reducible assumption | with_reducible apply keeps_answerAt | with_reducible apply keeps_mgmtHere
    | with_reducible apply keeps_putAt | with_reducible apply keeps_routeOut | with_reducible apply keeps_targetOr
    | with_reducible apply Keeps.ite | with_reducible intro _ _ _ | with_reducible intro _ _ | with_reducible intro _
    | split | dsimp only

theorem keeps_execMrd {s0 : State} (pl : Place) (s : State) (h0 : Keeps s0 s) : KeepsO s0 (execMrd pl s) := by
  unfold execMrd
  repeat' first
    | with_reducible assumption | with_reducible apply keeps_serveAt | with_reducible apply keeps_serveMgmt
    | with_reducible intro _ _ _ | with_reducible intro _ _ | with_reducible intro _ | split | dsimp only

theorem keeps_execMwr {s0 : State} (pl : Place) (s : State) (h0 : Keeps s0 s) : KeepsO s0 (execMwr pl s) := by
  unfold execMwr
  repeat' first
    | with_reducible assumption | with_reducible apply keeps_serveAt | with_reducible apply keeps_serveMgmt
    | with_reducible intro _ _ _ | with_reducible intro _ _ | with_reducible intro _ | split | dsimp only

theorem keeps_execMrds {s0 : State} (pl : Place) (s : State) (h0 : Keeps s0 s) : KeepsO s0 (execMrds pl s) := by
  unfold execMrds
  repeat' first
    | with_reducible assumption | with_reducible apply keeps_serveAt | with_reducible apply keeps_serveMgmt
    | with_reducible intro _ _ _ | with_reducible intro _ _ | with_reducible intro _ | split | dsimp only

theorem keeps_execMwrs {s0 : State} (pl : Place) (s : State) (h0 : Keeps s0 s) : KeepsO s0 (execMwrs pl s) := by
  unfold execMwrs
  repeat' first
    | with_reducible assumption | with_reducible apply keeps_serveAt | with_reducible apply keeps_serveMgmt
    | with_reducible intro _ _ _ | with_reducible intro _ _ | with_reducible intro _ | split | dsimp only

theorem keeps_execMabt {s0 : State} (pl : Place) (s : State) (h0 : Keeps s0 s) : KeepsO s0 (execMabt pl s) := by
  unfold execMabt
  repeat' first
    | with_reducible assumption | with_reducible apply keeps_serveAt | with_reducible apply keeps_serveMgmt
    | with_reducible intro _ _ _ | with_reducible intro _ _ | with_reducible intro _ | split | dsimp only

end Sys2Proof.Machine
end

