-- ==== Sys2Proof/Laws/KeepsReachPhy.lean ====
section
/-!
SUPPORT. The functions of Machine/ReachPhy.lean keep what every command keeps.
-/

namespace Sys2Proof.Machine
open Sys2Proof

set_option linter.all false

theorem keeps_execXphPllLock {s0 : State} (q : PortId) (s : State) (h0 : Keeps s0 s) :
    KeepsO s0 (execXphPllLock q s) := by
  unfold execXphPllLock
  repeat' first
    | with_reducible assumption | with_reducible apply keeps_onPort | with_reducible apply keeps_pllLocks
    | with_reducible apply keeps_onPort | split | dsimp only

theorem keeps_detectFrame {s0 : State} (s : State) (q : Nat) (h : BitVec 64) (h0 : Keeps s0 s) :
    Keeps s0 (detectFrame s q h) := by
  unfold detectFrame
  repeat' first
    | with_reducible assumption | with_reducible apply keeps_modPort | with_reducible apply keeps_pbump
    | with_reducible apply keeps_leaveDetect | with_reducible apply Keeps.ite | split | dsimp only

theorem keeps_trainFrame {s0 : State} (s : State) (q l : Nat) (h : BitVec 64) (h0 : Keeps s0 s) :
    Keeps s0 (trainFrame s q l h) := by
  unfold trainFrame
  repeat' first
    | with_reducible assumption | with_reducible apply keeps_modPort | with_reducible apply keeps_advanceStep
    | with_reducible apply keeps_attemptFails | with_reducible apply Keeps.ite | split | dsimp only

theorem keeps_receiveXframe {s0 : State} (s : State) (q l : Nat) (h : BitVec 64) (h0 : Keeps s0 s) :
    Keeps s0 (receiveXframe s q l h) := by
  unfold receiveXframe
  repeat' first
    | with_reducible assumption | with_reducible apply keeps_acceptHoldHello
    | with_reducible apply keeps_acceptResetHello | with_reducible apply keeps_answerWake
    | with_reducible apply keeps_detectFrame | with_reducible apply keeps_lateMessage
    | with_reducible apply keeps_trainFrame | with_reducible apply Keeps.ite | split | dsimp only

theorem keeps_execTrainingFrame {s0 : State} (q : PortId) (lane : LaneId) (header : BitVec 64) (s : State) (h0 : Keeps s0 s) :
    KeepsO s0 (execTrainingFrame q lane header s) := by
  unfold execTrainingFrame
  repeat' first
    | with_reducible assumption | with_reducible apply keeps_onLane | with_reducible apply keeps_receiveXframe
    | with_reducible apply keeps_onLane | split | dsimp only

theorem keeps_receiveMarker {s0 : State} (s : State) (q : Nat) (echo : Bool) (lmk turn sentAt : Nat) (h0 : Keeps s0 s) :
    Keeps s0 (receiveMarker s q echo lmk turn sentAt) := by
  unfold receiveMarker
  repeat' first
    | with_reducible assumption | with_reducible apply keeps_modPort | with_reducible apply Keeps.ite | split
    | dsimp only

theorem keeps_execLatencyMarker {s0 : State} (q : PortId) (echo : Bool) (lmk : BitVec 4) (turn : BitVec 12) (sentAt : Nat) (s : State) (h0 : Keeps s0 s) :
    KeepsO s0 (execLatencyMarker q echo lmk turn sentAt s) := by
  unfold execLatencyMarker
  repeat' first
    | with_reducible assumption | with_reducible apply keeps_onPort | with_reducible apply keeps_receiveMarker
    | with_reducible apply keeps_onPort | split | dsimp only

theorem keeps_declareLaneLoss {s0 : State} (s : State) (q l : Nat) (h0 : Keeps s0 s) :
    Keeps s0 (declareLaneLoss s q l) := by
  unfold declareLaneLoss
  repeat' first
    | with_reducible assumption | with_reducible apply keeps_modLane | with_reducible apply keeps_modPort
    | with_reducible apply keeps_noneRemains | with_reducible apply keeps_partnerLost
    | with_reducible apply Keeps.ite | split | dsimp only

theorem keeps_execLaneLoss {s0 : State} (q : PortId) (l : LaneId) (s : State) (h0 : Keeps s0 s) :
    KeepsO s0 (execLaneLoss q l s) := by
  unfold execLaneLoss
  repeat' first
    | with_reducible assumption | with_reducible apply keeps_declareLaneLoss | with_reducible apply keeps_onLane
    | with_reducible apply keeps_onLane | split | dsimp only

theorem keeps_closeLaneWindow {s0 : State} (s : State) (q : Nat) (h0 : Keeps s0 s) :
    Keeps s0 (closeLaneWindow s q) := by
  unfold closeLaneWindow
  repeat' first
    | with_reducible assumption | with_reducible apply keeps_modPort | with_reducible apply keeps_requestFull
    | with_reducible apply Keeps.ite | split | dsimp only

theorem keeps_execLaneLost {s0 : State} (q : PortId) (s : State) (h0 : Keeps s0 s) : KeepsO s0 (execLaneLost q s) := by
  unfold execLaneLost
  repeat' first
    | with_reducible assumption | with_reducible apply keeps_closeLaneWindow | with_reducible apply keeps_onPort
    | with_reducible apply keeps_onPort | split | dsimp only

theorem keeps_execLaneDegraded {s0 : State} (q : PortId) (l : LaneId) (s : State) (h0 : Keeps s0 s) :
    KeepsO s0 (execLaneDegraded q l s) := by
  unfold execLaneDegraded
  repeat' first
    | with_reducible assumption | with_reducible apply keeps_modLane | with_reducible apply keeps_onLane
    | with_reducible apply Keeps.ite | with_reducible apply keeps_onLane | split | dsimp only

theorem keeps_actOnCctl {s0 : State} (s : State) (q code arg : Nat) (h0 : Keeps s0 s) :
    Keeps s0 (actOnCctl s q code arg) := by
  unfold actOnCctl
  repeat' first
    | with_reducible assumption | with_reducible apply keeps_bump | with_reducible apply keeps_receiveSleepAck
    | with_reducible apply keeps_receiveSleepReq | with_reducible apply keeps_requestFull
    | with_reducible apply keeps_requestRetrain | with_reducible apply keeps_sleepRefused | split | dsimp only

theorem keeps_countCorrected {s0 : State} (s : State) (q : Nat) (d : Decoded) (h0 : Keeps s0 s) :
    Keeps s0 (countCorrected s q d) := by
  unfold countCorrected
  repeat' first
    | with_reducible assumption | with_reducible apply keeps_bump | with_reducible apply keeps_bump64
    | with_reducible apply keeps_modPort | with_reducible apply Keeps.ite | split | dsimp only

theorem keeps_receiveCodeword {s0 : State} (s : State) (q : Nat) (cw : Codeword) (h0 : Keeps s0 s) :
    Keeps s0 (receiveCodeword s q cw) := by
  unfold receiveCodeword
  repeat' first
    | with_reducible assumption | with_reducible apply keeps_modPort | with_reducible apply keeps_actOnCctl
    | with_reducible apply keeps_countCorrected | with_reducible apply keeps_requestRetrain
    | with_reducible apply Keeps.ite | split | dsimp only

theorem keeps_execCodeword {s0 : State} (q : PortId) (cw : Codeword) (s : State) (h0 : Keeps s0 s) :
    KeepsO s0 (execCodeword q cw s) := by
  unfold execCodeword
  repeat' first
    | with_reducible assumption | with_reducible apply keeps_onPort | with_reducible apply keeps_receiveCodeword
    | with_reducible apply Keeps.ite | with_reducible apply keeps_onPort | split | dsimp only

end Sys2Proof.Machine
end

