-- ==== Sys2Proof/Laws/KeepsPhyTick.lean ====
section
/-!
SUPPORT. The functions of Machine/PhyTick.lean keep what every command keeps.
-/

namespace Sys2Proof.Machine
open Sys2Proof

set_option linter.all false

theorem keeps_tickCodeword {s0 : State} (s : State) (q : Nat) (h0 : Keeps s0 s) : Keeps s0 (tickCodeword s q) := by
  unfold tickCodeword
  repeat' first
    | with_reducible assumption | with_reducible apply keeps_emit | with_reducible apply keeps_modPort
    | with_reducible apply keeps_setPort | with_reducible apply Keeps.ite | split | dsimp only

theorem keeps_tickPhy {s0 : State} (s : State) (q : Nat) (h0 : Keeps s0 s) : Keeps s0 (tickPhy s q) := by
  unfold tickPhy
  repeat' first
    | with_reducible assumption | with_reducible apply keeps_modPort | with_reducible apply keeps_tickCodeword
    | with_reducible apply Keeps.ite | split | dsimp only

end Sys2Proof.Machine
end

