-- ==== Sys2Proof/Laws/KeepsResets.lean ====
section
/-!
SUPPORT. The functions of Machine/Resets.lean keep what every command keeps.
-/

namespace Sys2Proof.Machine
open Sys2Proof

set_option linter.all false

theorem keeps_emptied {s0 : State} (s : State) (h0 : Keeps s0 s) : Keeps s0 (emptied s) :=
  ⟨h0.elab_, h0.pending, fun _ => by simp [emptied], h0.svc, h0.alm⟩

theorem keeps_clearEntries {s0 : State} (lvl : Nat) (s : State) (h0 : Keeps s0 s) : Keeps s0 (clearEntries lvl s) :=
  Keeps.updAlm h0 rfl rfl rfl rfl (filter_wf _)

theorem keeps_clearW {s0 : State} (s : State) (h0 : Keeps s0 s) : Keeps s0 (clearW s) := by
  unfold clearW
  repeat' first
    | with_reducible assumption
    | with_reducible apply Keeps.ite
    | with_reducible apply Keeps.foldl
    | fail_if_no_progress with_reducible apply Keeps.record
    | with_reducible intro _ _ _
    | with_reducible intro _ _
    | with_reducible intro _
    | split
    | dsimp only

theorem keeps_clearC {s0 : State} (s : State) (h0 : Keeps s0 s) : Keeps s0 (clearC s) :=
  ⟨h0.elab_, h0.pending, h0.ports, fun _ => rfl, h0.alm⟩

theorem keeps_aliasScan {s0 : State} (s : State) (h0 : Keeps s0 s) : Keeps s0 (aliasScan s) := by
  unfold aliasScan
  repeat' first
    | with_reducible assumption
    | with_reducible apply keeps_put
    | with_reducible apply Keeps.ite
    | with_reducible apply Keeps.foldl
    | with_reducible refine KeepsP.fst ?_ (by with_reducible assumption)
    | with_reducible refine KeepsQ.snd ?_ (by with_reducible assumption)
    | fail_if_no_progress with_reducible apply Keeps.record
    | with_reducible intro _ _ _
    | with_reducible intro _ _
    | with_reducible intro _
    | split
    | dsimp only

theorem keeps_grantCredits {s0 : State} (s : State) (h0 : Keeps s0 s) : Keeps s0 (grantCredits s) := by
  unfold grantCredits
  repeat' first
    | with_reducible assumption
    | with_reducible apply Keeps.ite
    | with_reducible apply Keeps.foldl
    | fail_if_no_progress with_reducible apply Keeps.record
    | with_reducible intro _ _ _
    | with_reducible intro _ _
    | with_reducible intro _
    | split
    | dsimp only
    | ((with_reducible refine Keeps.recordAll ?_ ?_ ?_ ?_); (on_goal 4 => exact id); (on_goal 3 => (first | with_reducible rfl | exact List.length_map .. | exact mapIf_length .. | exact setAt_length ..)); (on_goal 2 => (first | with_reducible rfl | exact List.length_map .. | exact mapIf_length .. | exact setAt_length ..)))

theorem keeps_coreWork {s0 : State} (s : State) (h0 : Keeps s0 s) : Keeps s0 (coreWork s) := by
  unfold coreWork
  repeat' first
    | with_reducible assumption
    | with_reducible apply keeps_leaveOff
    | with_reducible apply keeps_resumeCommands
    | with_reducible apply Keeps.ite
    | with_reducible apply Keeps.foldl
    | fail_if_no_progress with_reducible apply Keeps.record
    | with_reducible intro _ _ _
    | with_reducible intro _ _
    | with_reducible intro _
    | split
    | dsimp only

theorem keeps_coreUp {s0 : State} (s : State) (h0 : Keeps s0 s) : Keeps s0 (coreUp s) := by
  unfold coreUp
  repeat' first
    | with_reducible assumption
    | with_reducible apply keeps_coreWork
    | with_reducible apply keeps_grantCredits
    | with_reducible apply Keeps.ite
    | with_reducible apply Keeps.foldl
    | fail_if_no_progress with_reducible apply Keeps.record
    | with_reducible intro _ _ _
    | with_reducible intro _ _
    | with_reducible intro _
    | split
    | dsimp only

theorem keeps_ifiDown {s0 : State} (s : State) (h0 : Keeps s0 s) : Keeps s0 (ifiDown s) := by
  unfold ifiDown
  repeat' first
    | with_reducible assumption
    | with_reducible apply Keeps.ite
    | with_reducible apply Keeps.foldl
    | fail_if_no_progress with_reducible apply Keeps.record
    | with_reducible intro _ _ _
    | with_reducible intro _ _
    | with_reducible intro _
    | split
    | dsimp only

theorem keeps_abortCommands {s0 : State} (s : State) (h0 : Keeps s0 s) : Keeps s0 (abortCommands s) := by
  unfold abortCommands
  repeat' first
    | with_reducible assumption
    | with_reducible apply keeps_modRing
    | with_reducible apply keeps_cfgAborted
    | with_reducible apply keeps_countRefusal
    | with_reducible apply keeps_ringAnswer
    | with_reducible apply Keeps.ite
    | with_reducible apply Keeps.foldl
    | with_reducible apply KeepsQ.mk
    | with_reducible apply KeepsQ.ite
    | fail_if_no_progress with_reducible apply Keeps.record
    | with_reducible intro _ _ _
    | with_reducible intro _ _
    | with_reducible intro _
    | split
    | dsimp only
    | with_reducible apply KeepsQ.proj

theorem keeps_halt {s0 : State} (s : State) (h0 : Keeps s0 s) : Keeps s0 (halt s) := by
  unfold halt
  repeat' first
    | with_reducible assumption
    | with_reducible apply keeps_abortCommands
    | with_reducible apply keeps_emptied
    | with_reducible apply Keeps.ite
    | with_reducible apply Keeps.foldl
    | fail_if_no_progress with_reducible apply Keeps.record
    | with_reducible intro _ _ _
    | with_reducible intro _ _
    | with_reducible intro _
    | split
    | dsimp only

theorem keeps_modHeld {s0 : State} (s : State) (f : ResetsHeld → ResetsHeld) (h0 : Keeps s0 s) :
    Keeps s0 (State.modHeld s f) := by
  unfold State.modHeld
  repeat' first
    | with_reducible assumption
    | with_reducible apply Keeps.ite
    | with_reducible apply Keeps.foldl
    | fail_if_no_progress with_reducible apply Keeps.record
    | with_reducible intro _ _ _
    | with_reducible intro _ _
    | with_reducible intro _
    | split
    | dsimp only

theorem keeps_assertPorst {s0 : State} (s : State) (h0 : Keeps s0 s) : Keeps s0 (assertPorst s) := by
  unfold assertPorst
  repeat' first
    | with_reducible assumption
    | with_reducible apply keeps_modHeld
    | with_reducible apply keeps_emptied
    | with_reducible apply Keeps.ite
    | with_reducible apply Keeps.foldl
    | fail_if_no_progress with_reducible apply Keeps.record
    | with_reducible intro _ _ _
    | with_reducible intro _ _
    | with_reducible intro _
    | split
    | dsimp only

theorem keeps_assertWrst {s0 : State} (s : State) (h0 : Keeps s0 s) : Keeps s0 (assertWrst s) := by
  unfold assertWrst
  repeat' first
    | with_reducible assumption
    | with_reducible apply keeps_modHeld
    | with_reducible apply keeps_halt
    | with_reducible apply Keeps.ite
    | with_reducible apply Keeps.foldl
    | fail_if_no_progress with_reducible apply Keeps.record
    | with_reducible intro _ _ _
    | with_reducible intro _ _
    | with_reducible intro _
    | split
    | dsimp only

theorem keeps_assertDrst {s0 : State} (s : State) (h0 : Keeps s0 s) : Keeps s0 (assertDrst s) := by
  unfold assertDrst
  repeat' first
    | with_reducible assumption
    | with_reducible apply keeps_modHeld
    | with_reducible apply keeps_halt
    | with_reducible apply Keeps.ite
    | with_reducible apply Keeps.foldl
    | fail_if_no_progress with_reducible apply Keeps.record
    | with_reducible intro _ _ _
    | with_reducible intro _ _
    | with_reducible intro _
    | split
    | dsimp only

theorem keeps_execResetInputAssert {s0 : State} (input : ResetInput) (s : State) (h0 : Keeps s0 s) :
    KeepsO s0 (execResetInputAssert input s) := by
  unfold execResetInputAssert
  repeat' first
    | with_reducible assumption
    | with_reducible apply keeps_assertDrst
    | with_reducible apply keeps_assertPorst
    | with_reducible apply keeps_assertWrst
    | with_reducible apply Keeps.ite
    | with_reducible apply Keeps.foldl
    | with_reducible apply KeepsO.next
    | with_reducible apply KeepsO.fault
    | with_reducible apply KeepsO.ite
    | fail_if_no_progress with_reducible apply Keeps.record
    | with_reducible intro _ _ _
    | with_reducible intro _ _
    | with_reducible intro _
    | split
    | dsimp only

theorem keeps_coldSteps {s0 : State} (s : State) (h0 : Keeps s0 s) : Keeps s0 (coldSteps s) := by
  unfold coldSteps
  repeat' first
    | with_reducible assumption
    | with_reducible apply keeps_service
    | with_reducible apply keeps_aliasScan
    | with_reducible apply Keeps.ite
    | with_reducible apply Keeps.foldl
    | fail_if_no_progress with_reducible apply Keeps.record
    | with_reducible intro _ _ _
    | with_reducible intro _ _
    | with_reducible intro _
    | split
    | dsimp only

theorem keeps_performReset {s0 : State} (s : State) (lvl cause : Nat) (h0 : Keeps s0 s) :
    Keeps s0 (performReset s lvl cause) := by
  unfold performReset
  repeat' first
    | with_reducible assumption
    | with_reducible apply keeps_modHeld
    | with_reducible apply keeps_put
    | with_reducible apply keeps_clearC
    | with_reducible apply keeps_clearEntries
    | with_reducible apply keeps_clearW
    | with_reducible apply keeps_coldSteps
    | with_reducible apply keeps_coreUp
    | with_reducible apply keeps_emptied
    | with_reducible apply Keeps.ite
    | with_reducible apply Keeps.foldl
    | fail_if_no_progress with_reducible apply Keeps.record
    | with_reducible intro _ _ _
    | with_reducible intro _ _
    | with_reducible intro _
    | split
    | dsimp only

theorem keeps_releaseReset {s0 : State} (s : State) (h0 : Keeps s0 s) : Keeps s0 (releaseReset s) := by
  unfold releaseReset
  repeat' first
    | with_reducible assumption
    | with_reducible apply keeps_bump
    | with_reducible apply keeps_performReset
    | with_reducible apply Keeps.ite
    | with_reducible apply Keeps.foldl
    | fail_if_no_progress with_reducible apply Keeps.record
    | with_reducible intro _ _ _
    | with_reducible intro _ _
    | with_reducible intro _
    | split
    | dsimp only

theorem keeps_execColdReset {s0 : State} (dieId : Die) (role : BitVec 3) (pos : BitVec 6) (s : State) (h0 : Keeps s0 s) :
    KeepsO s0 (execColdReset dieId role pos s) := by
  unfold execColdReset
  repeat' first
    | with_reducible assumption
    | with_reducible apply keeps_modHeld
    | with_reducible apply keeps_assertPorst
    | with_reducible apply keeps_releaseReset
    | with_reducible apply Keeps.ite
    | with_reducible apply Keeps.foldl
    | with_reducible apply KeepsO.next
    | with_reducible apply KeepsO.fault
    | with_reducible apply KeepsO.ite
    | fail_if_no_progress with_reducible apply Keeps.record
    | with_reducible intro _ _ _
    | with_reducible intro _ _
    | with_reducible intro _
    | split
    | dsimp only

theorem keeps_execWarmReset {s0 : State} (s : State) (h0 : Keeps s0 s) : KeepsO s0 (execWarmReset s) := by
  unfold execWarmReset
  repeat' first
    | with_reducible assumption
    | with_reducible apply keeps_modHeld
    | with_reducible apply keeps_assertWrst
    | with_reducible apply keeps_releaseReset
    | with_reducible apply Keeps.ite
    | with_reducible apply Keeps.foldl
    | with_reducible apply KeepsO.next
    | with_reducible apply KeepsO.fault
    | with_reducible apply KeepsO.ite
    | fail_if_no_progress with_reducible apply Keeps.record
    | with_reducible intro _ _ _
    | with_reducible intro _ _
    | with_reducible intro _
    | split
    | dsimp only

theorem keeps_execDieReset {s0 : State} (s : State) (h0 : Keeps s0 s) : KeepsO s0 (execDieReset s) := by
  unfold execDieReset
  repeat' first
    | with_reducible assumption
    | with_reducible apply keeps_modHeld
    | with_reducible apply keeps_assertDrst
    | with_reducible apply keeps_releaseReset
    | with_reducible apply Keeps.ite
    | with_reducible apply Keeps.foldl
    | with_reducible apply KeepsO.next
    | with_reducible apply KeepsO.fault
    | with_reducible apply KeepsO.ite
    | fail_if_no_progress with_reducible apply Keeps.record
    | with_reducible intro _ _ _
    | with_reducible intro _ _
    | with_reducible intro _
    | split
    | dsimp only

theorem keeps_cfgAtLoss {s0 : State} (s : State) (h0 : Keeps s0 s) : Keeps s0 (cfgAtLoss s) := by
  unfold cfgAtLoss
  repeat' first
    | with_reducible assumption
    | with_reducible apply keeps_modCfg
    | with_reducible apply Keeps.ite
    | with_reducible apply Keeps.foldl
    | with_reducible apply KeepsQ.mk
    | with_reducible apply KeepsQ.ite
    | fail_if_no_progress with_reducible apply Keeps.record
    | with_reducible intro _ _ _
    | with_reducible intro _ _
    | with_reducible intro _
    | split
    | dsimp only
    | ((with_reducible refine Keeps.recordAll ?_ ?_ ?_ ?_); (on_goal 4 => exact id); (on_goal 3 => (first | with_reducible rfl | exact List.length_map .. | exact mapIf_length .. | exact setAt_length ..)); (on_goal 2 => (first | with_reducible rfl | exact List.length_map .. | exact mapIf_length .. | exact setAt_length ..)))
    | with_reducible apply KeepsQ.proj

theorem keeps_execReferenceLoss {s0 : State} (s : State) (h0 : Keeps s0 s) : KeepsO s0 (execReferenceLoss s) := by
  unfold execReferenceLoss
  repeat' first
    | with_reducible assumption
    | with_reducible apply keeps_modHeld
    | with_reducible apply keeps_cfgAtLoss
    | with_reducible apply keeps_halt
    | with_reducible apply Keeps.ite
    | with_reducible apply Keeps.foldl
    | with_reducible apply KeepsO.next
    | with_reducible apply KeepsO.fault
    | with_reducible apply KeepsO.ite
    | fail_if_no_progress with_reducible apply Keeps.record
    | with_reducible intro _ _ _
    | with_reducible intro _ _
    | with_reducible intro _
    | split
    | dsimp only

theorem keeps_refclkReturns {s0 : State} (s : State) (h0 : Keeps s0 s) : Keeps s0 (refclkReturns s) := by
  unfold refclkReturns
  repeat' first
    | with_reducible assumption
    | with_reducible apply keeps_bump
    | with_reducible apply keeps_modHeld
    | with_reducible apply keeps_put
    | with_reducible apply keeps_performReset
    | with_reducible apply keeps_releaseReset
    | with_reducible apply Keeps.ite
    | with_reducible apply Keeps.foldl
    | fail_if_no_progress with_reducible apply Keeps.record
    | with_reducible intro _ _ _
    | with_reducible intro _ _
    | with_reducible intro _
    | split
    | dsimp only

theorem keeps_execRefclkReturn {s0 : State} (s : State) (h0 : Keeps s0 s) : KeepsO s0 (execRefclkReturn s) := by
  unfold execRefclkReturn
  repeat' first
    | with_reducible assumption
    | with_reducible apply keeps_refclkReturns
    | with_reducible apply Keeps.ite
    | with_reducible apply Keeps.foldl
    | with_reducible apply KeepsO.next
    | with_reducible apply KeepsO.fault
    | with_reducible apply KeepsO.ite
    | fail_if_no_progress with_reducible apply Keeps.record
    | with_reducible intro _ _ _
    | with_reducible intro _ _
    | with_reducible intro _
    | split
    | dsimp only

theorem keeps_execVddCoreLoss {s0 : State} (s : State) (h0 : Keeps s0 s) : KeepsO s0 (execVddCoreLoss s) := by
  unfold execVddCoreLoss
  repeat' first
    | with_reducible assumption
    | with_reducible apply keeps_modHeld
    | with_reducible apply keeps_halt
    | with_reducible apply Keeps.ite
    | with_reducible apply Keeps.foldl
    | with_reducible apply KeepsO.next
    | with_reducible apply KeepsO.fault
    | with_reducible apply KeepsO.ite
    | fail_if_no_progress with_reducible apply Keeps.record
    | with_reducible intro _ _ _
    | with_reducible intro _ _
    | with_reducible intro _
    | split
    | dsimp only

theorem keeps_vddReturns {s0 : State} (s : State) (h0 : Keeps s0 s) : Keeps s0 (vddReturns s) := by
  unfold vddReturns
  repeat' first
    | with_reducible assumption
    | with_reducible apply keeps_bump
    | with_reducible apply keeps_modHeld
    | with_reducible apply keeps_performReset
    | with_reducible apply keeps_releaseReset
    | with_reducible apply Keeps.ite
    | with_reducible apply Keeps.foldl
    | fail_if_no_progress with_reducible apply Keeps.record
    | with_reducible intro _ _ _
    | with_reducible intro _ _
    | with_reducible intro _
    | split
    | dsimp only

theorem keeps_execVddCoreReturn {s0 : State} (s : State) (h0 : Keeps s0 s) : KeepsO s0 (execVddCoreReturn s) := by
  unfold execVddCoreReturn
  repeat' first
    | with_reducible assumption
    | with_reducible apply keeps_vddReturns
    | with_reducible apply Keeps.ite
    | with_reducible apply Keeps.foldl
    | with_reducible apply KeepsO.next
    | with_reducible apply KeepsO.fault
    | with_reducible apply KeepsO.ite
    | fail_if_no_progress with_reducible apply Keeps.record
    | with_reducible intro _ _ _
    | with_reducible intro _ _
    | with_reducible intro _
    | split
    | dsimp only

theorem keeps_execVddAonLoss {s0 : State} (s : State) (h0 : Keeps s0 s) : KeepsO s0 (execVddAonLoss s) := by
  unfold execVddAonLoss
  extract_lets u w v
  have hu : Keeps s0 u := keeps_modHeld _ _ h0
  have hv : Keeps s0 v := Keeps.record (keeps_emptied _ (Keeps.record hu))
  exact KeepsO.next (Keeps.recordAll hv (List.length_map ..) rfl id)

theorem keeps_supplyOff {s0 : State} (s : State) (q : Nat) (h0 : Keeps s0 s) : Keeps s0 (supplyOff s q) := by
  unfold supplyOff
  repeat' first
    | with_reducible assumption
    | with_reducible apply keeps_modPort
    | with_reducible apply keeps_enterOff
    | with_reducible apply Keeps.ite
    | with_reducible apply Keeps.foldl
    | fail_if_no_progress with_reducible apply Keeps.record
    | with_reducible intro _ _ _
    | with_reducible intro _ _
    | with_reducible intro _
    | split
    | dsimp only

theorem keeps_execPortSupplyOff {s0 : State} (q : PortId) (s : State) (h0 : Keeps s0 s) :
    KeepsO s0 (execPortSupplyOff q s) := by
  unfold execPortSupplyOff
  repeat' first
    | with_reducible assumption
    | with_reducible apply keeps_onPort
    | with_reducible apply keeps_supplyOff
    | with_reducible apply Keeps.ite
    | with_reducible apply Keeps.foldl
    | with_reducible apply KeepsO.next
    | with_reducible apply KeepsO.fault
    | with_reducible apply KeepsO.ite
    | with_reducible apply keeps_onPort
    | fail_if_no_progress with_reducible apply Keeps.record
    | with_reducible intro _ _ _
    | with_reducible intro _ _
    | with_reducible intro _
    | split
    | dsimp only

theorem keeps_execPortSupplyOn {s0 : State} (q : PortId) (s : State) (h0 : Keeps s0 s) :
    KeepsO s0 (execPortSupplyOn q s) := by
  unfold execPortSupplyOn
  repeat' first
    | with_reducible assumption
    | with_reducible apply keeps_modPort
    | with_reducible apply keeps_leaveOff
    | with_reducible apply keeps_onPort
    | with_reducible apply Keeps.ite
    | with_reducible apply Keeps.foldl
    | with_reducible apply KeepsO.next
    | with_reducible apply KeepsO.fault
    | with_reducible apply KeepsO.ite
    | with_reducible apply keeps_onPort
    | fail_if_no_progress with_reducible apply Keeps.record
    | with_reducible intro _ _ _
    | with_reducible intro _ _
    | with_reducible intro _
    | split
    | dsimp only

theorem keeps_coreLocks {s0 : State} (s : State) (h0 : Keeps s0 s) : Keeps s0 (coreLocks s) := by
  unfold coreLocks
  repeat' first
    | with_reducible assumption
    | with_reducible apply keeps_put
    | with_reducible apply keeps_coreUp
    | with_reducible apply Keeps.ite
    | with_reducible apply Keeps.foldl
    | fail_if_no_progress with_reducible apply Keeps.record
    | with_reducible intro _ _ _
    | with_reducible intro _ _
    | with_reducible intro _
    | split
    | dsimp only

theorem keeps_execCorePllLock {s0 : State} (s : State) (h0 : Keeps s0 s) : KeepsO s0 (execCorePllLock s) := by
  unfold execCorePllLock
  repeat' first
    | with_reducible assumption
    | with_reducible apply keeps_coreLocks
    | with_reducible apply Keeps.ite
    | with_reducible apply Keeps.foldl
    | with_reducible apply KeepsO.next
    | with_reducible apply KeepsO.fault
    | with_reducible apply KeepsO.ite
    | fail_if_no_progress with_reducible apply Keeps.record
    | with_reducible intro _ _ _
    | with_reducible intro _ _
    | with_reducible intro _
    | split
    | dsimp only

theorem keeps_execCoreStop {s0 : State} (s : State) (h0 : Keeps s0 s) : KeepsO s0 (execCoreStop s) := by
  unfold execCoreStop
  repeat' first
    | with_reducible assumption
    | with_reducible apply keeps_bump
    | with_reducible apply keeps_ifiDown
    | with_reducible apply Keeps.ite
    | with_reducible apply Keeps.foldl
    | with_reducible apply KeepsO.next
    | with_reducible apply KeepsO.fault
    | with_reducible apply KeepsO.ite
    | fail_if_no_progress with_reducible apply Keeps.record
    | with_reducible intro _ _ _
    | with_reducible intro _ _
    | with_reducible intro _
    | split
    | dsimp only

end Sys2Proof.Machine
end

