-- ==== Sys2Proof/Laws/KeepsTapUnit.lean ====
section
/-!
SUPPORT. The functions of Machine/TapUnit.lean keep what every command keeps.
-/

namespace Sys2Proof.Machine
open Sys2Proof

set_option linter.all false

theorem keeps_modTap {s0 : State} (s : State) (f : Tap → Tap) (h0 : Keeps s0 s) : Keeps s0 (State.modTap s f) := by
  unfold State.modTap
  repeat' first
    | with_reducible assumption | fail_if_no_progress with_reducible apply Keeps.record | split | dsimp only

theorem keeps_holdPort {s0 : State} (s : State) (q : Nat) (h0 : Keeps s0 s) : Keeps s0 (holdPort s q) := by
  unfold holdPort
  repeat' first
    | with_reducible assumption | with_reducible apply keeps_modPort | with_reducible apply keeps_enterOff
    | with_reducible apply keeps_leaveOff | with_reducible apply Keeps.ite | split | dsimp only

theorem keeps_setInstr {s0 : State} (s : State) (code : BitVec 8) (mask : BitVec 16) (h0 : Keeps s0 s) :
    Keeps s0 (setInstr s code mask) := by
  unfold setInstr
  repeat' first
    | with_reducible assumption | with_reducible apply keeps_modTap | with_reducible apply keeps_holdPort
    | with_reducible apply Keeps.foldl | with_reducible intro _ _ _ | with_reducible intro _ _
    | with_reducible intro _ | split | dsimp only

theorem keeps_execExtest {s0 : State} (drive capture : List Bool) (s : State) (h0 : Keeps s0 s) :
    KeepsO s0 (execExtest drive capture s) := by
  unfold execExtest
  repeat' first
    | with_reducible assumption | with_reducible apply keeps_emit | with_reducible apply keeps_modTap
    | with_reducible apply keeps_setInstr | with_reducible apply KeepsO.next | split | dsimp only

theorem keeps_execIdcode {s0 : State} (s : State) (h0 : Keeps s0 s) : KeepsO s0 (execIdcode s) := by
  unfold execIdcode
  repeat' first
    | with_reducible assumption | with_reducible apply keeps_setInstr | with_reducible apply KeepsO.next | split
    | dsimp only

theorem keeps_execSamplePreload {s0 : State} (preload capture : List Bool) (s : State) (h0 : Keeps s0 s) :
    KeepsO s0 (execSamplePreload preload capture s) := by
  unfold execSamplePreload
  repeat' first
    | with_reducible assumption | with_reducible apply keeps_modTap | with_reducible apply keeps_setInstr
    | with_reducible apply KeepsO.next | split | dsimp only

theorem keeps_startIxtest {s0 : State} (s : State) (control : BitVec 16) (h0 : Keeps s0 s) :
    Keeps s0 (startIxtest s control) := by
  unfold startIxtest
  repeat' first
    | with_reducible assumption | with_reducible apply keeps_modTap | with_reducible apply keeps_setInstr | split
    | dsimp only

theorem keeps_execIxtest {s0 : State} (control : BitVec 16) (s : State) (h0 : Keeps s0 s) :
    KeepsO s0 (execIxtest control s) := by
  unfold execIxtest
  repeat' first
    | with_reducible assumption | with_reducible apply keeps_startIxtest | with_reducible apply KeepsO.next | split
    | dsimp only

theorem keeps_storeWire {s0 : State} (ws : List WireObs) (s : State) (w : WireObs) (h0 : Keeps s0 s) :
    Keeps s0 (storeWire ws s w) := by
  unfold storeWire
  repeat' first
    | with_reducible assumption | with_reducible apply keeps_modBundle | split | dsimp only

theorem keeps_storeLane {s0 : State} (s : State) (l : LaneObs) (h0 : Keeps s0 s) : Keeps s0 (storeLane s l) := by
  unfold storeLane
  repeat' first
    | with_reducible assumption | with_reducible apply keeps_modLane | split | dsimp only

theorem keeps_endIxtest {s0 : State} (s : State) (wires : List WireObs) (lanes : List LaneObs) (h0 : Keeps s0 s) :
    Keeps s0 (endIxtest s wires lanes) := by
  unfold endIxtest
  repeat' first
    | with_reducible assumption | with_reducible apply keeps_modTap | with_reducible apply keeps_storeLane
    | with_reducible apply keeps_storeWire | with_reducible apply Keeps.ite | with_reducible apply Keeps.foldl
    | with_reducible intro _ _ _ | with_reducible intro _ _ | with_reducible intro _ | split | dsimp only

theorem keeps_execIxtestDone {s0 : State} (wires : List WireObs) (lanes : List LaneObs) (s : State) (h0 : Keeps s0 s) :
    KeepsO s0 (execIxtestDone wires lanes s) := by
  unfold execIxtestDone
  repeat' first
    | with_reducible assumption | with_reducible apply keeps_endIxtest | with_reducible apply KeepsO.next | split
    | dsimp only

theorem keeps_coreForTest {s0 : State} (s : State) (h0 : Keeps s0 s) : Keeps s0 (coreForTest s) := by
  unfold coreForTest
  repeat' first
    | with_reducible assumption | with_reducible apply Keeps.ite
    | fail_if_no_progress with_reducible apply Keeps.record | split | dsimp only

theorem keeps_execMbist {s0 : State} (select : BitVec 8) (s : State) (h0 : Keeps s0 s) :
    KeepsO s0 (execMbist select s) := by
  unfold execMbist
  repeat' first
    | with_reducible assumption | with_reducible apply keeps_modTap | with_reducible apply keeps_setInstr
    | with_reducible apply keeps_coreForTest | with_reducible apply KeepsO.next | with_reducible apply Keeps.ite | split
    | dsimp only

theorem keeps_endMbist {s0 : State} (s : State) (failing : List (BitVec 8)) (h0 : Keeps s0 s) :
    Keeps s0 (endMbist s failing) := by
  unfold endMbist
  repeat' first
    | with_reducible assumption | with_reducible apply keeps_modTap | with_reducible apply Keeps.ite | split
    | dsimp only

theorem keeps_execMbistDone {s0 : State} (failing : List (BitVec 8)) (s : State) (h0 : Keeps s0 s) :
    KeepsO s0 (execMbistDone failing s) := by
  unfold execMbistDone
  repeat' first
    | with_reducible assumption | with_reducible apply keeps_endMbist | with_reducible apply KeepsO.next | split
    | dsimp only

theorem keeps_execTeststat {s0 : State} (s : State) (h0 : Keeps s0 s) : KeepsO s0 (execTeststat s) := by
  unfold execTeststat
  repeat' first
    | with_reducible assumption | with_reducible apply keeps_setInstr | with_reducible apply KeepsO.next | split
    | dsimp only

theorem keeps_execStackcfg {s0 : State} (secen : Bool) (s : State) (h0 : Keeps s0 s) :
    KeepsO s0 (execStackcfg secen s) := by
  unfold execStackcfg
  repeat' first
    | with_reducible assumption | with_reducible apply keeps_modTap | with_reducible apply keeps_setInstr
    | with_reducible apply KeepsO.next | split | dsimp only

theorem keeps_execBypass {s0 : State} (_code : BitVec 8) (s : State) (h0 : Keeps s0 s) :
    KeepsO s0 (execBypass _code s) := by
  unfold execBypass
  repeat' first
    | with_reducible assumption | with_reducible apply keeps_setInstr | with_reducible apply KeepsO.next | split
    | dsimp only

theorem keeps_execTestLogicReset {s0 : State} (s : State) (h0 : Keeps s0 s) : KeepsO s0 (execTestLogicReset s) := by
  unfold execTestLogicReset
  repeat' first
    | with_reducible assumption | with_reducible apply keeps_modTap | with_reducible apply keeps_setInstr
    | with_reducible apply KeepsO.next | split | dsimp only

end Sys2Proof.Machine
end

