-- ==== Sys2Proof/Laws/KeepsTenancy.lean ====
section
/-!
SUPPORT. The functions of Machine/Tenancy.lean keep what every command keeps.
-/

namespace Sys2Proof.Machine
open Sys2Proof

set_option linter.all false

theorem keeps_setTen {s0 : State} (s : State) (t : Ten) (st : Nat) (h0 : Keeps s0 s) : Keeps s0 (setTen s t st) := by
  unfold setTen
  repeat' first
    | with_reducible assumption | fail_if_no_progress with_reducible apply Keeps.record | split | dsimp only

theorem keeps_ignoreEvent {s0 : State} (s : State) (h0 : Keeps s0 s) : Keeps s0 (ignoreEvent s) := by
  unfold ignoreEvent
  repeat' first
    | with_reducible assumption | with_reducible apply keeps_bump | split | dsimp only

theorem keeps_parkOne {s0 : State} (s : State) (ch : IngCh) (w : Waiting) (h0 : Keeps s0 s) :
    Keeps s0 (parkOne s ch w) := by
  unfold parkOne
  repeat' first
    | with_reducible assumption | with_reducible apply keeps_bump | with_reducible apply keeps_answerSource
    | with_reducible apply Keeps.ite | fail_if_no_progress with_reducible apply Keeps.record | split | dsimp only

theorem keeps_parkReqs {s0 : State} (s : State) (rs : List LineReq) (h0 : Keeps s0 s) : Keeps s0 (parkReqs s rs) := by
  unfold parkReqs
  repeat' first
    | with_reducible assumption | with_reducible apply keeps_parkOne | with_reducible apply Keeps.foldl
    | with_reducible intro _ _ _ | with_reducible intro _ _ | with_reducible intro _ | split | dsimp only

theorem keeps_parkMiss {s0 : State} (t : Ten) (s : State) (m : Miss) (h0 : Keeps s0 s) : Keeps s0 (parkMiss t s m) := by
  unfold parkMiss
  extract_lets out keep src u
  have hu : Keeps s0 u := by
    refine Keeps.ite ?_ (keeps_modMiss _ _ _ h0)
    refine Keeps.recordAll (keeps_delMiss s m.la h0) ?_ ?_ ?_
    · exact List.length_map ..
    · rfl
    · exact id
  exact Keeps.ite h0 (Keeps.ite h0 (keeps_parkReqs _ _ hu))

theorem keeps_parkVictim {s0 : State} (t : Ten) (s : State) (v : Victim) (h0 : Keeps s0 s) :
    Keeps s0 (parkVictim t s v) := by
  unfold parkVictim
  repeat' first
    | with_reducible assumption | with_reducible apply keeps_parkReqs
    | fail_if_no_progress with_reducible apply Keeps.record | split | dsimp only

theorem keeps_parkAll {s0 : State} (s : State) (t : Ten) (h0 : Keeps s0 s) : Keeps s0 (parkAll s t) := by
  unfold parkAll
  repeat' first
    | with_reducible assumption | with_reducible apply keeps_creditDie | with_reducible apply keeps_parkMiss
    | with_reducible apply keeps_parkOne | with_reducible apply keeps_parkVictim | with_reducible apply Keeps.foldl
    | fail_if_no_progress with_reducible apply Keeps.record | with_reducible intro _ _ _ | with_reducible intro _ _
    | with_reducible intro _ | split | dsimp only

theorem keeps_refuseSch {s0 : State} (s : State) (t : Ten) (h0 : Keeps s0 s) : Keeps s0 (refuseSch s t) := by
  unfold refuseSch
  repeat' first
    | with_reducible assumption | with_reducible apply keeps_unassign | with_reducible apply Keeps.foldl
    | with_reducible intro _ _ _ | with_reducible intro _ _ | with_reducible intro _ | split | dsimp only

theorem keeps_quiesceDone {s0 : State} (s : State) (t : Ten) (earg : Nat) (h0 : Keeps s0 s) :
    Keeps s0 (quiesceDone s t earg) := by
  unfold quiesceDone
  repeat' first
    | with_reducible assumption | with_reducible apply keeps_bump64 | with_reducible apply keeps_evt
    | with_reducible apply keeps_put | with_reducible apply Keeps.ite
    | fail_if_no_progress with_reducible apply Keeps.record | split | dsimp only

theorem keeps_readmitTen {s0 : State} (s : State) (t : Ten) (h0 : Keeps s0 s) : Keeps s0 (readmitTen s t) := by
  unfold readmitTen
  repeat' first
    | with_reducible assumption | with_reducible apply keeps_setTen
    | fail_if_no_progress with_reducible apply Keeps.record | split | dsimp only

theorem keeps_endDrain {s0 : State} (s : State) (d : Drain) (earg : Nat) (h0 : Keeps s0 s) :
    Keeps s0 (endDrain s d earg) := by
  unfold endDrain
  repeat' first
    | with_reducible assumption | with_reducible apply keeps_quiesceDone | with_reducible apply keeps_readmitTen
    | with_reducible apply keeps_setTen | with_reducible apply Keeps.ite
    | fail_if_no_progress with_reducible apply Keeps.record | split | dsimp only

theorem keeps_startDrain {s0 : State} (s : State) (t : Ten) (h0 : Keeps s0 s) : Keeps s0 (startDrain s t) := by
  unfold startDrain
  repeat' first
    | with_reducible assumption | with_reducible apply keeps_bump | with_reducible apply keeps_parkAll
    | with_reducible apply keeps_quiesceSems | with_reducible apply keeps_refuseSch
    | with_reducible apply keeps_setTen | fail_if_no_progress with_reducible apply Keeps.record | split | dsimp only

theorem keeps_execQuiesce {s0 : State} (ten : Ten) (s : State) (h0 : Keeps s0 s) : KeepsO s0 (execQuiesce ten s) := by
  unfold execQuiesce
  repeat' first
    | with_reducible assumption | with_reducible apply keeps_ignoreEvent | with_reducible apply keeps_quiesceDone
    | with_reducible apply keeps_startDrain | with_reducible apply keeps_takeEvt | with_reducible apply Keeps.ite
    | with_reducible apply KeepsO.next | with_reducible apply KeepsO.ite | split | dsimp only

theorem keeps_execReadmit {s0 : State} (ten : Ten) (s : State) (h0 : Keeps s0 s) : KeepsO s0 (execReadmit ten s) := by
  unfold execReadmit
  repeat' first
    | with_reducible assumption | with_reducible apply keeps_ignoreEvent | with_reducible apply keeps_readmitTen
    | with_reducible apply keeps_takeEvt | with_reducible apply Keeps.ite | with_reducible apply KeepsO.next
    | with_reducible apply KeepsO.ite | fail_if_no_progress with_reducible apply Keeps.record | split | dsimp only

theorem keeps_execDrainEnd {s0 : State} (ten : Ten) (s : State) (h0 : Keeps s0 s) : KeepsO s0 (execDrainEnd ten s) := by
  unfold execDrainEnd
  repeat' first
    | with_reducible assumption | with_reducible apply keeps_endDrain | with_reducible apply Keeps.ite
    | with_reducible apply KeepsO.next | split | dsimp only

theorem keeps_execDrainBound {s0 : State} (ten : Ten) (s : State) (h0 : Keeps s0 s) :
    KeepsO s0 (execDrainBound ten s) := by
  unfold execDrainBound
  repeat' first
    | with_reducible assumption | with_reducible apply keeps_bump | with_reducible apply keeps_irq
    | with_reducible apply keeps_endDrain | with_reducible apply Keeps.ite | with_reducible apply KeepsO.next | split
    | dsimp only

end Sys2Proof.Machine
end

