-- ==== Sys2Proof/Laws/KeepsTick.lean ====
section
/-!
SUPPORT. The functions of Machine/Tick.lean keep what every command keeps.
-/

namespace Sys2Proof.Machine
open Sys2Proof

set_option linter.all false

theorem keeps_ageVcs {s0 : State} (s : State) (q : Nat) (cs : List Cand) (h0 : Keeps s0 s) :
    Keeps s0 (ageVcs s q cs) := by
  unfold ageVcs
  repeat' first
    | with_reducible assumption | with_reducible apply keeps_modPort | split | dsimp only

theorem keeps_tickPort {s0 : State} (s : State) (q : Nat) (h0 : Keeps s0 s) : Keeps s0 (tickPort s q) := by
  unfold tickPort
  extract_lets cs adds p wait a b c d e
  have ha : Keeps s0 a := Keeps.ite (keeps_ageVcs _ _ _ h0) h0
  have hb : Keeps s0 b := keeps_modPort _ _ _ ha
  have hc : Keeps s0 c := Keeps.ite (keeps_pbump64 _ _ _ _ _ hb) hb
  have hd : Keeps s0 d := Keeps.ite (keeps_bump64 _ _ _ _ hc) hc
  have he : Keeps s0 e := Keeps.ite (keeps_pbump64 _ _ _ _ _ hd) hd
  exact Keeps.ite h0 (keeps_tickPhy _ _ (Keeps.ite (keeps_bump64 _ _ _ _ he) he))

theorem keeps_refillBuckets {s0 : State} (s : State) (h0 : Keeps s0 s) : Keeps s0 (refillBuckets s) := by
  unfold refillBuckets
  repeat' first
    | with_reducible assumption | fail_if_no_progress with_reducible apply Keeps.record | split | dsimp only

theorem keeps_tickCore {s0 : State} (s : State) (h0 : Keeps s0 s) : Keeps s0 (tickCore s) := by
  unfold tickCore
  repeat' first
    | with_reducible assumption | with_reducible apply keeps_bump64 | with_reducible apply keeps_evalEvents
    | with_reducible apply keeps_payTempo | with_reducible apply keeps_refillBuckets
    | with_reducible apply keeps_tickPort | with_reducible apply Keeps.ite | with_reducible apply Keeps.foldl
    | fail_if_no_progress with_reducible apply Keeps.record | with_reducible intro _ _ _ | with_reducible intro _ _
    | with_reducible intro _ | split | dsimp only

theorem keeps_tickAon {s0 : State} (s : State) (n : Nat) (h0 : Keeps s0 s) : Keeps s0 (tickAon s n) := by
  unfold tickAon
  repeat' first
    | with_reducible assumption | with_reducible apply keeps_bump64 | with_reducible apply keeps_modPort
    | with_reducible apply Keeps.ite | with_reducible apply Keeps.foldl | with_reducible intro _ _ _
    | with_reducible intro _ _ | with_reducible intro _ | split | dsimp only

theorem keeps_presentEvt {s0 : State} (s : State) (h0 : Keeps s0 s) : Keeps s0 (presentEvt s) := by
  unfold presentEvt
  repeat' first
    | with_reducible assumption | with_reducible apply keeps_emit | with_reducible apply keeps_tev
    | with_reducible apply Keeps.ite | fail_if_no_progress with_reducible apply Keeps.record | split | dsimp only

theorem keeps_sendRing {s0 : State} (s : State) (h0 : Keeps s0 s) : Keeps s0 (sendRing s) := by
  unfold sendRing
  repeat' first
    | with_reducible assumption | with_reducible apply keeps_emit | with_reducible apply keeps_modRing
    | with_reducible apply Keeps.ite | split | dsimp only

theorem keeps_pulseAcks {s0 : State} (s : State) (h0 : Keeps s0 s) : Keeps s0 (pulseAcks s) := by
  unfold pulseAcks
  repeat' first
    | with_reducible assumption | with_reducible apply keeps_emit | with_reducible apply keeps_modCfg
    | with_reducible apply Keeps.ite | split | dsimp only

theorem keeps_tick {s0 : State} (s : State) (h0 : Keeps s0 s) : Keeps s0 (tick s) := by
  unfold tick
  repeat' first
    | with_reducible assumption | with_reducible apply keeps_presentEvt | with_reducible apply keeps_pulseAcks
    | with_reducible apply keeps_sendRing | with_reducible apply keeps_tickAon | with_reducible apply keeps_tickCore
    | with_reducible apply Keeps.ite | fail_if_no_progress with_reducible apply Keeps.record | split | dsimp only

end Sys2Proof.Machine
end

