-- ==== Sys2Proof/Laws/KeepsTwin.lean ====
section
/-!
SUPPORT. The functions of Machine/Twin.lean keep what every command keeps.
-/

namespace Sys2Proof.Machine
open Sys2Proof

set_option linter.all false

theorem keeps_onPair {s0 : State} (s : State) (k : Nat) (t : State) (h : Keeps s0 s) (h' : Keeps s0 t) :
    KeepsO s0 (onPair s k t) :=
  KeepsO.ite (KeepsO.next (Keeps.ite h' h)) (KeepsO.fault _)

theorem keeps_applyTcredit {s0 : State} (k l : Nat) (s : State) (x : Nat × Nat) (h0 : Keeps s0 s) :
    Keeps s0 (applyTcredit k l s x) := by
  unfold applyTcredit
  repeat' first
    | with_reducible assumption | with_reducible apply keeps_bump | with_reducible apply keeps_applyReturn
    | with_reducible apply Keeps.ite | split | dsimp only

theorem keeps_takeTcredit {s0 : State} (s : State) (l : Nat) (h0 : Keeps s0 s) : Keeps s0 (takeTcredit s l) := by
  unfold takeTcredit
  repeat' first
    | with_reducible assumption | with_reducible apply keeps_pbump | with_reducible apply keeps_applyTcredit
    | with_reducible apply keeps_dropCtrl | with_reducible apply Keeps.foldl | with_reducible intro _ _ _
    | with_reducible intro _ _ | with_reducible intro _ | split | dsimp only

theorem keeps_execTcredit {s0 : State} (q : PortId) (s : State) (h0 : Keeps s0 s) : KeepsO s0 (execTcredit q s) := by
  unfold execTcredit
  repeat' first
    | with_reducible assumption | with_reducible apply keeps_onPort | with_reducible apply keeps_takeTcredit
    | with_reducible apply keeps_onPort | split | dsimp only

theorem keeps_takeOut {s0 : State} (s : State) (u : Nat) (h0 : Keeps s0 s) : Keeps s0 (takeOut s u) := by
  unfold takeOut
  repeat' first
    | with_reducible assumption | with_reducible apply keeps_requestFull | with_reducible apply keeps_unitLeaves
    | with_reducible apply Keeps.ite | split | dsimp only

theorem keeps_takeTout {s0 : State} (s : State) (l : Nat) (h0 : Keeps s0 s) : Keeps s0 (takeTout s l) := by
  unfold takeTout
  repeat' first
    | with_reducible assumption | with_reducible apply keeps_pbump | with_reducible apply keeps_dropCtrl
    | with_reducible apply keeps_takeOut | with_reducible apply Keeps.ite | split | dsimp only

theorem keeps_execTout {s0 : State} (q : PortId) (s : State) (h0 : Keeps s0 s) : KeepsO s0 (execTout q s) := by
  unfold execTout
  repeat' first
    | with_reducible assumption | with_reducible apply keeps_onPort | with_reducible apply keeps_takeTout
    | with_reducible apply keeps_onPort | split | dsimp only

theorem keeps_outNotice {s0 : State} (s : State) (k : Nat) (unitB : Bool) (h0 : Keeps s0 s) :
    Keeps s0 (outNotice s k unitB) := by
  unfold outNotice
  repeat' first
    | with_reducible assumption | with_reducible apply keeps_service | with_reducible apply Keeps.ite | split
    | dsimp only

theorem keeps_execTwinOutNotice {s0 : State} (k : PairId) (unitB : Bool) (s : State) (h0 : Keeps s0 s) :
    KeepsO s0 (execTwinOutNotice k unitB s) := by
  unfold execTwinOutNotice
  repeat' first
    | with_reducible assumption | with_reducible apply keeps_onPair | with_reducible apply keeps_outNotice | split
    | dsimp only

theorem keeps_copyDone {s0 : State} (s : State) (k : Nat) (unitB aligned : Bool) (h0 : Keeps s0 s) :
    Keeps s0 (copyDone s k unitB aligned) := by
  unfold copyDone
  repeat' first
    | with_reducible assumption | with_reducible apply keeps_modPair | with_reducible apply keeps_leavePair
    | with_reducible apply keeps_twinRecord | with_reducible apply Keeps.ite | split | dsimp only

theorem keeps_execBulkCopyDone {s0 : State} (k : PairId) (unitB aligned : Bool) (s : State) (h0 : Keeps s0 s) :
    KeepsO s0 (execBulkCopyDone k unitB aligned s) := by
  unfold execBulkCopyDone
  repeat' first
    | with_reducible assumption | with_reducible apply keeps_copyDone | with_reducible apply keeps_onPair | split
    | dsimp only

theorem keeps_joinPair {s0 : State} (s : State) (k : Nat) (unitB : Bool) (h0 : Keeps s0 s) :
    Keeps s0 (joinPair s k unitB) := by
  unfold joinPair
  repeat' first
    | with_reducible assumption | with_reducible apply keeps_bump | with_reducible apply keeps_modPair
    | with_reducible apply keeps_setRole | with_reducible apply Keeps.ite | split | dsimp only

theorem keeps_execTwinJoin {s0 : State} (k : PairId) (unitB : Bool) (s : State) (h0 : Keeps s0 s) :
    KeepsO s0 (execTwinJoin k unitB s) := by
  unfold execTwinJoin
  repeat' first
    | with_reducible assumption | with_reducible apply keeps_joinPair | with_reducible apply keeps_onPair | split
    | dsimp only

theorem keeps_windowEnds {s0 : State} (s : State) (k : Nat) (h0 : Keeps s0 s) : Keeps s0 (windowEnds s k) := by
  unfold windowEnds
  repeat' first
    | with_reducible assumption | with_reducible apply keeps_modPair | with_reducible apply keeps_modPort
    | with_reducible apply Keeps.ite | split | dsimp only

theorem keeps_execDualActionEnd {s0 : State} (k : PairId) (s : State) (h0 : Keeps s0 s) :
    KeepsO s0 (execDualActionEnd k s) := by
  unfold execDualActionEnd
  repeat' first
    | with_reducible assumption | with_reducible apply keeps_onPair | with_reducible apply keeps_windowEnds | split
    | dsimp only

end Sys2Proof.Machine
end

