-- ==== Sys2Proof/Laws/State.lean ====
section
/-!
SUPPORT. What each named update of the state leaves alone: one lemma per field and update.
-/

namespace Sys2Proof.Machine
open Sys2Proof

variable (s : State)

/-! ### `State.put` changes `alm` only -/

@[simp] theorem State.put_elab (i j d v : Nat) : (s.put i j d v).elab_ = s.elab_ := rfl
@[simp] theorem State.put_fuses (i j d v : Nat) : (s.put i j d v).fuses = s.fuses := rfl
@[simp] theorem State.put_tabs (i j d v : Nat) : (s.put i j d v).tabs = s.tabs := rfl
@[simp] theorem State.put_counts (i j d v : Nat) : (s.put i j d v).counts = s.counts := rfl
@[simp] theorem State.put_now (i j d v : Nat) : (s.put i j d v).now = s.now := rfl
@[simp] theorem State.put_strapDie (i j d v : Nat) : (s.put i j d v).strapDie = s.strapDie := rfl
@[simp] theorem State.put_strapRole (i j d v : Nat) : (s.put i j d v).strapRole = s.strapRole := rfl
@[simp] theorem State.put_strapPos (i j d v : Nat) : (s.put i j d v).strapPos = s.strapPos := rfl
@[simp] theorem State.put_die (i j d v : Nat) : (s.put i j d v).die = s.die := rfl
@[simp] theorem State.put_role (i j d v : Nat) : (s.put i j d v).role = s.role := rfl
@[simp] theorem State.put_held (i j d v : Nat) : (s.put i j d v).held = s.held := rfl
@[simp] theorem State.put_core (i j d v : Nat) : (s.put i j d v).core = s.core := rfl
@[simp] theorem State.put_coreAt (i j d v : Nat) : (s.put i j d v).coreAt = s.coreAt := rfl
@[simp] theorem State.put_resetAt (i j d v : Nat) : (s.put i j d v).resetAt = s.resetAt := rfl
@[simp] theorem State.put_ifiReady (i j d v : Nat) : (s.put i j d v).ifiReady = s.ifiReady := rfl
@[simp] theorem State.put_ifiWake (i j d v : Nat) : (s.put i j d v).ifiWake = s.ifiWake := rfl
@[simp] theorem State.put_ingress (i j d v : Nat) : (s.put i j d v).ingress = s.ingress := rfl
@[simp] theorem State.put_egress (i j d v : Nat) : (s.put i j d v).egress = s.egress := rfl
@[simp] theorem State.put_icr (i j d v : Nat) : (s.put i j d v).icr = s.icr := rfl
@[simp] theorem State.put_ecr (i j d v : Nat) : (s.put i j d v).ecr = s.ecr := rfl
@[simp] theorem State.put_evtOut (i j d v : Nat) : (s.put i j d v).evtOut = s.evtOut := rfl
@[simp] theorem State.put_evtCr (i j d v : Nat) : (s.put i j d v).evtCr = s.evtCr := rfl
@[simp] theorem State.put_evtIcr (i j d v : Nat) : (s.put i j d v).evtIcr = s.evtIcr := rfl
@[simp] theorem State.put_irqs (i j d v : Nat) : (s.put i j d v).irqs = s.irqs := rfl
@[simp] theorem State.put_rr (i j d v : Nat) : (s.put i j d v).rr = s.rr := rfl
@[simp] theorem State.put_cfg (i j d v : Nat) : (s.put i j d v).cfg = s.cfg := rfl
@[simp] theorem State.put_xfers (i j d v : Nat) : (s.put i j d v).xfers = s.xfers := rfl
@[simp] theorem State.put_sup (i j d v : Nat) : (s.put i j d v).sup = s.sup := rfl
@[simp] theorem State.put_ring (i j d v : Nat) : (s.put i j d v).ring = s.ring := rfl
@[simp] theorem State.put_svc (i j d v : Nat) : (s.put i j d v).svc = s.svc := rfl
@[simp] theorem State.put_therm (i j d v : Nat) : (s.put i j d v).therm = s.therm := rfl
@[simp] theorem State.put_sch (i j d v : Nat) : (s.put i j d v).sch = s.sch := rfl
@[simp] theorem State.put_sems (i j d v : Nat) : (s.put i j d v).sems = s.sems := rfl
@[simp] theorem State.put_ownQ (i j d v : Nat) : (s.put i j d v).ownQ = s.ownQ := rfl
@[simp] theorem State.put_localTags (i j d v : Nat) : (s.put i j d v).localTags = s.localTags := rfl
@[simp] theorem State.put_ord (i j d v : Nat) : (s.put i j d v).ord = s.ord := rfl
@[simp] theorem State.put_inbOut (i j d v : Nat) : (s.put i j d v).inbOut = s.inbOut := rfl
@[simp] theorem State.put_seqNo (i j d v : Nat) : (s.put i j d v).seqNo = s.seqNo := rfl
@[simp] theorem State.put_rlc (i j d v : Nat) : (s.put i j d v).rlc = s.rlc := rfl
@[simp] theorem State.put_home (i j d v : Nat) : (s.put i j d v).home = s.home := rfl
@[simp] theorem State.put_ifr (i j d v : Nat) : (s.put i j d v).ifr = s.ifr := rfl
@[simp] theorem State.put_ten (i j d v : Nat) : (s.put i j d v).ten = s.ten := rfl
@[simp] theorem State.put_twins (i j d v : Nat) : (s.put i j d v).twins = s.twins := rfl
@[simp] theorem State.put_fw (i j d v : Nat) : (s.put i j d v).fw = s.fw := rfl
@[simp] theorem State.put_repair (i j d v : Nat) : (s.put i j d v).repair = s.repair := rfl
@[simp] theorem State.put_tap (i j d v : Nat) : (s.put i j d v).tap = s.tap := rfl
@[simp] theorem State.put_trace (i j d v : Nat) : (s.put i j d v).trace = s.trace := rfl
@[simp] theorem State.put_ports (i j d v : Nat) : (s.put i j d v).ports = s.ports := rfl
@[simp] theorem State.put_out (i j d v : Nat) : (s.put i j d v).out = s.out := rfl
@[simp] theorem State.put_pending (i j d v : Nat) : (s.put i j d v).pending = s.pending := rfl

/-! ### `State.bump` changes `alm` only -/

@[simp] theorem State.bump_elab (i j n : Nat) : (s.bump i j n).elab_ = s.elab_ := rfl
@[simp] theorem State.bump_fuses (i j n : Nat) : (s.bump i j n).fuses = s.fuses := rfl
@[simp] theorem State.bump_tabs (i j n : Nat) : (s.bump i j n).tabs = s.tabs := rfl
@[simp] theorem State.bump_counts (i j n : Nat) : (s.bump i j n).counts = s.counts := rfl
@[simp] theorem State.bump_now (i j n : Nat) : (s.bump i j n).now = s.now := rfl
@[simp] theorem State.bump_strapDie (i j n : Nat) : (s.bump i j n).strapDie = s.strapDie := rfl
@[simp] theorem State.bump_strapRole (i j n : Nat) : (s.bump i j n).strapRole = s.strapRole := rfl
@[simp] theorem State.bump_strapPos (i j n : Nat) : (s.bump i j n).strapPos = s.strapPos := rfl
@[simp] theorem State.bump_die (i j n : Nat) : (s.bump i j n).die = s.die := rfl
@[simp] theorem State.bump_role (i j n : Nat) : (s.bump i j n).role = s.role := rfl
@[simp] theorem State.bump_held (i j n : Nat) : (s.bump i j n).held = s.held := rfl
@[simp] theorem State.bump_core (i j n : Nat) : (s.bump i j n).core = s.core := rfl
@[simp] theorem State.bump_coreAt (i j n : Nat) : (s.bump i j n).coreAt = s.coreAt := rfl
@[simp] theorem State.bump_resetAt (i j n : Nat) : (s.bump i j n).resetAt = s.resetAt := rfl
@[simp] theorem State.bump_ifiReady (i j n : Nat) : (s.bump i j n).ifiReady = s.ifiReady := rfl
@[simp] theorem State.bump_ifiWake (i j n : Nat) : (s.bump i j n).ifiWake = s.ifiWake := rfl
@[simp] theorem State.bump_ingress (i j n : Nat) : (s.bump i j n).ingress = s.ingress := rfl
@[simp] theorem State.bump_egress (i j n : Nat) : (s.bump i j n).egress = s.egress := rfl
@[simp] theorem State.bump_icr (i j n : Nat) : (s.bump i j n).icr = s.icr := rfl
@[simp] theorem State.bump_ecr (i j n : Nat) : (s.bump i j n).ecr = s.ecr := rfl
@[simp] theorem State.bump_evtOut (i j n : Nat) : (s.bump i j n).evtOut = s.evtOut := rfl
@[simp] theorem State.bump_evtCr (i j n : Nat) : (s.bump i j n).evtCr = s.evtCr := rfl
@[simp] theorem State.bump_evtIcr (i j n : Nat) : (s.bump i j n).evtIcr = s.evtIcr := rfl
@[simp] theorem State.bump_irqs (i j n : Nat) : (s.bump i j n).irqs = s.irqs := rfl
@[simp] theorem State.bump_rr (i j n : Nat) : (s.bump i j n).rr = s.rr := rfl
@[simp] theorem State.bump_cfg (i j n : Nat) : (s.bump i j n).cfg = s.cfg := rfl
@[simp] theorem State.bump_xfers (i j n : Nat) : (s.bump i j n).xfers = s.xfers := rfl
@[simp] theorem State.bump_sup (i j n : Nat) : (s.bump i j n).sup = s.sup := rfl
@[simp] theorem State.bump_ring (i j n : Nat) : (s.bump i j n).ring = s.ring := rfl
@[simp] theorem State.bump_svc (i j n : Nat) : (s.bump i j n).svc = s.svc := rfl
@[simp] theorem State.bump_therm (i j n : Nat) : (s.bump i j n).therm = s.therm := rfl
@[simp] theorem State.bump_sch (i j n : Nat) : (s.bump i j n).sch = s.sch := rfl
@[simp] theorem State.bump_sems (i j n : Nat) : (s.bump i j n).sems = s.sems := rfl
@[simp] theorem State.bump_ownQ (i j n : Nat) : (s.bump i j n).ownQ = s.ownQ := rfl
@[simp] theorem State.bump_localTags (i j n : Nat) : (s.bump i j n).localTags = s.localTags := rfl
@[simp] theorem State.bump_ord (i j n : Nat) : (s.bump i j n).ord = s.ord := rfl
@[simp] theorem State.bump_inbOut (i j n : Nat) : (s.bump i j n).inbOut = s.inbOut := rfl
@[simp] theorem State.bump_seqNo (i j n : Nat) : (s.bump i j n).seqNo = s.seqNo := rfl
@[simp] theorem State.bump_rlc (i j n : Nat) : (s.bump i j n).rlc = s.rlc := rfl
@[simp] theorem State.bump_home (i j n : Nat) : (s.bump i j n).home = s.home := rfl
@[simp] theorem State.bump_ifr (i j n : Nat) : (s.bump i j n).ifr = s.ifr := rfl
@[simp] theorem State.bump_ten (i j n : Nat) : (s.bump i j n).ten = s.ten := rfl
@[simp] theorem State.bump_twins (i j n : Nat) : (s.bump i j n).twins = s.twins := rfl
@[simp] theorem State.bump_fw (i j n : Nat) : (s.bump i j n).fw = s.fw := rfl
@[simp] theorem State.bump_repair (i j n : Nat) : (s.bump i j n).repair = s.repair := rfl
@[simp] theorem State.bump_tap (i j n : Nat) : (s.bump i j n).tap = s.tap := rfl
@[simp] theorem State.bump_trace (i j n : Nat) : (s.bump i j n).trace = s.trace := rfl
@[simp] theorem State.bump_ports (i j n : Nat) : (s.bump i j n).ports = s.ports := rfl
@[simp] theorem State.bump_out (i j n : Nat) : (s.bump i j n).out = s.out := rfl
@[simp] theorem State.bump_pending (i j n : Nat) : (s.bump i j n).pending = s.pending := rfl

/-! ### `State.bump64` changes `alm` only -/

@[simp] theorem State.bump64_elab (i j n : Nat) : (s.bump64 i j n).elab_ = s.elab_ := rfl
@[simp] theorem State.bump64_fuses (i j n : Nat) : (s.bump64 i j n).fuses = s.fuses := rfl
@[simp] theorem State.bump64_tabs (i j n : Nat) : (s.bump64 i j n).tabs = s.tabs := rfl
@[simp] theorem State.bump64_counts (i j n : Nat) : (s.bump64 i j n).counts = s.counts := rfl
@[simp] theorem State.bump64_now (i j n : Nat) : (s.bump64 i j n).now = s.now := rfl
@[simp] theorem State.bump64_strapDie (i j n : Nat) : (s.bump64 i j n).strapDie = s.strapDie := rfl
@[simp] theorem State.bump64_strapRole (i j n : Nat) : (s.bump64 i j n).strapRole = s.strapRole := rfl
@[simp] theorem State.bump64_strapPos (i j n : Nat) : (s.bump64 i j n).strapPos = s.strapPos := rfl
@[simp] theorem State.bump64_die (i j n : Nat) : (s.bump64 i j n).die = s.die := rfl
@[simp] theorem State.bump64_role (i j n : Nat) : (s.bump64 i j n).role = s.role := rfl
@[simp] theorem State.bump64_held (i j n : Nat) : (s.bump64 i j n).held = s.held := rfl
@[simp] theorem State.bump64_core (i j n : Nat) : (s.bump64 i j n).core = s.core := rfl
@[simp] theorem State.bump64_coreAt (i j n : Nat) : (s.bump64 i j n).coreAt = s.coreAt := rfl
@[simp] theorem State.bump64_resetAt (i j n : Nat) : (s.bump64 i j n).resetAt = s.resetAt := rfl
@[simp] theorem State.bump64_ifiReady (i j n : Nat) : (s.bump64 i j n).ifiReady = s.ifiReady := rfl
@[simp] theorem State.bump64_ifiWake (i j n : Nat) : (s.bump64 i j n).ifiWake = s.ifiWake := rfl
@[simp] theorem State.bump64_ingress (i j n : Nat) : (s.bump64 i j n).ingress = s.ingress := rfl
@[simp] theorem State.bump64_egress (i j n : Nat) : (s.bump64 i j n).egress = s.egress := rfl
@[simp] theorem State.bump64_icr (i j n : Nat) : (s.bump64 i j n).icr = s.icr := rfl
@[simp] theorem State.bump64_ecr (i j n : Nat) : (s.bump64 i j n).ecr = s.ecr := rfl
@[simp] theorem State.bump64_evtOut (i j n : Nat) : (s.bump64 i j n).evtOut = s.evtOut := rfl
@[simp] theorem State.bump64_evtCr (i j n : Nat) : (s.bump64 i j n).evtCr = s.evtCr := rfl
@[simp] theorem State.bump64_evtIcr (i j n : Nat) : (s.bump64 i j n).evtIcr = s.evtIcr := rfl
@[simp] theorem State.bump64_irqs (i j n : Nat) : (s.bump64 i j n).irqs = s.irqs := rfl
@[simp] theorem State.bump64_rr (i j n : Nat) : (s.bump64 i j n).rr = s.rr := rfl
@[simp] theorem State.bump64_cfg (i j n : Nat) : (s.bump64 i j n).cfg = s.cfg := rfl
@[simp] theorem State.bump64_xfers (i j n : Nat) : (s.bump64 i j n).xfers = s.xfers := rfl
@[simp] theorem State.bump64_sup (i j n : Nat) : (s.bump64 i j n).sup = s.sup := rfl
@[simp] theorem State.bump64_ring (i j n : Nat) : (s.bump64 i j n).ring = s.ring := rfl
@[simp] theorem State.bump64_svc (i j n : Nat) : (s.bump64 i j n).svc = s.svc := rfl
@[simp] theorem State.bump64_therm (i j n : Nat) : (s.bump64 i j n).therm = s.therm := rfl
@[simp] theorem State.bump64_sch (i j n : Nat) : (s.bump64 i j n).sch = s.sch := rfl
@[simp] theorem State.bump64_sems (i j n : Nat) : (s.bump64 i j n).sems = s.sems := rfl
@[simp] theorem State.bump64_ownQ (i j n : Nat) : (s.bump64 i j n).ownQ = s.ownQ := rfl
@[simp] theorem State.bump64_localTags (i j n : Nat) : (s.bump64 i j n).localTags = s.localTags := rfl
@[simp] theorem State.bump64_ord (i j n : Nat) : (s.bump64 i j n).ord = s.ord := rfl
@[simp] theorem State.bump64_inbOut (i j n : Nat) : (s.bump64 i j n).inbOut = s.inbOut := rfl
@[simp] theorem State.bump64_seqNo (i j n : Nat) : (s.bump64 i j n).seqNo = s.seqNo := rfl
@[simp] theorem State.bump64_rlc (i j n : Nat) : (s.bump64 i j n).rlc = s.rlc := rfl
@[simp] theorem State.bump64_home (i j n : Nat) : (s.bump64 i j n).home = s.home := rfl
@[simp] theorem State.bump64_ifr (i j n : Nat) : (s.bump64 i j n).ifr = s.ifr := rfl
@[simp] theorem State.bump64_ten (i j n : Nat) : (s.bump64 i j n).ten = s.ten := rfl
@[simp] theorem State.bump64_twins (i j n : Nat) : (s.bump64 i j n).twins = s.twins := rfl
@[simp] theorem State.bump64_fw (i j n : Nat) : (s.bump64 i j n).fw = s.fw := rfl
@[simp] theorem State.bump64_repair (i j n : Nat) : (s.bump64 i j n).repair = s.repair := rfl
@[simp] theorem State.bump64_tap (i j n : Nat) : (s.bump64 i j n).tap = s.tap := rfl
@[simp] theorem State.bump64_trace (i j n : Nat) : (s.bump64 i j n).trace = s.trace := rfl
@[simp] theorem State.bump64_ports (i j n : Nat) : (s.bump64 i j n).ports = s.ports := rfl
@[simp] theorem State.bump64_out (i j n : Nat) : (s.bump64 i j n).out = s.out := rfl
@[simp] theorem State.bump64_pending (i j n : Nat) : (s.bump64 i j n).pending = s.pending := rfl

/-! ### `State.bumpCount` changes `counts` only -/

@[simp] theorem State.bumpCount_elab (k n : Nat) : (s.bumpCount k n).elab_ = s.elab_ := rfl
@[simp] theorem State.bumpCount_fuses (k n : Nat) : (s.bumpCount k n).fuses = s.fuses := rfl
@[simp] theorem State.bumpCount_alm (k n : Nat) : (s.bumpCount k n).alm = s.alm := rfl
@[simp] theorem State.bumpCount_tabs (k n : Nat) : (s.bumpCount k n).tabs = s.tabs := rfl
@[simp] theorem State.bumpCount_now (k n : Nat) : (s.bumpCount k n).now = s.now := rfl
@[simp] theorem State.bumpCount_strapDie (k n : Nat) : (s.bumpCount k n).strapDie = s.strapDie := rfl
@[simp] theorem State.bumpCount_strapRole (k n : Nat) : (s.bumpCount k n).strapRole = s.strapRole := rfl
@[simp] theorem State.bumpCount_strapPos (k n : Nat) : (s.bumpCount k n).strapPos = s.strapPos := rfl
@[simp] theorem State.bumpCount_die (k n : Nat) : (s.bumpCount k n).die = s.die := rfl
@[simp] theorem State.bumpCount_role (k n : Nat) : (s.bumpCount k n).role = s.role := rfl
@[simp] theorem State.bumpCount_held (k n : Nat) : (s.bumpCount k n).held = s.held := rfl
@[simp] theorem State.bumpCount_core (k n : Nat) : (s.bumpCount k n).core = s.core := rfl
@[simp] theorem State.bumpCount_coreAt (k n : Nat) : (s.bumpCount k n).coreAt = s.coreAt := rfl
@[simp] theorem State.bumpCount_resetAt (k n : Nat) : (s.bumpCount k n).resetAt = s.resetAt := rfl
@[simp] theorem State.bumpCount_ifiReady (k n : Nat) : (s.bumpCount k n).ifiReady = s.ifiReady := rfl
@[simp] theorem State.bumpCount_ifiWake (k n : Nat) : (s.bumpCount k n).ifiWake = s.ifiWake := rfl
@[simp] theorem State.bumpCount_ingress (k n : Nat) : (s.bumpCount k n).ingress = s.ingress := rfl
@[simp] theorem State.bumpCount_egress (k n : Nat) : (s.bumpCount k n).egress = s.egress := rfl
@[simp] theorem State.bumpCount_icr (k n : Nat) : (s.bumpCount k n).icr = s.icr := rfl
@[simp] theorem State.bumpCount_ecr (k n : Nat) : (s.bumpCount k n).ecr = s.ecr := rfl
@[simp] theorem State.bumpCount_evtOut (k n : Nat) : (s.bumpCount k n).evtOut = s.evtOut := rfl
@[simp] theorem State.bumpCount_evtCr (k n : Nat) : (s.bumpCount k n).evtCr = s.evtCr := rfl
@[simp] theorem State.bumpCount_evtIcr (k n : Nat) : (s.bumpCount k n).evtIcr = s.evtIcr := rfl
@[simp] theorem State.bumpCount_irqs (k n : Nat) : (s.bumpCount k n).irqs = s.irqs := rfl
@[simp] theorem State.bumpCount_rr (k n : Nat) : (s.bumpCount k n).rr = s.rr := rfl
@[simp] theorem State.bumpCount_cfg (k n : Nat) : (s.bumpCount k n).cfg = s.cfg := rfl
@[simp] theorem State.bumpCount_xfers (k n : Nat) : (s.bumpCount k n).xfers = s.xfers := rfl
@[simp] theorem State.bumpCount_sup (k n : Nat) : (s.bumpCount k n).sup = s.sup := rfl
@[simp] theorem State.bumpCount_ring (k n : Nat) : (s.bumpCount k n).ring = s.ring := rfl
@[simp] theorem State.bumpCount_svc (k n : Nat) : (s.bumpCount k n).svc = s.svc := rfl
@[simp] theorem State.bumpCount_therm (k n : Nat) : (s.bumpCount k n).therm = s.therm := rfl
@[simp] theorem State.bumpCount_sch (k n : Nat) : (s.bumpCount k n).sch = s.sch := rfl
@[simp] theorem State.bumpCount_sems (k n : Nat) : (s.bumpCount k n).sems = s.sems := rfl
@[simp] theorem State.bumpCount_ownQ (k n : Nat) : (s.bumpCount k n).ownQ = s.ownQ := rfl
@[simp] theorem State.bumpCount_localTags (k n : Nat) : (s.bumpCount k n).localTags = s.localTags := rfl
@[simp] theorem State.bumpCount_ord (k n : Nat) : (s.bumpCount k n).ord = s.ord := rfl
@[simp] theorem State.bumpCount_inbOut (k n : Nat) : (s.bumpCount k n).inbOut = s.inbOut := rfl
@[simp] theorem State.bumpCount_seqNo (k n : Nat) : (s.bumpCount k n).seqNo = s.seqNo := rfl
@[simp] theorem State.bumpCount_rlc (k n : Nat) : (s.bumpCount k n).rlc = s.rlc := rfl
@[simp] theorem State.bumpCount_home (k n : Nat) : (s.bumpCount k n).home = s.home := rfl
@[simp] theorem State.bumpCount_ifr (k n : Nat) : (s.bumpCount k n).ifr = s.ifr := rfl
@[simp] theorem State.bumpCount_ten (k n : Nat) : (s.bumpCount k n).ten = s.ten := rfl
@[simp] theorem State.bumpCount_twins (k n : Nat) : (s.bumpCount k n).twins = s.twins := rfl
@[simp] theorem State.bumpCount_fw (k n : Nat) : (s.bumpCount k n).fw = s.fw := rfl
@[simp] theorem State.bumpCount_repair (k n : Nat) : (s.bumpCount k n).repair = s.repair := rfl
@[simp] theorem State.bumpCount_tap (k n : Nat) : (s.bumpCount k n).tap = s.tap := rfl
@[simp] theorem State.bumpCount_trace (k n : Nat) : (s.bumpCount k n).trace = s.trace := rfl
@[simp] theorem State.bumpCount_ports (k n : Nat) : (s.bumpCount k n).ports = s.ports := rfl
@[simp] theorem State.bumpCount_out (k n : Nat) : (s.bumpCount k n).out = s.out := rfl
@[simp] theorem State.bumpCount_pending (k n : Nat) : (s.bumpCount k n).pending = s.pending := rfl

/-! ### `State.emit` changes `out` only -/

@[simp] theorem State.emit_elab (o : Output) : (s.emit o).elab_ = s.elab_ := rfl
@[simp] theorem State.emit_fuses (o : Output) : (s.emit o).fuses = s.fuses := rfl
@[simp] theorem State.emit_alm (o : Output) : (s.emit o).alm = s.alm := rfl
@[simp] theorem State.emit_tabs (o : Output) : (s.emit o).tabs = s.tabs := rfl
@[simp] theorem State.emit_counts (o : Output) : (s.emit o).counts = s.counts := rfl
@[simp] theorem State.emit_now (o : Output) : (s.emit o).now = s.now := rfl
@[simp] theorem State.emit_strapDie (o : Output) : (s.emit o).strapDie = s.strapDie := rfl
@[simp] theorem State.emit_strapRole (o : Output) : (s.emit o).strapRole = s.strapRole := rfl
@[simp] theorem State.emit_strapPos (o : Output) : (s.emit o).strapPos = s.strapPos := rfl
@[simp] theorem State.emit_die (o : Output) : (s.emit o).die = s.die := rfl
@[simp] theorem State.emit_role (o : Output) : (s.emit o).role = s.role := rfl
@[simp] theorem State.emit_held (o : Output) : (s.emit o).held = s.held := rfl
@[simp] theorem State.emit_core (o : Output) : (s.emit o).core = s.core := rfl
@[simp] theorem State.emit_coreAt (o : Output) : (s.emit o).coreAt = s.coreAt := rfl
@[simp] theorem State.emit_resetAt (o : Output) : (s.emit o).resetAt = s.resetAt := rfl
@[simp] theorem State.emit_ifiReady (o : Output) : (s.emit o).ifiReady = s.ifiReady := rfl
@[simp] theorem State.emit_ifiWake (o : Output) : (s.emit o).ifiWake = s.ifiWake := rfl
@[simp] theorem State.emit_ingress (o : Output) : (s.emit o).ingress = s.ingress := rfl
@[simp] theorem State.emit_egress (o : Output) : (s.emit o).egress = s.egress := rfl
@[simp] theorem State.emit_icr (o : Output) : (s.emit o).icr = s.icr := rfl
@[simp] theorem State.emit_ecr (o : Output) : (s.emit o).ecr = s.ecr := rfl
@[simp] theorem State.emit_evtOut (o : Output) : (s.emit o).evtOut = s.evtOut := rfl
@[simp] theorem State.emit_evtCr (o : Output) : (s.emit o).evtCr = s.evtCr := rfl
@[simp] theorem State.emit_evtIcr (o : Output) : (s.emit o).evtIcr = s.evtIcr := rfl
@[simp] theorem State.emit_irqs (o : Output) : (s.emit o).irqs = s.irqs := rfl
@[simp] theorem State.emit_rr (o : Output) : (s.emit o).rr = s.rr := rfl
@[simp] theorem State.emit_cfg (o : Output) : (s.emit o).cfg = s.cfg := rfl
@[simp] theorem State.emit_xfers (o : Output) : (s.emit o).xfers = s.xfers := rfl
@[simp] theorem State.emit_sup (o : Output) : (s.emit o).sup = s.sup := rfl
@[simp] theorem State.emit_ring (o : Output) : (s.emit o).ring = s.ring := rfl
@[simp] theorem State.emit_svc (o : Output) : (s.emit o).svc = s.svc := rfl
@[simp] theorem State.emit_therm (o : Output) : (s.emit o).therm = s.therm := rfl
@[simp] theorem State.emit_sch (o : Output) : (s.emit o).sch = s.sch := rfl
@[simp] theorem State.emit_sems (o : Output) : (s.emit o).sems = s.sems := rfl
@[simp] theorem State.emit_ownQ (o : Output) : (s.emit o).ownQ = s.ownQ := rfl
@[simp] theorem State.emit_localTags (o : Output) : (s.emit o).localTags = s.localTags := rfl
@[simp] theorem State.emit_ord (o : Output) : (s.emit o).ord = s.ord := rfl
@[simp] theorem State.emit_inbOut (o : Output) : (s.emit o).inbOut = s.inbOut := rfl
@[simp] theorem State.emit_seqNo (o : Output) : (s.emit o).seqNo = s.seqNo := rfl
@[simp] theorem State.emit_rlc (o : Output) : (s.emit o).rlc = s.rlc := rfl
@[simp] theorem State.emit_home (o : Output) : (s.emit o).home = s.home := rfl
@[simp] theorem State.emit_ifr (o : Output) : (s.emit o).ifr = s.ifr := rfl
@[simp] theorem State.emit_ten (o : Output) : (s.emit o).ten = s.ten := rfl
@[simp] theorem State.emit_twins (o : Output) : (s.emit o).twins = s.twins := rfl
@[simp] theorem State.emit_fw (o : Output) : (s.emit o).fw = s.fw := rfl
@[simp] theorem State.emit_repair (o : Output) : (s.emit o).repair = s.repair := rfl
@[simp] theorem State.emit_tap (o : Output) : (s.emit o).tap = s.tap := rfl
@[simp] theorem State.emit_trace (o : Output) : (s.emit o).trace = s.trace := rfl
@[simp] theorem State.emit_ports (o : Output) : (s.emit o).ports = s.ports := rfl
@[simp] theorem State.emit_pending (o : Output) : (s.emit o).pending = s.pending := rfl

/-! ### `State.evt` changes `evtOut` only -/

@[simp] theorem State.evt_elab (c : BitVec 8) (t : Ten) (a : BitVec 32) : (s.evt c t a).elab_ = s.elab_ := rfl
@[simp] theorem State.evt_fuses (c : BitVec 8) (t : Ten) (a : BitVec 32) : (s.evt c t a).fuses = s.fuses := rfl
@[simp] theorem State.evt_alm (c : BitVec 8) (t : Ten) (a : BitVec 32) : (s.evt c t a).alm = s.alm := rfl
@[simp] theorem State.evt_tabs (c : BitVec 8) (t : Ten) (a : BitVec 32) : (s.evt c t a).tabs = s.tabs := rfl
@[simp] theorem State.evt_counts (c : BitVec 8) (t : Ten) (a : BitVec 32) : (s.evt c t a).counts = s.counts := rfl
@[simp] theorem State.evt_now (c : BitVec 8) (t : Ten) (a : BitVec 32) : (s.evt c t a).now = s.now := rfl
@[simp] theorem State.evt_strapDie (c : BitVec 8) (t : Ten) (a : BitVec 32) : (s.evt c t a).strapDie = s.strapDie := rfl
@[simp] theorem State.evt_strapRole (c : BitVec 8) (t : Ten) (a : BitVec 32) : (s.evt c t a).strapRole = s.strapRole := rfl
@[simp] theorem State.evt_strapPos (c : BitVec 8) (t : Ten) (a : BitVec 32) : (s.evt c t a).strapPos = s.strapPos := rfl
@[simp] theorem State.evt_die (c : BitVec 8) (t : Ten) (a : BitVec 32) : (s.evt c t a).die = s.die := rfl
@[simp] theorem State.evt_role (c : BitVec 8) (t : Ten) (a : BitVec 32) : (s.evt c t a).role = s.role := rfl
@[simp] theorem State.evt_held (c : BitVec 8) (t : Ten) (a : BitVec 32) : (s.evt c t a).held = s.held := rfl
@[simp] theorem State.evt_core (c : BitVec 8) (t : Ten) (a : BitVec 32) : (s.evt c t a).core = s.core := rfl
@[simp] theorem State.evt_coreAt (c : BitVec 8) (t : Ten) (a : BitVec 32) : (s.evt c t a).coreAt = s.coreAt := rfl
@[simp] theorem State.evt_resetAt (c : BitVec 8) (t : Ten) (a : BitVec 32) : (s.evt c t a).resetAt = s.resetAt := rfl
@[simp] theorem State.evt_ifiReady (c : BitVec 8) (t : Ten) (a : BitVec 32) : (s.evt c t a).ifiReady = s.ifiReady := rfl
@[simp] theorem State.evt_ifiWake (c : BitVec 8) (t : Ten) (a : BitVec 32) : (s.evt c t a).ifiWake = s.ifiWake := rfl
@[simp] theorem State.evt_ingress (c : BitVec 8) (t : Ten) (a : BitVec 32) : (s.evt c t a).ingress = s.ingress := rfl
@[simp] theorem State.evt_egress (c : BitVec 8) (t : Ten) (a : BitVec 32) : (s.evt c t a).egress = s.egress := rfl
@[simp] theorem State.evt_icr (c : BitVec 8) (t : Ten) (a : BitVec 32) : (s.evt c t a).icr = s.icr := rfl
@[simp] theorem State.evt_ecr (c : BitVec 8) (t : Ten) (a : BitVec 32) : (s.evt c t a).ecr = s.ecr := rfl
@[simp] theorem State.evt_evtCr (c : BitVec 8) (t : Ten) (a : BitVec 32) : (s.evt c t a).evtCr = s.evtCr := rfl
@[simp] theorem State.evt_evtIcr (c : BitVec 8) (t : Ten) (a : BitVec 32) : (s.evt c t a).evtIcr = s.evtIcr := rfl
@[simp] theorem State.evt_irqs (c : BitVec 8) (t : Ten) (a : BitVec 32) : (s.evt c t a).irqs = s.irqs := rfl
@[simp] theorem State.evt_rr (c : BitVec 8) (t : Ten) (a : BitVec 32) : (s.evt c t a).rr = s.rr := rfl
@[simp] theorem State.evt_cfg (c : BitVec 8) (t : Ten) (a : BitVec 32) : (s.evt c t a).cfg = s.cfg := rfl
@[simp] theorem State.evt_xfers (c : BitVec 8) (t : Ten) (a : BitVec 32) : (s.evt c t a).xfers = s.xfers := rfl
@[simp] theorem State.evt_sup (c : BitVec 8) (t : Ten) (a : BitVec 32) : (s.evt c t a).sup = s.sup := rfl
@[simp] theorem State.evt_ring (c : BitVec 8) (t : Ten) (a : BitVec 32) : (s.evt c t a).ring = s.ring := rfl
@[simp] theorem State.evt_svc (c : BitVec 8) (t : Ten) (a : BitVec 32) : (s.evt c t a).svc = s.svc := rfl
@[simp] theorem State.evt_therm (c : BitVec 8) (t : Ten) (a : BitVec 32) : (s.evt c t a).therm = s.therm := rfl
@[simp] theorem State.evt_sch (c : BitVec 8) (t : Ten) (a : BitVec 32) : (s.evt c t a).sch = s.sch := rfl
@[simp] theorem State.evt_sems (c : BitVec 8) (t : Ten) (a : BitVec 32) : (s.evt c t a).sems = s.sems := rfl
@[simp] theorem State.evt_ownQ (c : BitVec 8) (t : Ten) (a : BitVec 32) : (s.evt c t a).ownQ = s.ownQ := rfl
@[simp] theorem State.evt_localTags (c : BitVec 8) (t : Ten) (a : BitVec 32) : (s.evt c t a).localTags = s.localTags := rfl
@[simp] theorem State.evt_ord (c : BitVec 8) (t : Ten) (a : BitVec 32) : (s.evt c t a).ord = s.ord := rfl
@[simp] theorem State.evt_inbOut (c : BitVec 8) (t : Ten) (a : BitVec 32) : (s.evt c t a).inbOut = s.inbOut := rfl
@[simp] theorem State.evt_seqNo (c : BitVec 8) (t : Ten) (a : BitVec 32) : (s.evt c t a).seqNo = s.seqNo := rfl
@[simp] theorem State.evt_rlc (c : BitVec 8) (t : Ten) (a : BitVec 32) : (s.evt c t a).rlc = s.rlc := rfl
@[simp] theorem State.evt_home (c : BitVec 8) (t : Ten) (a : BitVec 32) : (s.evt c t a).home = s.home := rfl
@[simp] theorem State.evt_ifr (c : BitVec 8) (t : Ten) (a : BitVec 32) : (s.evt c t a).ifr = s.ifr := rfl
@[simp] theorem State.evt_ten (c : BitVec 8) (t : Ten) (a : BitVec 32) : (s.evt c t a).ten = s.ten := rfl
@[simp] theorem State.evt_twins (c : BitVec 8) (t : Ten) (a : BitVec 32) : (s.evt c t a).twins = s.twins := rfl
@[simp] theorem State.evt_fw (c : BitVec 8) (t : Ten) (a : BitVec 32) : (s.evt c t a).fw = s.fw := rfl
@[simp] theorem State.evt_repair (c : BitVec 8) (t : Ten) (a : BitVec 32) : (s.evt c t a).repair = s.repair := rfl
@[simp] theorem State.evt_tap (c : BitVec 8) (t : Ten) (a : BitVec 32) : (s.evt c t a).tap = s.tap := rfl
@[simp] theorem State.evt_trace (c : BitVec 8) (t : Ten) (a : BitVec 32) : (s.evt c t a).trace = s.trace := rfl
@[simp] theorem State.evt_ports (c : BitVec 8) (t : Ten) (a : BitVec 32) : (s.evt c t a).ports = s.ports := rfl
@[simp] theorem State.evt_out (c : BitVec 8) (t : Ten) (a : BitVec 32) : (s.evt c t a).out = s.out := rfl
@[simp] theorem State.evt_pending (c : BitVec 8) (t : Ten) (a : BitVec 32) : (s.evt c t a).pending = s.pending := rfl

/-! ### `State.setPort` changes `ports` only -/

@[simp] theorem State.setPort_elab (q : Nat) (p : Port) : (s.setPort q p).elab_ = s.elab_ := rfl
@[simp] theorem State.setPort_fuses (q : Nat) (p : Port) : (s.setPort q p).fuses = s.fuses := rfl
@[simp] theorem State.setPort_alm (q : Nat) (p : Port) : (s.setPort q p).alm = s.alm := rfl
@[simp] theorem State.setPort_tabs (q : Nat) (p : Port) : (s.setPort q p).tabs = s.tabs := rfl
@[simp] theorem State.setPort_counts (q : Nat) (p : Port) : (s.setPort q p).counts = s.counts := rfl
@[simp] theorem State.setPort_now (q : Nat) (p : Port) : (s.setPort q p).now = s.now := rfl
@[simp] theorem State.setPort_strapDie (q : Nat) (p : Port) : (s.setPort q p).strapDie = s.strapDie := rfl
@[simp] theorem State.setPort_strapRole (q : Nat) (p : Port) : (s.setPort q p).strapRole = s.strapRole := rfl
@[simp] theorem State.setPort_strapPos (q : Nat) (p : Port) : (s.setPort q p).strapPos = s.strapPos := rfl
@[simp] theorem State.setPort_die (q : Nat) (p : Port) : (s.setPort q p).die = s.die := rfl
@[simp] theorem State.setPort_role (q : Nat) (p : Port) : (s.setPort q p).role = s.role := rfl
@[simp] theorem State.setPort_held (q : Nat) (p : Port) : (s.setPort q p).held = s.held := rfl
@[simp] theorem State.setPort_core (q : Nat) (p : Port) : (s.setPort q p).core = s.core := rfl
@[simp] theorem State.setPort_coreAt (q : Nat) (p : Port) : (s.setPort q p).coreAt = s.coreAt := rfl
@[simp] theorem State.setPort_resetAt (q : Nat) (p : Port) : (s.setPort q p).resetAt = s.resetAt := rfl
@[simp] theorem State.setPort_ifiReady (q : Nat) (p : Port) : (s.setPort q p).ifiReady = s.ifiReady := rfl
@[simp] theorem State.setPort_ifiWake (q : Nat) (p : Port) : (s.setPort q p).ifiWake = s.ifiWake := rfl
@[simp] theorem State.setPort_ingress (q : Nat) (p : Port) : (s.setPort q p).ingress = s.ingress := rfl
@[simp] theorem State.setPort_egress (q : Nat) (p : Port) : (s.setPort q p).egress = s.egress := rfl
@[simp] theorem State.setPort_icr (q : Nat) (p : Port) : (s.setPort q p).icr = s.icr := rfl
@[simp] theorem State.setPort_ecr (q : Nat) (p : Port) : (s.setPort q p).ecr = s.ecr := rfl
@[simp] theorem State.setPort_evtOut (q : Nat) (p : Port) : (s.setPort q p).evtOut = s.evtOut := rfl
@[simp] theorem State.setPort_evtCr (q : Nat) (p : Port) : (s.setPort q p).evtCr = s.evtCr := rfl
@[simp] theorem State.setPort_evtIcr (q : Nat) (p : Port) : (s.setPort q p).evtIcr = s.evtIcr := rfl
@[simp] theorem State.setPort_irqs (q : Nat) (p : Port) : (s.setPort q p).irqs = s.irqs := rfl
@[simp] theorem State.setPort_rr (q : Nat) (p : Port) : (s.setPort q p).rr = s.rr := rfl
@[simp] theorem State.setPort_cfg (q : Nat) (p : Port) : (s.setPort q p).cfg = s.cfg := rfl
@[simp] theorem State.setPort_xfers (q : Nat) (p : Port) : (s.setPort q p).xfers = s.xfers := rfl
@[simp] theorem State.setPort_sup (q : Nat) (p : Port) : (s.setPort q p).sup = s.sup := rfl
@[simp] theorem State.setPort_ring (q : Nat) (p : Port) : (s.setPort q p).ring = s.ring := rfl
@[simp] theorem State.setPort_svc (q : Nat) (p : Port) : (s.setPort q p).svc = s.svc := rfl
@[simp] theorem State.setPort_therm (q : Nat) (p : Port) : (s.setPort q p).therm = s.therm := rfl
@[simp] theorem State.setPort_sch (q : Nat) (p : Port) : (s.setPort q p).sch = s.sch := rfl
@[simp] theorem State.setPort_sems (q : Nat) (p : Port) : (s.setPort q p).sems = s.sems := rfl
@[simp] theorem State.setPort_ownQ (q : Nat) (p : Port) : (s.setPort q p).ownQ = s.ownQ := rfl
@[simp] theorem State.setPort_localTags (q : Nat) (p : Port) : (s.setPort q p).localTags = s.localTags := rfl
@[simp] theorem State.setPort_ord (q : Nat) (p : Port) : (s.setPort q p).ord = s.ord := rfl
@[simp] theorem State.setPort_inbOut (q : Nat) (p : Port) : (s.setPort q p).inbOut = s.inbOut := rfl
@[simp] theorem State.setPort_seqNo (q : Nat) (p : Port) : (s.setPort q p).seqNo = s.seqNo := rfl
@[simp] theorem State.setPort_rlc (q : Nat) (p : Port) : (s.setPort q p).rlc = s.rlc := rfl
@[simp] theorem State.setPort_home (q : Nat) (p : Port) : (s.setPort q p).home = s.home := rfl
@[simp] theorem State.setPort_ifr (q : Nat) (p : Port) : (s.setPort q p).ifr = s.ifr := rfl
@[simp] theorem State.setPort_ten (q : Nat) (p : Port) : (s.setPort q p).ten = s.ten := rfl
@[simp] theorem State.setPort_twins (q : Nat) (p : Port) : (s.setPort q p).twins = s.twins := rfl
@[simp] theorem State.setPort_fw (q : Nat) (p : Port) : (s.setPort q p).fw = s.fw := rfl
@[simp] theorem State.setPort_repair (q : Nat) (p : Port) : (s.setPort q p).repair = s.repair := rfl
@[simp] theorem State.setPort_tap (q : Nat) (p : Port) : (s.setPort q p).tap = s.tap := rfl
@[simp] theorem State.setPort_trace (q : Nat) (p : Port) : (s.setPort q p).trace = s.trace := rfl
@[simp] theorem State.setPort_out (q : Nat) (p : Port) : (s.setPort q p).out = s.out := rfl
@[simp] theorem State.setPort_pending (q : Nat) (p : Port) : (s.setPort q p).pending = s.pending := rfl

/-! ### `State.modPort` changes `ports` only -/

@[simp] theorem State.modPort_elab (q : Nat) (f : Port → Port) : (s.modPort q f).elab_ = s.elab_ := rfl
@[simp] theorem State.modPort_fuses (q : Nat) (f : Port → Port) : (s.modPort q f).fuses = s.fuses := rfl
@[simp] theorem State.modPort_alm (q : Nat) (f : Port → Port) : (s.modPort q f).alm = s.alm := rfl
@[simp] theorem State.modPort_tabs (q : Nat) (f : Port → Port) : (s.modPort q f).tabs = s.tabs := rfl
@[simp] theorem State.modPort_counts (q : Nat) (f : Port → Port) : (s.modPort q f).counts = s.counts := rfl
@[simp] theorem State.modPort_now (q : Nat) (f : Port → Port) : (s.modPort q f).now = s.now := rfl
@[simp] theorem State.modPort_strapDie (q : Nat) (f : Port → Port) : (s.modPort q f).strapDie = s.strapDie := rfl
@[simp] theorem State.modPort_strapRole (q : Nat) (f : Port → Port) : (s.modPort q f).strapRole = s.strapRole := rfl
@[simp] theorem State.modPort_strapPos (q : Nat) (f : Port → Port) : (s.modPort q f).strapPos = s.strapPos := rfl
@[simp] theorem State.modPort_die (q : Nat) (f : Port → Port) : (s.modPort q f).die = s.die := rfl
@[simp] theorem State.modPort_role (q : Nat) (f : Port → Port) : (s.modPort q f).role = s.role := rfl
@[simp] theorem State.modPort_held (q : Nat) (f : Port → Port) : (s.modPort q f).held = s.held := rfl
@[simp] theorem State.modPort_core (q : Nat) (f : Port → Port) : (s.modPort q f).core = s.core := rfl
@[simp] theorem State.modPort_coreAt (q : Nat) (f : Port → Port) : (s.modPort q f).coreAt = s.coreAt := rfl
@[simp] theorem State.modPort_resetAt (q : Nat) (f : Port → Port) : (s.modPort q f).resetAt = s.resetAt := rfl
@[simp] theorem State.modPort_ifiReady (q : Nat) (f : Port → Port) : (s.modPort q f).ifiReady = s.ifiReady := rfl
@[simp] theorem State.modPort_ifiWake (q : Nat) (f : Port → Port) : (s.modPort q f).ifiWake = s.ifiWake := rfl
@[simp] theorem State.modPort_ingress (q : Nat) (f : Port → Port) : (s.modPort q f).ingress = s.ingress := rfl
@[simp] theorem State.modPort_egress (q : Nat) (f : Port → Port) : (s.modPort q f).egress = s.egress := rfl
@[simp] theorem State.modPort_icr (q : Nat) (f : Port → Port) : (s.modPort q f).icr = s.icr := rfl
@[simp] theorem State.modPort_ecr (q : Nat) (f : Port → Port) : (s.modPort q f).ecr = s.ecr := rfl
@[simp] theorem State.modPort_evtOut (q : Nat) (f : Port → Port) : (s.modPort q f).evtOut = s.evtOut := rfl
@[simp] theorem State.modPort_evtCr (q : Nat) (f : Port → Port) : (s.modPort q f).evtCr = s.evtCr := rfl
@[simp] theorem State.modPort_evtIcr (q : Nat) (f : Port → Port) : (s.modPort q f).evtIcr = s.evtIcr := rfl
@[simp] theorem State.modPort_irqs (q : Nat) (f : Port → Port) : (s.modPort q f).irqs = s.irqs := rfl
@[simp] theorem State.modPort_rr (q : Nat) (f : Port → Port) : (s.modPort q f).rr = s.rr := rfl
@[simp] theorem State.modPort_cfg (q : Nat) (f : Port → Port) : (s.modPort q f).cfg = s.cfg := rfl
@[simp] theorem State.modPort_xfers (q : Nat) (f : Port → Port) : (s.modPort q f).xfers = s.xfers := rfl
@[simp] theorem State.modPort_sup (q : Nat) (f : Port → Port) : (s.modPort q f).sup = s.sup := rfl
@[simp] theorem State.modPort_ring (q : Nat) (f : Port → Port) : (s.modPort q f).ring = s.ring := rfl
@[simp] theorem State.modPort_svc (q : Nat) (f : Port → Port) : (s.modPort q f).svc = s.svc := rfl
@[simp] theorem State.modPort_therm (q : Nat) (f : Port → Port) : (s.modPort q f).therm = s.therm := rfl
@[simp] theorem State.modPort_sch (q : Nat) (f : Port → Port) : (s.modPort q f).sch = s.sch := rfl
@[simp] theorem State.modPort_sems (q : Nat) (f : Port → Port) : (s.modPort q f).sems = s.sems := rfl
@[simp] theorem State.modPort_ownQ (q : Nat) (f : Port → Port) : (s.modPort q f).ownQ = s.ownQ := rfl
@[simp] theorem State.modPort_localTags (q : Nat) (f : Port → Port) : (s.modPort q f).localTags = s.localTags := rfl
@[simp] theorem State.modPort_ord (q : Nat) (f : Port → Port) : (s.modPort q f).ord = s.ord := rfl
@[simp] theorem State.modPort_inbOut (q : Nat) (f : Port → Port) : (s.modPort q f).inbOut = s.inbOut := rfl
@[simp] theorem State.modPort_seqNo (q : Nat) (f : Port → Port) : (s.modPort q f).seqNo = s.seqNo := rfl
@[simp] theorem State.modPort_rlc (q : Nat) (f : Port → Port) : (s.modPort q f).rlc = s.rlc := rfl
@[simp] theorem State.modPort_home (q : Nat) (f : Port → Port) : (s.modPort q f).home = s.home := rfl
@[simp] theorem State.modPort_ifr (q : Nat) (f : Port → Port) : (s.modPort q f).ifr = s.ifr := rfl
@[simp] theorem State.modPort_ten (q : Nat) (f : Port → Port) : (s.modPort q f).ten = s.ten := rfl
@[simp] theorem State.modPort_twins (q : Nat) (f : Port → Port) : (s.modPort q f).twins = s.twins := rfl
@[simp] theorem State.modPort_fw (q : Nat) (f : Port → Port) : (s.modPort q f).fw = s.fw := rfl
@[simp] theorem State.modPort_repair (q : Nat) (f : Port → Port) : (s.modPort q f).repair = s.repair := rfl
@[simp] theorem State.modPort_tap (q : Nat) (f : Port → Port) : (s.modPort q f).tap = s.tap := rfl
@[simp] theorem State.modPort_trace (q : Nat) (f : Port → Port) : (s.modPort q f).trace = s.trace := rfl
@[simp] theorem State.modPort_out (q : Nat) (f : Port → Port) : (s.modPort q f).out = s.out := rfl
@[simp] theorem State.modPort_pending (q : Nat) (f : Port → Port) : (s.modPort q f).pending = s.pending := rfl

/-! ### `State.modBundle` changes `ports` only -/

@[simp] theorem State.modBundle_elab (q b : Nat) (f : Bundle → Bundle) : (s.modBundle q b f).elab_ = s.elab_ := rfl
@[simp] theorem State.modBundle_fuses (q b : Nat) (f : Bundle → Bundle) : (s.modBundle q b f).fuses = s.fuses := rfl
@[simp] theorem State.modBundle_alm (q b : Nat) (f : Bundle → Bundle) : (s.modBundle q b f).alm = s.alm := rfl
@[simp] theorem State.modBundle_tabs (q b : Nat) (f : Bundle → Bundle) : (s.modBundle q b f).tabs = s.tabs := rfl
@[simp] theorem State.modBundle_counts (q b : Nat) (f : Bundle → Bundle) : (s.modBundle q b f).counts = s.counts := rfl
@[simp] theorem State.modBundle_now (q b : Nat) (f : Bundle → Bundle) : (s.modBundle q b f).now = s.now := rfl
@[simp] theorem State.modBundle_strapDie (q b : Nat) (f : Bundle → Bundle) : (s.modBundle q b f).strapDie = s.strapDie := rfl
@[simp] theorem State.modBundle_strapRole (q b : Nat) (f : Bundle → Bundle) : (s.modBundle q b f).strapRole = s.strapRole := rfl
@[simp] theorem State.modBundle_strapPos (q b : Nat) (f : Bundle → Bundle) : (s.modBundle q b f).strapPos = s.strapPos := rfl
@[simp] theorem State.modBundle_die (q b : Nat) (f : Bundle → Bundle) : (s.modBundle q b f).die = s.die := rfl
@[simp] theorem State.modBundle_role (q b : Nat) (f : Bundle → Bundle) : (s.modBundle q b f).role = s.role := rfl
@[simp] theorem State.modBundle_held (q b : Nat) (f : Bundle → Bundle) : (s.modBundle q b f).held = s.held := rfl
@[simp] theorem State.modBundle_core (q b : Nat) (f : Bundle → Bundle) : (s.modBundle q b f).core = s.core := rfl
@[simp] theorem State.modBundle_coreAt (q b : Nat) (f : Bundle → Bundle) : (s.modBundle q b f).coreAt = s.coreAt := rfl
@[simp] theorem State.modBundle_resetAt (q b : Nat) (f : Bundle → Bundle) : (s.modBundle q b f).resetAt = s.resetAt := rfl
@[simp] theorem State.modBundle_ifiReady (q b : Nat) (f : Bundle → Bundle) : (s.modBundle q b f).ifiReady = s.ifiReady := rfl
@[simp] theorem State.modBundle_ifiWake (q b : Nat) (f : Bundle → Bundle) : (s.modBundle q b f).ifiWake = s.ifiWake := rfl
@[simp] theorem State.modBundle_ingress (q b : Nat) (f : Bundle → Bundle) : (s.modBundle q b f).ingress = s.ingress := rfl
@[simp] theorem State.modBundle_egress (q b : Nat) (f : Bundle → Bundle) : (s.modBundle q b f).egress = s.egress := rfl
@[simp] theorem State.modBundle_icr (q b : Nat) (f : Bundle → Bundle) : (s.modBundle q b f).icr = s.icr := rfl
@[simp] theorem State.modBundle_ecr (q b : Nat) (f : Bundle → Bundle) : (s.modBundle q b f).ecr = s.ecr := rfl
@[simp] theorem State.modBundle_evtOut (q b : Nat) (f : Bundle → Bundle) : (s.modBundle q b f).evtOut = s.evtOut := rfl
@[simp] theorem State.modBundle_evtCr (q b : Nat) (f : Bundle → Bundle) : (s.modBundle q b f).evtCr = s.evtCr := rfl
@[simp] theorem State.modBundle_evtIcr (q b : Nat) (f : Bundle → Bundle) : (s.modBundle q b f).evtIcr = s.evtIcr := rfl
@[simp] theorem State.modBundle_irqs (q b : Nat) (f : Bundle → Bundle) : (s.modBundle q b f).irqs = s.irqs := rfl
@[simp] theorem State.modBundle_rr (q b : Nat) (f : Bundle → Bundle) : (s.modBundle q b f).rr = s.rr := rfl
@[simp] theorem State.modBundle_cfg (q b : Nat) (f : Bundle → Bundle) : (s.modBundle q b f).cfg = s.cfg := rfl
@[simp] theorem State.modBundle_xfers (q b : Nat) (f : Bundle → Bundle) : (s.modBundle q b f).xfers = s.xfers := rfl
@[simp] theorem State.modBundle_sup (q b : Nat) (f : Bundle → Bundle) : (s.modBundle q b f).sup = s.sup := rfl
@[simp] theorem State.modBundle_ring (q b : Nat) (f : Bundle → Bundle) : (s.modBundle q b f).ring = s.ring := rfl
@[simp] theorem State.modBundle_svc (q b : Nat) (f : Bundle → Bundle) : (s.modBundle q b f).svc = s.svc := rfl
@[simp] theorem State.modBundle_therm (q b : Nat) (f : Bundle → Bundle) : (s.modBundle q b f).therm = s.therm := rfl
@[simp] theorem State.modBundle_sch (q b : Nat) (f : Bundle → Bundle) : (s.modBundle q b f).sch = s.sch := rfl
@[simp] theorem State.modBundle_sems (q b : Nat) (f : Bundle → Bundle) : (s.modBundle q b f).sems = s.sems := rfl
@[simp] theorem State.modBundle_ownQ (q b : Nat) (f : Bundle → Bundle) : (s.modBundle q b f).ownQ = s.ownQ := rfl
@[simp] theorem State.modBundle_localTags (q b : Nat) (f : Bundle → Bundle) : (s.modBundle q b f).localTags = s.localTags := rfl
@[simp] theorem State.modBundle_ord (q b : Nat) (f : Bundle → Bundle) : (s.modBundle q b f).ord = s.ord := rfl
@[simp] theorem State.modBundle_inbOut (q b : Nat) (f : Bundle → Bundle) : (s.modBundle q b f).inbOut = s.inbOut := rfl
@[simp] theorem State.modBundle_seqNo (q b : Nat) (f : Bundle → Bundle) : (s.modBundle q b f).seqNo = s.seqNo := rfl
@[simp] theorem State.modBundle_rlc (q b : Nat) (f : Bundle → Bundle) : (s.modBundle q b f).rlc = s.rlc := rfl
@[simp] theorem State.modBundle_home (q b : Nat) (f : Bundle → Bundle) : (s.modBundle q b f).home = s.home := rfl
@[simp] theorem State.modBundle_ifr (q b : Nat) (f : Bundle → Bundle) : (s.modBundle q b f).ifr = s.ifr := rfl
@[simp] theorem State.modBundle_ten (q b : Nat) (f : Bundle → Bundle) : (s.modBundle q b f).ten = s.ten := rfl
@[simp] theorem State.modBundle_twins (q b : Nat) (f : Bundle → Bundle) : (s.modBundle q b f).twins = s.twins := rfl
@[simp] theorem State.modBundle_fw (q b : Nat) (f : Bundle → Bundle) : (s.modBundle q b f).fw = s.fw := rfl
@[simp] theorem State.modBundle_repair (q b : Nat) (f : Bundle → Bundle) : (s.modBundle q b f).repair = s.repair := rfl
@[simp] theorem State.modBundle_tap (q b : Nat) (f : Bundle → Bundle) : (s.modBundle q b f).tap = s.tap := rfl
@[simp] theorem State.modBundle_trace (q b : Nat) (f : Bundle → Bundle) : (s.modBundle q b f).trace = s.trace := rfl
@[simp] theorem State.modBundle_out (q b : Nat) (f : Bundle → Bundle) : (s.modBundle q b f).out = s.out := rfl
@[simp] theorem State.modBundle_pending (q b : Nat) (f : Bundle → Bundle) : (s.modBundle q b f).pending = s.pending := rfl

/-! ### `State.modLane` changes `ports` only -/

@[simp] theorem State.modLane_elab (q l : Nat) (f : Lane → Lane) : (s.modLane q l f).elab_ = s.elab_ := rfl
@[simp] theorem State.modLane_fuses (q l : Nat) (f : Lane → Lane) : (s.modLane q l f).fuses = s.fuses := rfl
@[simp] theorem State.modLane_alm (q l : Nat) (f : Lane → Lane) : (s.modLane q l f).alm = s.alm := rfl
@[simp] theorem State.modLane_tabs (q l : Nat) (f : Lane → Lane) : (s.modLane q l f).tabs = s.tabs := rfl
@[simp] theorem State.modLane_counts (q l : Nat) (f : Lane → Lane) : (s.modLane q l f).counts = s.counts := rfl
@[simp] theorem State.modLane_now (q l : Nat) (f : Lane → Lane) : (s.modLane q l f).now = s.now := rfl
@[simp] theorem State.modLane_strapDie (q l : Nat) (f : Lane → Lane) : (s.modLane q l f).strapDie = s.strapDie := rfl
@[simp] theorem State.modLane_strapRole (q l : Nat) (f : Lane → Lane) : (s.modLane q l f).strapRole = s.strapRole := rfl
@[simp] theorem State.modLane_strapPos (q l : Nat) (f : Lane → Lane) : (s.modLane q l f).strapPos = s.strapPos := rfl
@[simp] theorem State.modLane_die (q l : Nat) (f : Lane → Lane) : (s.modLane q l f).die = s.die := rfl
@[simp] theorem State.modLane_role (q l : Nat) (f : Lane → Lane) : (s.modLane q l f).role = s.role := rfl
@[simp] theorem State.modLane_held (q l : Nat) (f : Lane → Lane) : (s.modLane q l f).held = s.held := rfl
@[simp] theorem State.modLane_core (q l : Nat) (f : Lane → Lane) : (s.modLane q l f).core = s.core := rfl
@[simp] theorem State.modLane_coreAt (q l : Nat) (f : Lane → Lane) : (s.modLane q l f).coreAt = s.coreAt := rfl
@[simp] theorem State.modLane_resetAt (q l : Nat) (f : Lane → Lane) : (s.modLane q l f).resetAt = s.resetAt := rfl
@[simp] theorem State.modLane_ifiReady (q l : Nat) (f : Lane → Lane) : (s.modLane q l f).ifiReady = s.ifiReady := rfl
@[simp] theorem State.modLane_ifiWake (q l : Nat) (f : Lane → Lane) : (s.modLane q l f).ifiWake = s.ifiWake := rfl
@[simp] theorem State.modLane_ingress (q l : Nat) (f : Lane → Lane) : (s.modLane q l f).ingress = s.ingress := rfl
@[simp] theorem State.modLane_egress (q l : Nat) (f : Lane → Lane) : (s.modLane q l f).egress = s.egress := rfl
@[simp] theorem State.modLane_icr (q l : Nat) (f : Lane → Lane) : (s.modLane q l f).icr = s.icr := rfl
@[simp] theorem State.modLane_ecr (q l : Nat) (f : Lane → Lane) : (s.modLane q l f).ecr = s.ecr := rfl
@[simp] theorem State.modLane_evtOut (q l : Nat) (f : Lane → Lane) : (s.modLane q l f).evtOut = s.evtOut := rfl
@[simp] theorem State.modLane_evtCr (q l : Nat) (f : Lane → Lane) : (s.modLane q l f).evtCr = s.evtCr := rfl
@[simp] theorem State.modLane_evtIcr (q l : Nat) (f : Lane → Lane) : (s.modLane q l f).evtIcr = s.evtIcr := rfl
@[simp] theorem State.modLane_irqs (q l : Nat) (f : Lane → Lane) : (s.modLane q l f).irqs = s.irqs := rfl
@[simp] theorem State.modLane_rr (q l : Nat) (f : Lane → Lane) : (s.modLane q l f).rr = s.rr := rfl
@[simp] theorem State.modLane_cfg (q l : Nat) (f : Lane → Lane) : (s.modLane q l f).cfg = s.cfg := rfl
@[simp] theorem State.modLane_xfers (q l : Nat) (f : Lane → Lane) : (s.modLane q l f).xfers = s.xfers := rfl
@[simp] theorem State.modLane_sup (q l : Nat) (f : Lane → Lane) : (s.modLane q l f).sup = s.sup := rfl
@[simp] theorem State.modLane_ring (q l : Nat) (f : Lane → Lane) : (s.modLane q l f).ring = s.ring := rfl
@[simp] theorem State.modLane_svc (q l : Nat) (f : Lane → Lane) : (s.modLane q l f).svc = s.svc := rfl
@[simp] theorem State.modLane_therm (q l : Nat) (f : Lane → Lane) : (s.modLane q l f).therm = s.therm := rfl
@[simp] theorem State.modLane_sch (q l : Nat) (f : Lane → Lane) : (s.modLane q l f).sch = s.sch := rfl
@[simp] theorem State.modLane_sems (q l : Nat) (f : Lane → Lane) : (s.modLane q l f).sems = s.sems := rfl
@[simp] theorem State.modLane_ownQ (q l : Nat) (f : Lane → Lane) : (s.modLane q l f).ownQ = s.ownQ := rfl
@[simp] theorem State.modLane_localTags (q l : Nat) (f : Lane → Lane) : (s.modLane q l f).localTags = s.localTags := rfl
@[simp] theorem State.modLane_ord (q l : Nat) (f : Lane → Lane) : (s.modLane q l f).ord = s.ord := rfl
@[simp] theorem State.modLane_inbOut (q l : Nat) (f : Lane → Lane) : (s.modLane q l f).inbOut = s.inbOut := rfl
@[simp] theorem State.modLane_seqNo (q l : Nat) (f : Lane → Lane) : (s.modLane q l f).seqNo = s.seqNo := rfl
@[simp] theorem State.modLane_rlc (q l : Nat) (f : Lane → Lane) : (s.modLane q l f).rlc = s.rlc := rfl
@[simp] theorem State.modLane_home (q l : Nat) (f : Lane → Lane) : (s.modLane q l f).home = s.home := rfl
@[simp] theorem State.modLane_ifr (q l : Nat) (f : Lane → Lane) : (s.modLane q l f).ifr = s.ifr := rfl
@[simp] theorem State.modLane_ten (q l : Nat) (f : Lane → Lane) : (s.modLane q l f).ten = s.ten := rfl
@[simp] theorem State.modLane_twins (q l : Nat) (f : Lane → Lane) : (s.modLane q l f).twins = s.twins := rfl
@[simp] theorem State.modLane_fw (q l : Nat) (f : Lane → Lane) : (s.modLane q l f).fw = s.fw := rfl
@[simp] theorem State.modLane_repair (q l : Nat) (f : Lane → Lane) : (s.modLane q l f).repair = s.repair := rfl
@[simp] theorem State.modLane_tap (q l : Nat) (f : Lane → Lane) : (s.modLane q l f).tap = s.tap := rfl
@[simp] theorem State.modLane_trace (q l : Nat) (f : Lane → Lane) : (s.modLane q l f).trace = s.trace := rfl
@[simp] theorem State.modLane_out (q l : Nat) (f : Lane → Lane) : (s.modLane q l f).out = s.out := rfl
@[simp] theorem State.modLane_pending (q l : Nat) (f : Lane → Lane) : (s.modLane q l f).pending = s.pending := rfl

/-! ### `State.pbump` changes `alm` only -/

@[simp] theorem State.pbump_elab (b q j n : Nat) : (s.pbump b q j n).elab_ = s.elab_ := rfl
@[simp] theorem State.pbump_fuses (b q j n : Nat) : (s.pbump b q j n).fuses = s.fuses := rfl
@[simp] theorem State.pbump_tabs (b q j n : Nat) : (s.pbump b q j n).tabs = s.tabs := rfl
@[simp] theorem State.pbump_counts (b q j n : Nat) : (s.pbump b q j n).counts = s.counts := rfl
@[simp] theorem State.pbump_now (b q j n : Nat) : (s.pbump b q j n).now = s.now := rfl
@[simp] theorem State.pbump_strapDie (b q j n : Nat) : (s.pbump b q j n).strapDie = s.strapDie := rfl
@[simp] theorem State.pbump_strapRole (b q j n : Nat) : (s.pbump b q j n).strapRole = s.strapRole := rfl
@[simp] theorem State.pbump_strapPos (b q j n : Nat) : (s.pbump b q j n).strapPos = s.strapPos := rfl
@[simp] theorem State.pbump_die (b q j n : Nat) : (s.pbump b q j n).die = s.die := rfl
@[simp] theorem State.pbump_role (b q j n : Nat) : (s.pbump b q j n).role = s.role := rfl
@[simp] theorem State.pbump_held (b q j n : Nat) : (s.pbump b q j n).held = s.held := rfl
@[simp] theorem State.pbump_core (b q j n : Nat) : (s.pbump b q j n).core = s.core := rfl
@[simp] theorem State.pbump_coreAt (b q j n : Nat) : (s.pbump b q j n).coreAt = s.coreAt := rfl
@[simp] theorem State.pbump_resetAt (b q j n : Nat) : (s.pbump b q j n).resetAt = s.resetAt := rfl
@[simp] theorem State.pbump_ifiReady (b q j n : Nat) : (s.pbump b q j n).ifiReady = s.ifiReady := rfl
@[simp] theorem State.pbump_ifiWake (b q j n : Nat) : (s.pbump b q j n).ifiWake = s.ifiWake := rfl
@[simp] theorem State.pbump_ingress (b q j n : Nat) : (s.pbump b q j n).ingress = s.ingress := rfl
@[simp] theorem State.pbump_egress (b q j n : Nat) : (s.pbump b q j n).egress = s.egress := rfl
@[simp] theorem State.pbump_icr (b q j n : Nat) : (s.pbump b q j n).icr = s.icr := rfl
@[simp] theorem State.pbump_ecr (b q j n : Nat) : (s.pbump b q j n).ecr = s.ecr := rfl
@[simp] theorem State.pbump_evtOut (b q j n : Nat) : (s.pbump b q j n).evtOut = s.evtOut := rfl
@[simp] theorem State.pbump_evtCr (b q j n : Nat) : (s.pbump b q j n).evtCr = s.evtCr := rfl
@[simp] theorem State.pbump_evtIcr (b q j n : Nat) : (s.pbump b q j n).evtIcr = s.evtIcr := rfl
@[simp] theorem State.pbump_irqs (b q j n : Nat) : (s.pbump b q j n).irqs = s.irqs := rfl
@[simp] theorem State.pbump_rr (b q j n : Nat) : (s.pbump b q j n).rr = s.rr := rfl
@[simp] theorem State.pbump_cfg (b q j n : Nat) : (s.pbump b q j n).cfg = s.cfg := rfl
@[simp] theorem State.pbump_xfers (b q j n : Nat) : (s.pbump b q j n).xfers = s.xfers := rfl
@[simp] theorem State.pbump_sup (b q j n : Nat) : (s.pbump b q j n).sup = s.sup := rfl
@[simp] theorem State.pbump_ring (b q j n : Nat) : (s.pbump b q j n).ring = s.ring := rfl
@[simp] theorem State.pbump_svc (b q j n : Nat) : (s.pbump b q j n).svc = s.svc := rfl
@[simp] theorem State.pbump_therm (b q j n : Nat) : (s.pbump b q j n).therm = s.therm := rfl
@[simp] theorem State.pbump_sch (b q j n : Nat) : (s.pbump b q j n).sch = s.sch := rfl
@[simp] theorem State.pbump_sems (b q j n : Nat) : (s.pbump b q j n).sems = s.sems := rfl
@[simp] theorem State.pbump_ownQ (b q j n : Nat) : (s.pbump b q j n).ownQ = s.ownQ := rfl
@[simp] theorem State.pbump_localTags (b q j n : Nat) : (s.pbump b q j n).localTags = s.localTags := rfl
@[simp] theorem State.pbump_ord (b q j n : Nat) : (s.pbump b q j n).ord = s.ord := rfl
@[simp] theorem State.pbump_inbOut (b q j n : Nat) : (s.pbump b q j n).inbOut = s.inbOut := rfl
@[simp] theorem State.pbump_seqNo (b q j n : Nat) : (s.pbump b q j n).seqNo = s.seqNo := rfl
@[simp] theorem State.pbump_rlc (b q j n : Nat) : (s.pbump b q j n).rlc = s.rlc := rfl
@[simp] theorem State.pbump_home (b q j n : Nat) : (s.pbump b q j n).home = s.home := rfl
@[simp] theorem State.pbump_ifr (b q j n : Nat) : (s.pbump b q j n).ifr = s.ifr := rfl
@[simp] theorem State.pbump_ten (b q j n : Nat) : (s.pbump b q j n).ten = s.ten := rfl
@[simp] theorem State.pbump_twins (b q j n : Nat) : (s.pbump b q j n).twins = s.twins := rfl
@[simp] theorem State.pbump_fw (b q j n : Nat) : (s.pbump b q j n).fw = s.fw := rfl
@[simp] theorem State.pbump_repair (b q j n : Nat) : (s.pbump b q j n).repair = s.repair := rfl
@[simp] theorem State.pbump_tap (b q j n : Nat) : (s.pbump b q j n).tap = s.tap := rfl
@[simp] theorem State.pbump_trace (b q j n : Nat) : (s.pbump b q j n).trace = s.trace := rfl
@[simp] theorem State.pbump_ports (b q j n : Nat) : (s.pbump b q j n).ports = s.ports := rfl
@[simp] theorem State.pbump_out (b q j n : Nat) : (s.pbump b q j n).out = s.out := rfl
@[simp] theorem State.pbump_pending (b q j n : Nat) : (s.pbump b q j n).pending = s.pending := rfl

/-! ### `State.pbump64` changes `alm` only -/

@[simp] theorem State.pbump64_elab (b q j n : Nat) : (s.pbump64 b q j n).elab_ = s.elab_ := rfl
@[simp] theorem State.pbump64_fuses (b q j n : Nat) : (s.pbump64 b q j n).fuses = s.fuses := rfl
@[simp] theorem State.pbump64_tabs (b q j n : Nat) : (s.pbump64 b q j n).tabs = s.tabs := rfl
@[simp] theorem State.pbump64_counts (b q j n : Nat) : (s.pbump64 b q j n).counts = s.counts := rfl
@[simp] theorem State.pbump64_now (b q j n : Nat) : (s.pbump64 b q j n).now = s.now := rfl
@[simp] theorem State.pbump64_strapDie (b q j n : Nat) : (s.pbump64 b q j n).strapDie = s.strapDie := rfl
@[simp] theorem State.pbump64_strapRole (b q j n : Nat) : (s.pbump64 b q j n).strapRole = s.strapRole := rfl
@[simp] theorem State.pbump64_strapPos (b q j n : Nat) : (s.pbump64 b q j n).strapPos = s.strapPos := rfl
@[simp] theorem State.pbump64_die (b q j n : Nat) : (s.pbump64 b q j n).die = s.die := rfl
@[simp] theorem State.pbump64_role (b q j n : Nat) : (s.pbump64 b q j n).role = s.role := rfl
@[simp] theorem State.pbump64_held (b q j n : Nat) : (s.pbump64 b q j n).held = s.held := rfl
@[simp] theorem State.pbump64_core (b q j n : Nat) : (s.pbump64 b q j n).core = s.core := rfl
@[simp] theorem State.pbump64_coreAt (b q j n : Nat) : (s.pbump64 b q j n).coreAt = s.coreAt := rfl
@[simp] theorem State.pbump64_resetAt (b q j n : Nat) : (s.pbump64 b q j n).resetAt = s.resetAt := rfl
@[simp] theorem State.pbump64_ifiReady (b q j n : Nat) : (s.pbump64 b q j n).ifiReady = s.ifiReady := rfl
@[simp] theorem State.pbump64_ifiWake (b q j n : Nat) : (s.pbump64 b q j n).ifiWake = s.ifiWake := rfl
@[simp] theorem State.pbump64_ingress (b q j n : Nat) : (s.pbump64 b q j n).ingress = s.ingress := rfl
@[simp] theorem State.pbump64_egress (b q j n : Nat) : (s.pbump64 b q j n).egress = s.egress := rfl
@[simp] theorem State.pbump64_icr (b q j n : Nat) : (s.pbump64 b q j n).icr = s.icr := rfl
@[simp] theorem State.pbump64_ecr (b q j n : Nat) : (s.pbump64 b q j n).ecr = s.ecr := rfl
@[simp] theorem State.pbump64_evtOut (b q j n : Nat) : (s.pbump64 b q j n).evtOut = s.evtOut := rfl
@[simp] theorem State.pbump64_evtCr (b q j n : Nat) : (s.pbump64 b q j n).evtCr = s.evtCr := rfl
@[simp] theorem State.pbump64_evtIcr (b q j n : Nat) : (s.pbump64 b q j n).evtIcr = s.evtIcr := rfl
@[simp] theorem State.pbump64_irqs (b q j n : Nat) : (s.pbump64 b q j n).irqs = s.irqs := rfl
@[simp] theorem State.pbump64_rr (b q j n : Nat) : (s.pbump64 b q j n).rr = s.rr := rfl
@[simp] theorem State.pbump64_cfg (b q j n : Nat) : (s.pbump64 b q j n).cfg = s.cfg := rfl
@[simp] theorem State.pbump64_xfers (b q j n : Nat) : (s.pbump64 b q j n).xfers = s.xfers := rfl
@[simp] theorem State.pbump64_sup (b q j n : Nat) : (s.pbump64 b q j n).sup = s.sup := rfl
@[simp] theorem State.pbump64_ring (b q j n : Nat) : (s.pbump64 b q j n).ring = s.ring := rfl
@[simp] theorem State.pbump64_svc (b q j n : Nat) : (s.pbump64 b q j n).svc = s.svc := rfl
@[simp] theorem State.pbump64_therm (b q j n : Nat) : (s.pbump64 b q j n).therm = s.therm := rfl
@[simp] theorem State.pbump64_sch (b q j n : Nat) : (s.pbump64 b q j n).sch = s.sch := rfl
@[simp] theorem State.pbump64_sems (b q j n : Nat) : (s.pbump64 b q j n).sems = s.sems := rfl
@[simp] theorem State.pbump64_ownQ (b q j n : Nat) : (s.pbump64 b q j n).ownQ = s.ownQ := rfl
@[simp] theorem State.pbump64_localTags (b q j n : Nat) : (s.pbump64 b q j n).localTags = s.localTags := rfl
@[simp] theorem State.pbump64_ord (b q j n : Nat) : (s.pbump64 b q j n).ord = s.ord := rfl
@[simp] theorem State.pbump64_inbOut (b q j n : Nat) : (s.pbump64 b q j n).inbOut = s.inbOut := rfl
@[simp] theorem State.pbump64_seqNo (b q j n : Nat) : (s.pbump64 b q j n).seqNo = s.seqNo := rfl
@[simp] theorem State.pbump64_rlc (b q j n : Nat) : (s.pbump64 b q j n).rlc = s.rlc := rfl
@[simp] theorem State.pbump64_home (b q j n : Nat) : (s.pbump64 b q j n).home = s.home := rfl
@[simp] theorem State.pbump64_ifr (b q j n : Nat) : (s.pbump64 b q j n).ifr = s.ifr := rfl
@[simp] theorem State.pbump64_ten (b q j n : Nat) : (s.pbump64 b q j n).ten = s.ten := rfl
@[simp] theorem State.pbump64_twins (b q j n : Nat) : (s.pbump64 b q j n).twins = s.twins := rfl
@[simp] theorem State.pbump64_fw (b q j n : Nat) : (s.pbump64 b q j n).fw = s.fw := rfl
@[simp] theorem State.pbump64_repair (b q j n : Nat) : (s.pbump64 b q j n).repair = s.repair := rfl
@[simp] theorem State.pbump64_tap (b q j n : Nat) : (s.pbump64 b q j n).tap = s.tap := rfl
@[simp] theorem State.pbump64_trace (b q j n : Nat) : (s.pbump64 b q j n).trace = s.trace := rfl
@[simp] theorem State.pbump64_ports (b q j n : Nat) : (s.pbump64 b q j n).ports = s.ports := rfl
@[simp] theorem State.pbump64_out (b q j n : Nat) : (s.pbump64 b q j n).out = s.out := rfl
@[simp] theorem State.pbump64_pending (b q j n : Nat) : (s.pbump64 b q j n).pending = s.pending := rfl

/-! ### `State.countStatus` changes `counts` only -/

@[simp] theorem State.countStatus_elab (st : BitVec 8) : (s.countStatus st).elab_ = s.elab_ := rfl
@[simp] theorem State.countStatus_fuses (st : BitVec 8) : (s.countStatus st).fuses = s.fuses := rfl
@[simp] theorem State.countStatus_alm (st : BitVec 8) : (s.countStatus st).alm = s.alm := rfl
@[simp] theorem State.countStatus_tabs (st : BitVec 8) : (s.countStatus st).tabs = s.tabs := rfl
@[simp] theorem State.countStatus_now (st : BitVec 8) : (s.countStatus st).now = s.now := rfl
@[simp] theorem State.countStatus_strapDie (st : BitVec 8) : (s.countStatus st).strapDie = s.strapDie := rfl
@[simp] theorem State.countStatus_strapRole (st : BitVec 8) : (s.countStatus st).strapRole = s.strapRole := rfl
@[simp] theorem State.countStatus_strapPos (st : BitVec 8) : (s.countStatus st).strapPos = s.strapPos := rfl
@[simp] theorem State.countStatus_die (st : BitVec 8) : (s.countStatus st).die = s.die := rfl
@[simp] theorem State.countStatus_role (st : BitVec 8) : (s.countStatus st).role = s.role := rfl
@[simp] theorem State.countStatus_held (st : BitVec 8) : (s.countStatus st).held = s.held := rfl
@[simp] theorem State.countStatus_core (st : BitVec 8) : (s.countStatus st).core = s.core := rfl
@[simp] theorem State.countStatus_coreAt (st : BitVec 8) : (s.countStatus st).coreAt = s.coreAt := rfl
@[simp] theorem State.countStatus_resetAt (st : BitVec 8) : (s.countStatus st).resetAt = s.resetAt := rfl
@[simp] theorem State.countStatus_ifiReady (st : BitVec 8) : (s.countStatus st).ifiReady = s.ifiReady := rfl
@[simp] theorem State.countStatus_ifiWake (st : BitVec 8) : (s.countStatus st).ifiWake = s.ifiWake := rfl
@[simp] theorem State.countStatus_ingress (st : BitVec 8) : (s.countStatus st).ingress = s.ingress := rfl
@[simp] theorem State.countStatus_egress (st : BitVec 8) : (s.countStatus st).egress = s.egress := rfl
@[simp] theorem State.countStatus_icr (st : BitVec 8) : (s.countStatus st).icr = s.icr := rfl
@[simp] theorem State.countStatus_ecr (st : BitVec 8) : (s.countStatus st).ecr = s.ecr := rfl
@[simp] theorem State.countStatus_evtOut (st : BitVec 8) : (s.countStatus st).evtOut = s.evtOut := rfl
@[simp] theorem State.countStatus_evtCr (st : BitVec 8) : (s.countStatus st).evtCr = s.evtCr := rfl
@[simp] theorem State.countStatus_evtIcr (st : BitVec 8) : (s.countStatus st).evtIcr = s.evtIcr := rfl
@[simp] theorem State.countStatus_irqs (st : BitVec 8) : (s.countStatus st).irqs = s.irqs := rfl
@[simp] theorem State.countStatus_rr (st : BitVec 8) : (s.countStatus st).rr = s.rr := rfl
@[simp] theorem State.countStatus_cfg (st : BitVec 8) : (s.countStatus st).cfg = s.cfg := rfl
@[simp] theorem State.countStatus_xfers (st : BitVec 8) : (s.countStatus st).xfers = s.xfers := rfl
@[simp] theorem State.countStatus_sup (st : BitVec 8) : (s.countStatus st).sup = s.sup := rfl
@[simp] theorem State.countStatus_ring (st : BitVec 8) : (s.countStatus st).ring = s.ring := rfl
@[simp] theorem State.countStatus_svc (st : BitVec 8) : (s.countStatus st).svc = s.svc := rfl
@[simp] theorem State.countStatus_therm (st : BitVec 8) : (s.countStatus st).therm = s.therm := rfl
@[simp] theorem State.countStatus_sch (st : BitVec 8) : (s.countStatus st).sch = s.sch := rfl
@[simp] theorem State.countStatus_sems (st : BitVec 8) : (s.countStatus st).sems = s.sems := rfl
@[simp] theorem State.countStatus_ownQ (st : BitVec 8) : (s.countStatus st).ownQ = s.ownQ := rfl
@[simp] theorem State.countStatus_localTags (st : BitVec 8) : (s.countStatus st).localTags = s.localTags := rfl
@[simp] theorem State.countStatus_ord (st : BitVec 8) : (s.countStatus st).ord = s.ord := rfl
@[simp] theorem State.countStatus_inbOut (st : BitVec 8) : (s.countStatus st).inbOut = s.inbOut := rfl
@[simp] theorem State.countStatus_seqNo (st : BitVec 8) : (s.countStatus st).seqNo = s.seqNo := rfl
@[simp] theorem State.countStatus_rlc (st : BitVec 8) : (s.countStatus st).rlc = s.rlc := rfl
@[simp] theorem State.countStatus_home (st : BitVec 8) : (s.countStatus st).home = s.home := rfl
@[simp] theorem State.countStatus_ifr (st : BitVec 8) : (s.countStatus st).ifr = s.ifr := rfl
@[simp] theorem State.countStatus_ten (st : BitVec 8) : (s.countStatus st).ten = s.ten := rfl
@[simp] theorem State.countStatus_twins (st : BitVec 8) : (s.countStatus st).twins = s.twins := rfl
@[simp] theorem State.countStatus_fw (st : BitVec 8) : (s.countStatus st).fw = s.fw := rfl
@[simp] theorem State.countStatus_repair (st : BitVec 8) : (s.countStatus st).repair = s.repair := rfl
@[simp] theorem State.countStatus_tap (st : BitVec 8) : (s.countStatus st).tap = s.tap := rfl
@[simp] theorem State.countStatus_trace (st : BitVec 8) : (s.countStatus st).trace = s.trace := rfl
@[simp] theorem State.countStatus_ports (st : BitVec 8) : (s.countStatus st).ports = s.ports := rfl
@[simp] theorem State.countStatus_out (st : BitVec 8) : (s.countStatus st).out = s.out := rfl
@[simp] theorem State.countStatus_pending (st : BitVec 8) : (s.countStatus st).pending = s.pending := rfl

/-! ### `State.toIfi` changes `egress` only -/

@[simp] theorem State.toIfi_elab (ch : EgCh) (t : Txn) : (s.toIfi ch t).elab_ = s.elab_ := rfl
@[simp] theorem State.toIfi_fuses (ch : EgCh) (t : Txn) : (s.toIfi ch t).fuses = s.fuses := rfl
@[simp] theorem State.toIfi_alm (ch : EgCh) (t : Txn) : (s.toIfi ch t).alm = s.alm := rfl
@[simp] theorem State.toIfi_tabs (ch : EgCh) (t : Txn) : (s.toIfi ch t).tabs = s.tabs := rfl
@[simp] theorem State.toIfi_counts (ch : EgCh) (t : Txn) : (s.toIfi ch t).counts = s.counts := rfl
@[simp] theorem State.toIfi_now (ch : EgCh) (t : Txn) : (s.toIfi ch t).now = s.now := rfl
@[simp] theorem State.toIfi_strapDie (ch : EgCh) (t : Txn) : (s.toIfi ch t).strapDie = s.strapDie := rfl
@[simp] theorem State.toIfi_strapRole (ch : EgCh) (t : Txn) : (s.toIfi ch t).strapRole = s.strapRole := rfl
@[simp] theorem State.toIfi_strapPos (ch : EgCh) (t : Txn) : (s.toIfi ch t).strapPos = s.strapPos := rfl
@[simp] theorem State.toIfi_die (ch : EgCh) (t : Txn) : (s.toIfi ch t).die = s.die := rfl
@[simp] theorem State.toIfi_role (ch : EgCh) (t : Txn) : (s.toIfi ch t).role = s.role := rfl
@[simp] theorem State.toIfi_held (ch : EgCh) (t : Txn) : (s.toIfi ch t).held = s.held := rfl
@[simp] theorem State.toIfi_core (ch : EgCh) (t : Txn) : (s.toIfi ch t).core = s.core := rfl
@[simp] theorem State.toIfi_coreAt (ch : EgCh) (t : Txn) : (s.toIfi ch t).coreAt = s.coreAt := rfl
@[simp] theorem State.toIfi_resetAt (ch : EgCh) (t : Txn) : (s.toIfi ch t).resetAt = s.resetAt := rfl
@[simp] theorem State.toIfi_ifiReady (ch : EgCh) (t : Txn) : (s.toIfi ch t).ifiReady = s.ifiReady := rfl
@[simp] theorem State.toIfi_ifiWake (ch : EgCh) (t : Txn) : (s.toIfi ch t).ifiWake = s.ifiWake := rfl
@[simp] theorem State.toIfi_ingress (ch : EgCh) (t : Txn) : (s.toIfi ch t).ingress = s.ingress := rfl
@[simp] theorem State.toIfi_icr (ch : EgCh) (t : Txn) : (s.toIfi ch t).icr = s.icr := rfl
@[simp] theorem State.toIfi_ecr (ch : EgCh) (t : Txn) : (s.toIfi ch t).ecr = s.ecr := rfl
@[simp] theorem State.toIfi_evtOut (ch : EgCh) (t : Txn) : (s.toIfi ch t).evtOut = s.evtOut := rfl
@[simp] theorem State.toIfi_evtCr (ch : EgCh) (t : Txn) : (s.toIfi ch t).evtCr = s.evtCr := rfl
@[simp] theorem State.toIfi_evtIcr (ch : EgCh) (t : Txn) : (s.toIfi ch t).evtIcr = s.evtIcr := rfl
@[simp] theorem State.toIfi_irqs (ch : EgCh) (t : Txn) : (s.toIfi ch t).irqs = s.irqs := rfl
@[simp] theorem State.toIfi_rr (ch : EgCh) (t : Txn) : (s.toIfi ch t).rr = s.rr := rfl
@[simp] theorem State.toIfi_cfg (ch : EgCh) (t : Txn) : (s.toIfi ch t).cfg = s.cfg := rfl
@[simp] theorem State.toIfi_xfers (ch : EgCh) (t : Txn) : (s.toIfi ch t).xfers = s.xfers := rfl
@[simp] theorem State.toIfi_sup (ch : EgCh) (t : Txn) : (s.toIfi ch t).sup = s.sup := rfl
@[simp] theorem State.toIfi_ring (ch : EgCh) (t : Txn) : (s.toIfi ch t).ring = s.ring := rfl
@[simp] theorem State.toIfi_svc (ch : EgCh) (t : Txn) : (s.toIfi ch t).svc = s.svc := rfl
@[simp] theorem State.toIfi_therm (ch : EgCh) (t : Txn) : (s.toIfi ch t).therm = s.therm := rfl
@[simp] theorem State.toIfi_sch (ch : EgCh) (t : Txn) : (s.toIfi ch t).sch = s.sch := rfl
@[simp] theorem State.toIfi_sems (ch : EgCh) (t : Txn) : (s.toIfi ch t).sems = s.sems := rfl
@[simp] theorem State.toIfi_ownQ (ch : EgCh) (t : Txn) : (s.toIfi ch t).ownQ = s.ownQ := rfl
@[simp] theorem State.toIfi_localTags (ch : EgCh) (t : Txn) : (s.toIfi ch t).localTags = s.localTags := rfl
@[simp] theorem State.toIfi_ord (ch : EgCh) (t : Txn) : (s.toIfi ch t).ord = s.ord := rfl
@[simp] theorem State.toIfi_inbOut (ch : EgCh) (t : Txn) : (s.toIfi ch t).inbOut = s.inbOut := rfl
@[simp] theorem State.toIfi_seqNo (ch : EgCh) (t : Txn) : (s.toIfi ch t).seqNo = s.seqNo := rfl
@[simp] theorem State.toIfi_rlc (ch : EgCh) (t : Txn) : (s.toIfi ch t).rlc = s.rlc := rfl
@[simp] theorem State.toIfi_home (ch : EgCh) (t : Txn) : (s.toIfi ch t).home = s.home := rfl
@[simp] theorem State.toIfi_ifr (ch : EgCh) (t : Txn) : (s.toIfi ch t).ifr = s.ifr := rfl
@[simp] theorem State.toIfi_ten (ch : EgCh) (t : Txn) : (s.toIfi ch t).ten = s.ten := rfl
@[simp] theorem State.toIfi_twins (ch : EgCh) (t : Txn) : (s.toIfi ch t).twins = s.twins := rfl
@[simp] theorem State.toIfi_fw (ch : EgCh) (t : Txn) : (s.toIfi ch t).fw = s.fw := rfl
@[simp] theorem State.toIfi_repair (ch : EgCh) (t : Txn) : (s.toIfi ch t).repair = s.repair := rfl
@[simp] theorem State.toIfi_tap (ch : EgCh) (t : Txn) : (s.toIfi ch t).tap = s.tap := rfl
@[simp] theorem State.toIfi_trace (ch : EgCh) (t : Txn) : (s.toIfi ch t).trace = s.trace := rfl
@[simp] theorem State.toIfi_ports (ch : EgCh) (t : Txn) : (s.toIfi ch t).ports = s.ports := rfl
@[simp] theorem State.toIfi_out (ch : EgCh) (t : Txn) : (s.toIfi ch t).out = s.out := rfl
@[simp] theorem State.toIfi_pending (ch : EgCh) (t : Txn) : (s.toIfi ch t).pending = s.pending := rfl

/-! ### `State.modPair` changes `twins` only -/

@[simp] theorem State.modPair_elab (k : Nat) (f : Pair → Pair) : (s.modPair k f).elab_ = s.elab_ := rfl
@[simp] theorem State.modPair_fuses (k : Nat) (f : Pair → Pair) : (s.modPair k f).fuses = s.fuses := rfl
@[simp] theorem State.modPair_alm (k : Nat) (f : Pair → Pair) : (s.modPair k f).alm = s.alm := rfl
@[simp] theorem State.modPair_tabs (k : Nat) (f : Pair → Pair) : (s.modPair k f).tabs = s.tabs := rfl
@[simp] theorem State.modPair_counts (k : Nat) (f : Pair → Pair) : (s.modPair k f).counts = s.counts := rfl
@[simp] theorem State.modPair_now (k : Nat) (f : Pair → Pair) : (s.modPair k f).now = s.now := rfl
@[simp] theorem State.modPair_strapDie (k : Nat) (f : Pair → Pair) : (s.modPair k f).strapDie = s.strapDie := rfl
@[simp] theorem State.modPair_strapRole (k : Nat) (f : Pair → Pair) : (s.modPair k f).strapRole = s.strapRole := rfl
@[simp] theorem State.modPair_strapPos (k : Nat) (f : Pair → Pair) : (s.modPair k f).strapPos = s.strapPos := rfl
@[simp] theorem State.modPair_die (k : Nat) (f : Pair → Pair) : (s.modPair k f).die = s.die := rfl
@[simp] theorem State.modPair_role (k : Nat) (f : Pair → Pair) : (s.modPair k f).role = s.role := rfl
@[simp] theorem State.modPair_held (k : Nat) (f : Pair → Pair) : (s.modPair k f).held = s.held := rfl
@[simp] theorem State.modPair_core (k : Nat) (f : Pair → Pair) : (s.modPair k f).core = s.core := rfl
@[simp] theorem State.modPair_coreAt (k : Nat) (f : Pair → Pair) : (s.modPair k f).coreAt = s.coreAt := rfl
@[simp] theorem State.modPair_resetAt (k : Nat) (f : Pair → Pair) : (s.modPair k f).resetAt = s.resetAt := rfl
@[simp] theorem State.modPair_ifiReady (k : Nat) (f : Pair → Pair) : (s.modPair k f).ifiReady = s.ifiReady := rfl
@[simp] theorem State.modPair_ifiWake (k : Nat) (f : Pair → Pair) : (s.modPair k f).ifiWake = s.ifiWake := rfl
@[simp] theorem State.modPair_ingress (k : Nat) (f : Pair → Pair) : (s.modPair k f).ingress = s.ingress := rfl
@[simp] theorem State.modPair_egress (k : Nat) (f : Pair → Pair) : (s.modPair k f).egress = s.egress := rfl
@[simp] theorem State.modPair_icr (k : Nat) (f : Pair → Pair) : (s.modPair k f).icr = s.icr := rfl
@[simp] theorem State.modPair_ecr (k : Nat) (f : Pair → Pair) : (s.modPair k f).ecr = s.ecr := rfl
@[simp] theorem State.modPair_evtOut (k : Nat) (f : Pair → Pair) : (s.modPair k f).evtOut = s.evtOut := rfl
@[simp] theorem State.modPair_evtCr (k : Nat) (f : Pair → Pair) : (s.modPair k f).evtCr = s.evtCr := rfl
@[simp] theorem State.modPair_evtIcr (k : Nat) (f : Pair → Pair) : (s.modPair k f).evtIcr = s.evtIcr := rfl
@[simp] theorem State.modPair_irqs (k : Nat) (f : Pair → Pair) : (s.modPair k f).irqs = s.irqs := rfl
@[simp] theorem State.modPair_rr (k : Nat) (f : Pair → Pair) : (s.modPair k f).rr = s.rr := rfl
@[simp] theorem State.modPair_cfg (k : Nat) (f : Pair → Pair) : (s.modPair k f).cfg = s.cfg := rfl
@[simp] theorem State.modPair_xfers (k : Nat) (f : Pair → Pair) : (s.modPair k f).xfers = s.xfers := rfl
@[simp] theorem State.modPair_sup (k : Nat) (f : Pair → Pair) : (s.modPair k f).sup = s.sup := rfl
@[simp] theorem State.modPair_ring (k : Nat) (f : Pair → Pair) : (s.modPair k f).ring = s.ring := rfl
@[simp] theorem State.modPair_svc (k : Nat) (f : Pair → Pair) : (s.modPair k f).svc = s.svc := rfl
@[simp] theorem State.modPair_therm (k : Nat) (f : Pair → Pair) : (s.modPair k f).therm = s.therm := rfl
@[simp] theorem State.modPair_sch (k : Nat) (f : Pair → Pair) : (s.modPair k f).sch = s.sch := rfl
@[simp] theorem State.modPair_sems (k : Nat) (f : Pair → Pair) : (s.modPair k f).sems = s.sems := rfl
@[simp] theorem State.modPair_ownQ (k : Nat) (f : Pair → Pair) : (s.modPair k f).ownQ = s.ownQ := rfl
@[simp] theorem State.modPair_localTags (k : Nat) (f : Pair → Pair) : (s.modPair k f).localTags = s.localTags := rfl
@[simp] theorem State.modPair_ord (k : Nat) (f : Pair → Pair) : (s.modPair k f).ord = s.ord := rfl
@[simp] theorem State.modPair_inbOut (k : Nat) (f : Pair → Pair) : (s.modPair k f).inbOut = s.inbOut := rfl
@[simp] theorem State.modPair_seqNo (k : Nat) (f : Pair → Pair) : (s.modPair k f).seqNo = s.seqNo := rfl
@[simp] theorem State.modPair_rlc (k : Nat) (f : Pair → Pair) : (s.modPair k f).rlc = s.rlc := rfl
@[simp] theorem State.modPair_home (k : Nat) (f : Pair → Pair) : (s.modPair k f).home = s.home := rfl
@[simp] theorem State.modPair_ifr (k : Nat) (f : Pair → Pair) : (s.modPair k f).ifr = s.ifr := rfl
@[simp] theorem State.modPair_ten (k : Nat) (f : Pair → Pair) : (s.modPair k f).ten = s.ten := rfl
@[simp] theorem State.modPair_fw (k : Nat) (f : Pair → Pair) : (s.modPair k f).fw = s.fw := rfl
@[simp] theorem State.modPair_repair (k : Nat) (f : Pair → Pair) : (s.modPair k f).repair = s.repair := rfl
@[simp] theorem State.modPair_tap (k : Nat) (f : Pair → Pair) : (s.modPair k f).tap = s.tap := rfl
@[simp] theorem State.modPair_trace (k : Nat) (f : Pair → Pair) : (s.modPair k f).trace = s.trace := rfl
@[simp] theorem State.modPair_ports (k : Nat) (f : Pair → Pair) : (s.modPair k f).ports = s.ports := rfl
@[simp] theorem State.modPair_out (k : Nat) (f : Pair → Pair) : (s.modPair k f).out = s.out := rfl
@[simp] theorem State.modPair_pending (k : Nat) (f : Pair → Pair) : (s.modPair k f).pending = s.pending := rfl

/-! ### `State.creditLink` changes `ports` only -/

@[simp] theorem State.creditLink_elab (q v n : Nat) : (s.creditLink q v n).elab_ = s.elab_ := rfl
@[simp] theorem State.creditLink_fuses (q v n : Nat) : (s.creditLink q v n).fuses = s.fuses := rfl
@[simp] theorem State.creditLink_alm (q v n : Nat) : (s.creditLink q v n).alm = s.alm := rfl
@[simp] theorem State.creditLink_tabs (q v n : Nat) : (s.creditLink q v n).tabs = s.tabs := rfl
@[simp] theorem State.creditLink_counts (q v n : Nat) : (s.creditLink q v n).counts = s.counts := rfl
@[simp] theorem State.creditLink_now (q v n : Nat) : (s.creditLink q v n).now = s.now := rfl
@[simp] theorem State.creditLink_strapDie (q v n : Nat) : (s.creditLink q v n).strapDie = s.strapDie := rfl
@[simp] theorem State.creditLink_strapRole (q v n : Nat) : (s.creditLink q v n).strapRole = s.strapRole := rfl
@[simp] theorem State.creditLink_strapPos (q v n : Nat) : (s.creditLink q v n).strapPos = s.strapPos := rfl
@[simp] theorem State.creditLink_die (q v n : Nat) : (s.creditLink q v n).die = s.die := rfl
@[simp] theorem State.creditLink_role (q v n : Nat) : (s.creditLink q v n).role = s.role := rfl
@[simp] theorem State.creditLink_held (q v n : Nat) : (s.creditLink q v n).held = s.held := rfl
@[simp] theorem State.creditLink_core (q v n : Nat) : (s.creditLink q v n).core = s.core := rfl
@[simp] theorem State.creditLink_coreAt (q v n : Nat) : (s.creditLink q v n).coreAt = s.coreAt := rfl
@[simp] theorem State.creditLink_resetAt (q v n : Nat) : (s.creditLink q v n).resetAt = s.resetAt := rfl
@[simp] theorem State.creditLink_ifiReady (q v n : Nat) : (s.creditLink q v n).ifiReady = s.ifiReady := rfl
@[simp] theorem State.creditLink_ifiWake (q v n : Nat) : (s.creditLink q v n).ifiWake = s.ifiWake := rfl
@[simp] theorem State.creditLink_ingress (q v n : Nat) : (s.creditLink q v n).ingress = s.ingress := rfl
@[simp] theorem State.creditLink_egress (q v n : Nat) : (s.creditLink q v n).egress = s.egress := rfl
@[simp] theorem State.creditLink_icr (q v n : Nat) : (s.creditLink q v n).icr = s.icr := rfl
@[simp] theorem State.creditLink_ecr (q v n : Nat) : (s.creditLink q v n).ecr = s.ecr := rfl
@[simp] theorem State.creditLink_evtOut (q v n : Nat) : (s.creditLink q v n).evtOut = s.evtOut := rfl
@[simp] theorem State.creditLink_evtCr (q v n : Nat) : (s.creditLink q v n).evtCr = s.evtCr := rfl
@[simp] theorem State.creditLink_evtIcr (q v n : Nat) : (s.creditLink q v n).evtIcr = s.evtIcr := rfl
@[simp] theorem State.creditLink_irqs (q v n : Nat) : (s.creditLink q v n).irqs = s.irqs := rfl
@[simp] theorem State.creditLink_rr (q v n : Nat) : (s.creditLink q v n).rr = s.rr := rfl
@[simp] theorem State.creditLink_cfg (q v n : Nat) : (s.creditLink q v n).cfg = s.cfg := rfl
@[simp] theorem State.creditLink_xfers (q v n : Nat) : (s.creditLink q v n).xfers = s.xfers := rfl
@[simp] theorem State.creditLink_sup (q v n : Nat) : (s.creditLink q v n).sup = s.sup := rfl
@[simp] theorem State.creditLink_ring (q v n : Nat) : (s.creditLink q v n).ring = s.ring := rfl
@[simp] theorem State.creditLink_svc (q v n : Nat) : (s.creditLink q v n).svc = s.svc := rfl
@[simp] theorem State.creditLink_therm (q v n : Nat) : (s.creditLink q v n).therm = s.therm := rfl
@[simp] theorem State.creditLink_sch (q v n : Nat) : (s.creditLink q v n).sch = s.sch := rfl
@[simp] theorem State.creditLink_sems (q v n : Nat) : (s.creditLink q v n).sems = s.sems := rfl
@[simp] theorem State.creditLink_ownQ (q v n : Nat) : (s.creditLink q v n).ownQ = s.ownQ := rfl
@[simp] theorem State.creditLink_localTags (q v n : Nat) : (s.creditLink q v n).localTags = s.localTags := rfl
@[simp] theorem State.creditLink_ord (q v n : Nat) : (s.creditLink q v n).ord = s.ord := rfl
@[simp] theorem State.creditLink_inbOut (q v n : Nat) : (s.creditLink q v n).inbOut = s.inbOut := rfl
@[simp] theorem State.creditLink_seqNo (q v n : Nat) : (s.creditLink q v n).seqNo = s.seqNo := rfl
@[simp] theorem State.creditLink_rlc (q v n : Nat) : (s.creditLink q v n).rlc = s.rlc := rfl
@[simp] theorem State.creditLink_home (q v n : Nat) : (s.creditLink q v n).home = s.home := rfl
@[simp] theorem State.creditLink_ifr (q v n : Nat) : (s.creditLink q v n).ifr = s.ifr := rfl
@[simp] theorem State.creditLink_ten (q v n : Nat) : (s.creditLink q v n).ten = s.ten := rfl
@[simp] theorem State.creditLink_twins (q v n : Nat) : (s.creditLink q v n).twins = s.twins := rfl
@[simp] theorem State.creditLink_fw (q v n : Nat) : (s.creditLink q v n).fw = s.fw := rfl
@[simp] theorem State.creditLink_repair (q v n : Nat) : (s.creditLink q v n).repair = s.repair := rfl
@[simp] theorem State.creditLink_tap (q v n : Nat) : (s.creditLink q v n).tap = s.tap := rfl
@[simp] theorem State.creditLink_trace (q v n : Nat) : (s.creditLink q v n).trace = s.trace := rfl
@[simp] theorem State.creditLink_out (q v n : Nat) : (s.creditLink q v n).out = s.out := rfl
@[simp] theorem State.creditLink_pending (q v n : Nat) : (s.creditLink q v n).pending = s.pending := rfl

/-! ### `State.bumpSeq` changes `seqNo` only -/

@[simp] theorem State.bumpSeq_elab  : (s.bumpSeq).elab_ = s.elab_ := rfl
@[simp] theorem State.bumpSeq_fuses  : (s.bumpSeq).fuses = s.fuses := rfl
@[simp] theorem State.bumpSeq_alm  : (s.bumpSeq).alm = s.alm := rfl
@[simp] theorem State.bumpSeq_tabs  : (s.bumpSeq).tabs = s.tabs := rfl
@[simp] theorem State.bumpSeq_counts  : (s.bumpSeq).counts = s.counts := rfl
@[simp] theorem State.bumpSeq_now  : (s.bumpSeq).now = s.now := rfl
@[simp] theorem State.bumpSeq_strapDie  : (s.bumpSeq).strapDie = s.strapDie := rfl
@[simp] theorem State.bumpSeq_strapRole  : (s.bumpSeq).strapRole = s.strapRole := rfl
@[simp] theorem State.bumpSeq_strapPos  : (s.bumpSeq).strapPos = s.strapPos := rfl
@[simp] theorem State.bumpSeq_die  : (s.bumpSeq).die = s.die := rfl
@[simp] theorem State.bumpSeq_role  : (s.bumpSeq).role = s.role := rfl
@[simp] theorem State.bumpSeq_held  : (s.bumpSeq).held = s.held := rfl
@[simp] theorem State.bumpSeq_core  : (s.bumpSeq).core = s.core := rfl
@[simp] theorem State.bumpSeq_coreAt  : (s.bumpSeq).coreAt = s.coreAt := rfl
@[simp] theorem State.bumpSeq_resetAt  : (s.bumpSeq).resetAt = s.resetAt := rfl
@[simp] theorem State.bumpSeq_ifiReady  : (s.bumpSeq).ifiReady = s.ifiReady := rfl
@[simp] theorem State.bumpSeq_ifiWake  : (s.bumpSeq).ifiWake = s.ifiWake := rfl
@[simp] theorem State.bumpSeq_ingress  : (s.bumpSeq).ingress = s.ingress := rfl
@[simp] theorem State.bumpSeq_egress  : (s.bumpSeq).egress = s.egress := rfl
@[simp] theorem State.bumpSeq_icr  : (s.bumpSeq).icr = s.icr := rfl
@[simp] theorem State.bumpSeq_ecr  : (s.bumpSeq).ecr = s.ecr := rfl
@[simp] theorem State.bumpSeq_evtOut  : (s.bumpSeq).evtOut = s.evtOut := rfl
@[simp] theorem State.bumpSeq_evtCr  : (s.bumpSeq).evtCr = s.evtCr := rfl
@[simp] theorem State.bumpSeq_evtIcr  : (s.bumpSeq).evtIcr = s.evtIcr := rfl
@[simp] theorem State.bumpSeq_irqs  : (s.bumpSeq).irqs = s.irqs := rfl
@[simp] theorem State.bumpSeq_rr  : (s.bumpSeq).rr = s.rr := rfl
@[simp] theorem State.bumpSeq_cfg  : (s.bumpSeq).cfg = s.cfg := rfl
@[simp] theorem State.bumpSeq_xfers  : (s.bumpSeq).xfers = s.xfers := rfl
@[simp] theorem State.bumpSeq_sup  : (s.bumpSeq).sup = s.sup := rfl
@[simp] theorem State.bumpSeq_ring  : (s.bumpSeq).ring = s.ring := rfl
@[simp] theorem State.bumpSeq_svc  : (s.bumpSeq).svc = s.svc := rfl
@[simp] theorem State.bumpSeq_therm  : (s.bumpSeq).therm = s.therm := rfl
@[simp] theorem State.bumpSeq_sch  : (s.bumpSeq).sch = s.sch := rfl
@[simp] theorem State.bumpSeq_sems  : (s.bumpSeq).sems = s.sems := rfl
@[simp] theorem State.bumpSeq_ownQ  : (s.bumpSeq).ownQ = s.ownQ := rfl
@[simp] theorem State.bumpSeq_localTags  : (s.bumpSeq).localTags = s.localTags := rfl
@[simp] theorem State.bumpSeq_ord  : (s.bumpSeq).ord = s.ord := rfl
@[simp] theorem State.bumpSeq_inbOut  : (s.bumpSeq).inbOut = s.inbOut := rfl
@[simp] theorem State.bumpSeq_rlc  : (s.bumpSeq).rlc = s.rlc := rfl
@[simp] theorem State.bumpSeq_home  : (s.bumpSeq).home = s.home := rfl
@[simp] theorem State.bumpSeq_ifr  : (s.bumpSeq).ifr = s.ifr := rfl
@[simp] theorem State.bumpSeq_ten  : (s.bumpSeq).ten = s.ten := rfl
@[simp] theorem State.bumpSeq_twins  : (s.bumpSeq).twins = s.twins := rfl
@[simp] theorem State.bumpSeq_fw  : (s.bumpSeq).fw = s.fw := rfl
@[simp] theorem State.bumpSeq_repair  : (s.bumpSeq).repair = s.repair := rfl
@[simp] theorem State.bumpSeq_tap  : (s.bumpSeq).tap = s.tap := rfl
@[simp] theorem State.bumpSeq_trace  : (s.bumpSeq).trace = s.trace := rfl
@[simp] theorem State.bumpSeq_ports  : (s.bumpSeq).ports = s.ports := rfl
@[simp] theorem State.bumpSeq_out  : (s.bumpSeq).out = s.out := rfl
@[simp] theorem State.bumpSeq_pending  : (s.bumpSeq).pending = s.pending := rfl

/-! ### `State.finish` changes `ord` only -/

@[simp] theorem State.finish_elab (n : Nat) : (s.finish n).elab_ = s.elab_ := rfl
@[simp] theorem State.finish_fuses (n : Nat) : (s.finish n).fuses = s.fuses := rfl
@[simp] theorem State.finish_alm (n : Nat) : (s.finish n).alm = s.alm := rfl
@[simp] theorem State.finish_tabs (n : Nat) : (s.finish n).tabs = s.tabs := rfl
@[simp] theorem State.finish_counts (n : Nat) : (s.finish n).counts = s.counts := rfl
@[simp] theorem State.finish_now (n : Nat) : (s.finish n).now = s.now := rfl
@[simp] theorem State.finish_strapDie (n : Nat) : (s.finish n).strapDie = s.strapDie := rfl
@[simp] theorem State.finish_strapRole (n : Nat) : (s.finish n).strapRole = s.strapRole := rfl
@[simp] theorem State.finish_strapPos (n : Nat) : (s.finish n).strapPos = s.strapPos := rfl
@[simp] theorem State.finish_die (n : Nat) : (s.finish n).die = s.die := rfl
@[simp] theorem State.finish_role (n : Nat) : (s.finish n).role = s.role := rfl
@[simp] theorem State.finish_held (n : Nat) : (s.finish n).held = s.held := rfl
@[simp] theorem State.finish_core (n : Nat) : (s.finish n).core = s.core := rfl
@[simp] theorem State.finish_coreAt (n : Nat) : (s.finish n).coreAt = s.coreAt := rfl
@[simp] theorem State.finish_resetAt (n : Nat) : (s.finish n).resetAt = s.resetAt := rfl
@[simp] theorem State.finish_ifiReady (n : Nat) : (s.finish n).ifiReady = s.ifiReady := rfl
@[simp] theorem State.finish_ifiWake (n : Nat) : (s.finish n).ifiWake = s.ifiWake := rfl
@[simp] theorem State.finish_ingress (n : Nat) : (s.finish n).ingress = s.ingress := rfl
@[simp] theorem State.finish_egress (n : Nat) : (s.finish n).egress = s.egress := rfl
@[simp] theorem State.finish_icr (n : Nat) : (s.finish n).icr = s.icr := rfl
@[simp] theorem State.finish_ecr (n : Nat) : (s.finish n).ecr = s.ecr := rfl
@[simp] theorem State.finish_evtOut (n : Nat) : (s.finish n).evtOut = s.evtOut := rfl
@[simp] theorem State.finish_evtCr (n : Nat) : (s.finish n).evtCr = s.evtCr := rfl
@[simp] theorem State.finish_evtIcr (n : Nat) : (s.finish n).evtIcr = s.evtIcr := rfl
@[simp] theorem State.finish_irqs (n : Nat) : (s.finish n).irqs = s.irqs := rfl
@[simp] theorem State.finish_rr (n : Nat) : (s.finish n).rr = s.rr := rfl
@[simp] theorem State.finish_cfg (n : Nat) : (s.finish n).cfg = s.cfg := rfl
@[simp] theorem State.finish_xfers (n : Nat) : (s.finish n).xfers = s.xfers := rfl
@[simp] theorem State.finish_sup (n : Nat) : (s.finish n).sup = s.sup := rfl
@[simp] theorem State.finish_ring (n : Nat) : (s.finish n).ring = s.ring := rfl
@[simp] theorem State.finish_svc (n : Nat) : (s.finish n).svc = s.svc := rfl
@[simp] theorem State.finish_therm (n : Nat) : (s.finish n).therm = s.therm := rfl
@[simp] theorem State.finish_sch (n : Nat) : (s.finish n).sch = s.sch := rfl
@[simp] theorem State.finish_sems (n : Nat) : (s.finish n).sems = s.sems := rfl
@[simp] theorem State.finish_ownQ (n : Nat) : (s.finish n).ownQ = s.ownQ := rfl
@[simp] theorem State.finish_localTags (n : Nat) : (s.finish n).localTags = s.localTags := rfl
@[simp] theorem State.finish_inbOut (n : Nat) : (s.finish n).inbOut = s.inbOut := rfl
@[simp] theorem State.finish_seqNo (n : Nat) : (s.finish n).seqNo = s.seqNo := rfl
@[simp] theorem State.finish_rlc (n : Nat) : (s.finish n).rlc = s.rlc := rfl
@[simp] theorem State.finish_home (n : Nat) : (s.finish n).home = s.home := rfl
@[simp] theorem State.finish_ifr (n : Nat) : (s.finish n).ifr = s.ifr := rfl
@[simp] theorem State.finish_ten (n : Nat) : (s.finish n).ten = s.ten := rfl
@[simp] theorem State.finish_twins (n : Nat) : (s.finish n).twins = s.twins := rfl
@[simp] theorem State.finish_fw (n : Nat) : (s.finish n).fw = s.fw := rfl
@[simp] theorem State.finish_repair (n : Nat) : (s.finish n).repair = s.repair := rfl
@[simp] theorem State.finish_tap (n : Nat) : (s.finish n).tap = s.tap := rfl
@[simp] theorem State.finish_trace (n : Nat) : (s.finish n).trace = s.trace := rfl
@[simp] theorem State.finish_ports (n : Nat) : (s.finish n).ports = s.ports := rfl
@[simp] theorem State.finish_out (n : Nat) : (s.finish n).out = s.out := rfl
@[simp] theorem State.finish_pending (n : Nat) : (s.finish n).pending = s.pending := rfl

/-! ### `State.modTrace` changes `trace` only -/

@[simp] theorem State.modTrace_elab (f : Trace → Trace) : (s.modTrace f).elab_ = s.elab_ := rfl
@[simp] theorem State.modTrace_fuses (f : Trace → Trace) : (s.modTrace f).fuses = s.fuses := rfl
@[simp] theorem State.modTrace_alm (f : Trace → Trace) : (s.modTrace f).alm = s.alm := rfl
@[simp] theorem State.modTrace_tabs (f : Trace → Trace) : (s.modTrace f).tabs = s.tabs := rfl
@[simp] theorem State.modTrace_counts (f : Trace → Trace) : (s.modTrace f).counts = s.counts := rfl
@[simp] theorem State.modTrace_now (f : Trace → Trace) : (s.modTrace f).now = s.now := rfl
@[simp] theorem State.modTrace_strapDie (f : Trace → Trace) : (s.modTrace f).strapDie = s.strapDie := rfl
@[simp] theorem State.modTrace_strapRole (f : Trace → Trace) : (s.modTrace f).strapRole = s.strapRole := rfl
@[simp] theorem State.modTrace_strapPos (f : Trace → Trace) : (s.modTrace f).strapPos = s.strapPos := rfl
@[simp] theorem State.modTrace_die (f : Trace → Trace) : (s.modTrace f).die = s.die := rfl
@[simp] theorem State.modTrace_role (f : Trace → Trace) : (s.modTrace f).role = s.role := rfl
@[simp] theorem State.modTrace_held (f : Trace → Trace) : (s.modTrace f).held = s.held := rfl
@[simp] theorem State.modTrace_core (f : Trace → Trace) : (s.modTrace f).core = s.core := rfl
@[simp] theorem State.modTrace_coreAt (f : Trace → Trace) : (s.modTrace f).coreAt = s.coreAt := rfl
@[simp] theorem State.modTrace_resetAt (f : Trace → Trace) : (s.modTrace f).resetAt = s.resetAt := rfl
@[simp] theorem State.modTrace_ifiReady (f : Trace → Trace) : (s.modTrace f).ifiReady = s.ifiReady := rfl
@[simp] theorem State.modTrace_ifiWake (f : Trace → Trace) : (s.modTrace f).ifiWake = s.ifiWake := rfl
@[simp] theorem State.modTrace_ingress (f : Trace → Trace) : (s.modTrace f).ingress = s.ingress := rfl
@[simp] theorem State.modTrace_egress (f : Trace → Trace) : (s.modTrace f).egress = s.egress := rfl
@[simp] theorem State.modTrace_icr (f : Trace → Trace) : (s.modTrace f).icr = s.icr := rfl
@[simp] theorem State.modTrace_ecr (f : Trace → Trace) : (s.modTrace f).ecr = s.ecr := rfl
@[simp] theorem State.modTrace_evtOut (f : Trace → Trace) : (s.modTrace f).evtOut = s.evtOut := rfl
@[simp] theorem State.modTrace_evtCr (f : Trace → Trace) : (s.modTrace f).evtCr = s.evtCr := rfl
@[simp] theorem State.modTrace_evtIcr (f : Trace → Trace) : (s.modTrace f).evtIcr = s.evtIcr := rfl
@[simp] theorem State.modTrace_irqs (f : Trace → Trace) : (s.modTrace f).irqs = s.irqs := rfl
@[simp] theorem State.modTrace_rr (f : Trace → Trace) : (s.modTrace f).rr = s.rr := rfl
@[simp] theorem State.modTrace_cfg (f : Trace → Trace) : (s.modTrace f).cfg = s.cfg := rfl
@[simp] theorem State.modTrace_xfers (f : Trace → Trace) : (s.modTrace f).xfers = s.xfers := rfl
@[simp] theorem State.modTrace_sup (f : Trace → Trace) : (s.modTrace f).sup = s.sup := rfl
@[simp] theorem State.modTrace_ring (f : Trace → Trace) : (s.modTrace f).ring = s.ring := rfl
@[simp] theorem State.modTrace_svc (f : Trace → Trace) : (s.modTrace f).svc = s.svc := rfl
@[simp] theorem State.modTrace_therm (f : Trace → Trace) : (s.modTrace f).therm = s.therm := rfl
@[simp] theorem State.modTrace_sch (f : Trace → Trace) : (s.modTrace f).sch = s.sch := rfl
@[simp] theorem State.modTrace_sems (f : Trace → Trace) : (s.modTrace f).sems = s.sems := rfl
@[simp] theorem State.modTrace_ownQ (f : Trace → Trace) : (s.modTrace f).ownQ = s.ownQ := rfl
@[simp] theorem State.modTrace_localTags (f : Trace → Trace) : (s.modTrace f).localTags = s.localTags := rfl
@[simp] theorem State.modTrace_ord (f : Trace → Trace) : (s.modTrace f).ord = s.ord := rfl
@[simp] theorem State.modTrace_inbOut (f : Trace → Trace) : (s.modTrace f).inbOut = s.inbOut := rfl
@[simp] theorem State.modTrace_seqNo (f : Trace → Trace) : (s.modTrace f).seqNo = s.seqNo := rfl
@[simp] theorem State.modTrace_rlc (f : Trace → Trace) : (s.modTrace f).rlc = s.rlc := rfl
@[simp] theorem State.modTrace_home (f : Trace → Trace) : (s.modTrace f).home = s.home := rfl
@[simp] theorem State.modTrace_ifr (f : Trace → Trace) : (s.modTrace f).ifr = s.ifr := rfl
@[simp] theorem State.modTrace_ten (f : Trace → Trace) : (s.modTrace f).ten = s.ten := rfl
@[simp] theorem State.modTrace_twins (f : Trace → Trace) : (s.modTrace f).twins = s.twins := rfl
@[simp] theorem State.modTrace_fw (f : Trace → Trace) : (s.modTrace f).fw = s.fw := rfl
@[simp] theorem State.modTrace_repair (f : Trace → Trace) : (s.modTrace f).repair = s.repair := rfl
@[simp] theorem State.modTrace_tap (f : Trace → Trace) : (s.modTrace f).tap = s.tap := rfl
@[simp] theorem State.modTrace_ports (f : Trace → Trace) : (s.modTrace f).ports = s.ports := rfl
@[simp] theorem State.modTrace_out (f : Trace → Trace) : (s.modTrace f).out = s.out := rfl
@[simp] theorem State.modTrace_pending (f : Trace → Trace) : (s.modTrace f).pending = s.pending := rfl

/-! ### `State.modCfg` changes `cfg` only -/

@[simp] theorem State.modCfg_elab (f : CfgWindow → CfgWindow) : (s.modCfg f).elab_ = s.elab_ := rfl
@[simp] theorem State.modCfg_fuses (f : CfgWindow → CfgWindow) : (s.modCfg f).fuses = s.fuses := rfl
@[simp] theorem State.modCfg_alm (f : CfgWindow → CfgWindow) : (s.modCfg f).alm = s.alm := rfl
@[simp] theorem State.modCfg_tabs (f : CfgWindow → CfgWindow) : (s.modCfg f).tabs = s.tabs := rfl
@[simp] theorem State.modCfg_counts (f : CfgWindow → CfgWindow) : (s.modCfg f).counts = s.counts := rfl
@[simp] theorem State.modCfg_now (f : CfgWindow → CfgWindow) : (s.modCfg f).now = s.now := rfl
@[simp] theorem State.modCfg_strapDie (f : CfgWindow → CfgWindow) : (s.modCfg f).strapDie = s.strapDie := rfl
@[simp] theorem State.modCfg_strapRole (f : CfgWindow → CfgWindow) : (s.modCfg f).strapRole = s.strapRole := rfl
@[simp] theorem State.modCfg_strapPos (f : CfgWindow → CfgWindow) : (s.modCfg f).strapPos = s.strapPos := rfl
@[simp] theorem State.modCfg_die (f : CfgWindow → CfgWindow) : (s.modCfg f).die = s.die := rfl
@[simp] theorem State.modCfg_role (f : CfgWindow → CfgWindow) : (s.modCfg f).role = s.role := rfl
@[simp] theorem State.modCfg_held (f : CfgWindow → CfgWindow) : (s.modCfg f).held = s.held := rfl
@[simp] theorem State.modCfg_core (f : CfgWindow → CfgWindow) : (s.modCfg f).core = s.core := rfl
@[simp] theorem State.modCfg_coreAt (f : CfgWindow → CfgWindow) : (s.modCfg f).coreAt = s.coreAt := rfl
@[simp] theorem State.modCfg_resetAt (f : CfgWindow → CfgWindow) : (s.modCfg f).resetAt = s.resetAt := rfl
@[simp] theorem State.modCfg_ifiReady (f : CfgWindow → CfgWindow) : (s.modCfg f).ifiReady = s.ifiReady := rfl
@[simp] theorem State.modCfg_ifiWake (f : CfgWindow → CfgWindow) : (s.modCfg f).ifiWake = s.ifiWake := rfl
@[simp] theorem State.modCfg_ingress (f : CfgWindow → CfgWindow) : (s.modCfg f).ingress = s.ingress := rfl
@[simp] theorem State.modCfg_egress (f : CfgWindow → CfgWindow) : (s.modCfg f).egress = s.egress := rfl
@[simp] theorem State.modCfg_icr (f : CfgWindow → CfgWindow) : (s.modCfg f).icr = s.icr := rfl
@[simp] theorem State.modCfg_ecr (f : CfgWindow → CfgWindow) : (s.modCfg f).ecr = s.ecr := rfl
@[simp] theorem State.modCfg_evtOut (f : CfgWindow → CfgWindow) : (s.modCfg f).evtOut = s.evtOut := rfl
@[simp] theorem State.modCfg_evtCr (f : CfgWindow → CfgWindow) : (s.modCfg f).evtCr = s.evtCr := rfl
@[simp] theorem State.modCfg_evtIcr (f : CfgWindow → CfgWindow) : (s.modCfg f).evtIcr = s.evtIcr := rfl
@[simp] theorem State.modCfg_irqs (f : CfgWindow → CfgWindow) : (s.modCfg f).irqs = s.irqs := rfl
@[simp] theorem State.modCfg_rr (f : CfgWindow → CfgWindow) : (s.modCfg f).rr = s.rr := rfl
@[simp] theorem State.modCfg_xfers (f : CfgWindow → CfgWindow) : (s.modCfg f).xfers = s.xfers := rfl
@[simp] theorem State.modCfg_sup (f : CfgWindow → CfgWindow) : (s.modCfg f).sup = s.sup := rfl
@[simp] theorem State.modCfg_ring (f : CfgWindow → CfgWindow) : (s.modCfg f).ring = s.ring := rfl
@[simp] theorem State.modCfg_svc (f : CfgWindow → CfgWindow) : (s.modCfg f).svc = s.svc := rfl
@[simp] theorem State.modCfg_therm (f : CfgWindow → CfgWindow) : (s.modCfg f).therm = s.therm := rfl
@[simp] theorem State.modCfg_sch (f : CfgWindow → CfgWindow) : (s.modCfg f).sch = s.sch := rfl
@[simp] theorem State.modCfg_sems (f : CfgWindow → CfgWindow) : (s.modCfg f).sems = s.sems := rfl
@[simp] theorem State.modCfg_ownQ (f : CfgWindow → CfgWindow) : (s.modCfg f).ownQ = s.ownQ := rfl
@[simp] theorem State.modCfg_localTags (f : CfgWindow → CfgWindow) : (s.modCfg f).localTags = s.localTags := rfl
@[simp] theorem State.modCfg_ord (f : CfgWindow → CfgWindow) : (s.modCfg f).ord = s.ord := rfl
@[simp] theorem State.modCfg_inbOut (f : CfgWindow → CfgWindow) : (s.modCfg f).inbOut = s.inbOut := rfl
@[simp] theorem State.modCfg_seqNo (f : CfgWindow → CfgWindow) : (s.modCfg f).seqNo = s.seqNo := rfl
@[simp] theorem State.modCfg_rlc (f : CfgWindow → CfgWindow) : (s.modCfg f).rlc = s.rlc := rfl
@[simp] theorem State.modCfg_home (f : CfgWindow → CfgWindow) : (s.modCfg f).home = s.home := rfl
@[simp] theorem State.modCfg_ifr (f : CfgWindow → CfgWindow) : (s.modCfg f).ifr = s.ifr := rfl
@[simp] theorem State.modCfg_ten (f : CfgWindow → CfgWindow) : (s.modCfg f).ten = s.ten := rfl
@[simp] theorem State.modCfg_twins (f : CfgWindow → CfgWindow) : (s.modCfg f).twins = s.twins := rfl
@[simp] theorem State.modCfg_fw (f : CfgWindow → CfgWindow) : (s.modCfg f).fw = s.fw := rfl
@[simp] theorem State.modCfg_repair (f : CfgWindow → CfgWindow) : (s.modCfg f).repair = s.repair := rfl
@[simp] theorem State.modCfg_tap (f : CfgWindow → CfgWindow) : (s.modCfg f).tap = s.tap := rfl
@[simp] theorem State.modCfg_trace (f : CfgWindow → CfgWindow) : (s.modCfg f).trace = s.trace := rfl
@[simp] theorem State.modCfg_ports (f : CfgWindow → CfgWindow) : (s.modCfg f).ports = s.ports := rfl
@[simp] theorem State.modCfg_out (f : CfgWindow → CfgWindow) : (s.modCfg f).out = s.out := rfl
@[simp] theorem State.modCfg_pending (f : CfgWindow → CfgWindow) : (s.modCfg f).pending = s.pending := rfl

/-! ### `State.modRing` changes `ring` only -/

@[simp] theorem State.modRing_elab (f : RingAgent → RingAgent) : (s.modRing f).elab_ = s.elab_ := rfl
@[simp] theorem State.modRing_fuses (f : RingAgent → RingAgent) : (s.modRing f).fuses = s.fuses := rfl
@[simp] theorem State.modRing_alm (f : RingAgent → RingAgent) : (s.modRing f).alm = s.alm := rfl
@[simp] theorem State.modRing_tabs (f : RingAgent → RingAgent) : (s.modRing f).tabs = s.tabs := rfl
@[simp] theorem State.modRing_counts (f : RingAgent → RingAgent) : (s.modRing f).counts = s.counts := rfl
@[simp] theorem State.modRing_now (f : RingAgent → RingAgent) : (s.modRing f).now = s.now := rfl
@[simp] theorem State.modRing_strapDie (f : RingAgent → RingAgent) : (s.modRing f).strapDie = s.strapDie := rfl
@[simp] theorem State.modRing_strapRole (f : RingAgent → RingAgent) : (s.modRing f).strapRole = s.strapRole := rfl
@[simp] theorem State.modRing_strapPos (f : RingAgent → RingAgent) : (s.modRing f).strapPos = s.strapPos := rfl
@[simp] theorem State.modRing_die (f : RingAgent → RingAgent) : (s.modRing f).die = s.die := rfl
@[simp] theorem State.modRing_role (f : RingAgent → RingAgent) : (s.modRing f).role = s.role := rfl
@[simp] theorem State.modRing_held (f : RingAgent → RingAgent) : (s.modRing f).held = s.held := rfl
@[simp] theorem State.modRing_core (f : RingAgent → RingAgent) : (s.modRing f).core = s.core := rfl
@[simp] theorem State.modRing_coreAt (f : RingAgent → RingAgent) : (s.modRing f).coreAt = s.coreAt := rfl
@[simp] theorem State.modRing_resetAt (f : RingAgent → RingAgent) : (s.modRing f).resetAt = s.resetAt := rfl
@[simp] theorem State.modRing_ifiReady (f : RingAgent → RingAgent) : (s.modRing f).ifiReady = s.ifiReady := rfl
@[simp] theorem State.modRing_ifiWake (f : RingAgent → RingAgent) : (s.modRing f).ifiWake = s.ifiWake := rfl
@[simp] theorem State.modRing_ingress (f : RingAgent → RingAgent) : (s.modRing f).ingress = s.ingress := rfl
@[simp] theorem State.modRing_egress (f : RingAgent → RingAgent) : (s.modRing f).egress = s.egress := rfl
@[simp] theorem State.modRing_icr (f : RingAgent → RingAgent) : (s.modRing f).icr = s.icr := rfl
@[simp] theorem State.modRing_ecr (f : RingAgent → RingAgent) : (s.modRing f).ecr = s.ecr := rfl
@[simp] theorem State.modRing_evtOut (f : RingAgent → RingAgent) : (s.modRing f).evtOut = s.evtOut := rfl
@[simp] theorem State.modRing_evtCr (f : RingAgent → RingAgent) : (s.modRing f).evtCr = s.evtCr := rfl
@[simp] theorem State.modRing_evtIcr (f : RingAgent → RingAgent) : (s.modRing f).evtIcr = s.evtIcr := rfl
@[simp] theorem State.modRing_irqs (f : RingAgent → RingAgent) : (s.modRing f).irqs = s.irqs := rfl
@[simp] theorem State.modRing_rr (f : RingAgent → RingAgent) : (s.modRing f).rr = s.rr := rfl
@[simp] theorem State.modRing_cfg (f : RingAgent → RingAgent) : (s.modRing f).cfg = s.cfg := rfl
@[simp] theorem State.modRing_xfers (f : RingAgent → RingAgent) : (s.modRing f).xfers = s.xfers := rfl
@[simp] theorem State.modRing_sup (f : RingAgent → RingAgent) : (s.modRing f).sup = s.sup := rfl
@[simp] theorem State.modRing_svc (f : RingAgent → RingAgent) : (s.modRing f).svc = s.svc := rfl
@[simp] theorem State.modRing_therm (f : RingAgent → RingAgent) : (s.modRing f).therm = s.therm := rfl
@[simp] theorem State.modRing_sch (f : RingAgent → RingAgent) : (s.modRing f).sch = s.sch := rfl
@[simp] theorem State.modRing_sems (f : RingAgent → RingAgent) : (s.modRing f).sems = s.sems := rfl
@[simp] theorem State.modRing_ownQ (f : RingAgent → RingAgent) : (s.modRing f).ownQ = s.ownQ := rfl
@[simp] theorem State.modRing_localTags (f : RingAgent → RingAgent) : (s.modRing f).localTags = s.localTags := rfl
@[simp] theorem State.modRing_ord (f : RingAgent → RingAgent) : (s.modRing f).ord = s.ord := rfl
@[simp] theorem State.modRing_inbOut (f : RingAgent → RingAgent) : (s.modRing f).inbOut = s.inbOut := rfl
@[simp] theorem State.modRing_seqNo (f : RingAgent → RingAgent) : (s.modRing f).seqNo = s.seqNo := rfl
@[simp] theorem State.modRing_rlc (f : RingAgent → RingAgent) : (s.modRing f).rlc = s.rlc := rfl
@[simp] theorem State.modRing_home (f : RingAgent → RingAgent) : (s.modRing f).home = s.home := rfl
@[simp] theorem State.modRing_ifr (f : RingAgent → RingAgent) : (s.modRing f).ifr = s.ifr := rfl
@[simp] theorem State.modRing_ten (f : RingAgent → RingAgent) : (s.modRing f).ten = s.ten := rfl
@[simp] theorem State.modRing_twins (f : RingAgent → RingAgent) : (s.modRing f).twins = s.twins := rfl
@[simp] theorem State.modRing_fw (f : RingAgent → RingAgent) : (s.modRing f).fw = s.fw := rfl
@[simp] theorem State.modRing_repair (f : RingAgent → RingAgent) : (s.modRing f).repair = s.repair := rfl
@[simp] theorem State.modRing_tap (f : RingAgent → RingAgent) : (s.modRing f).tap = s.tap := rfl
@[simp] theorem State.modRing_trace (f : RingAgent → RingAgent) : (s.modRing f).trace = s.trace := rfl
@[simp] theorem State.modRing_ports (f : RingAgent → RingAgent) : (s.modRing f).ports = s.ports := rfl
@[simp] theorem State.modRing_out (f : RingAgent → RingAgent) : (s.modRing f).out = s.out := rfl
@[simp] theorem State.modRing_pending (f : RingAgent → RingAgent) : (s.modRing f).pending = s.pending := rfl

/-! ### `State.modHeld` changes `held` only -/

@[simp] theorem State.modHeld_elab (f : ResetsHeld → ResetsHeld) : (s.modHeld f).elab_ = s.elab_ := rfl
@[simp] theorem State.modHeld_fuses (f : ResetsHeld → ResetsHeld) : (s.modHeld f).fuses = s.fuses := rfl
@[simp] theorem State.modHeld_alm (f : ResetsHeld → ResetsHeld) : (s.modHeld f).alm = s.alm := rfl
@[simp] theorem State.modHeld_tabs (f : ResetsHeld → ResetsHeld) : (s.modHeld f).tabs = s.tabs := rfl
@[simp] theorem State.modHeld_counts (f : ResetsHeld → ResetsHeld) : (s.modHeld f).counts = s.counts := rfl
@[simp] theorem State.modHeld_now (f : ResetsHeld → ResetsHeld) : (s.modHeld f).now = s.now := rfl
@[simp] theorem State.modHeld_strapDie (f : ResetsHeld → ResetsHeld) : (s.modHeld f).strapDie = s.strapDie := rfl
@[simp] theorem State.modHeld_strapRole (f : ResetsHeld → ResetsHeld) : (s.modHeld f).strapRole = s.strapRole := rfl
@[simp] theorem State.modHeld_strapPos (f : ResetsHeld → ResetsHeld) : (s.modHeld f).strapPos = s.strapPos := rfl
@[simp] theorem State.modHeld_die (f : ResetsHeld → ResetsHeld) : (s.modHeld f).die = s.die := rfl
@[simp] theorem State.modHeld_role (f : ResetsHeld → ResetsHeld) : (s.modHeld f).role = s.role := rfl
@[simp] theorem State.modHeld_core (f : ResetsHeld → ResetsHeld) : (s.modHeld f).core = s.core := rfl
@[simp] theorem State.modHeld_coreAt (f : ResetsHeld → ResetsHeld) : (s.modHeld f).coreAt = s.coreAt := rfl
@[simp] theorem State.modHeld_resetAt (f : ResetsHeld → ResetsHeld) : (s.modHeld f).resetAt = s.resetAt := rfl
@[simp] theorem State.modHeld_ifiReady (f : ResetsHeld → ResetsHeld) : (s.modHeld f).ifiReady = s.ifiReady := rfl
@[simp] theorem State.modHeld_ifiWake (f : ResetsHeld → ResetsHeld) : (s.modHeld f).ifiWake = s.ifiWake := rfl
@[simp] theorem State.modHeld_ingress (f : ResetsHeld → ResetsHeld) : (s.modHeld f).ingress = s.ingress := rfl
@[simp] theorem State.modHeld_egress (f : ResetsHeld → ResetsHeld) : (s.modHeld f).egress = s.egress := rfl
@[simp] theorem State.modHeld_icr (f : ResetsHeld → ResetsHeld) : (s.modHeld f).icr = s.icr := rfl
@[simp] theorem State.modHeld_ecr (f : ResetsHeld → ResetsHeld) : (s.modHeld f).ecr = s.ecr := rfl
@[simp] theorem State.modHeld_evtOut (f : ResetsHeld → ResetsHeld) : (s.modHeld f).evtOut = s.evtOut := rfl
@[simp] theorem State.modHeld_evtCr (f : ResetsHeld → ResetsHeld) : (s.modHeld f).evtCr = s.evtCr := rfl
@[simp] theorem State.modHeld_evtIcr (f : ResetsHeld → ResetsHeld) : (s.modHeld f).evtIcr = s.evtIcr := rfl
@[simp] theorem State.modHeld_irqs (f : ResetsHeld → ResetsHeld) : (s.modHeld f).irqs = s.irqs := rfl
@[simp] theorem State.modHeld_rr (f : ResetsHeld → ResetsHeld) : (s.modHeld f).rr = s.rr := rfl
@[simp] theorem State.modHeld_cfg (f : ResetsHeld → ResetsHeld) : (s.modHeld f).cfg = s.cfg := rfl
@[simp] theorem State.modHeld_xfers (f : ResetsHeld → ResetsHeld) : (s.modHeld f).xfers = s.xfers := rfl
@[simp] theorem State.modHeld_sup (f : ResetsHeld → ResetsHeld) : (s.modHeld f).sup = s.sup := rfl
@[simp] theorem State.modHeld_ring (f : ResetsHeld → ResetsHeld) : (s.modHeld f).ring = s.ring := rfl
@[simp] theorem State.modHeld_svc (f : ResetsHeld → ResetsHeld) : (s.modHeld f).svc = s.svc := rfl
@[simp] theorem State.modHeld_therm (f : ResetsHeld → ResetsHeld) : (s.modHeld f).therm = s.therm := rfl
@[simp] theorem State.modHeld_sch (f : ResetsHeld → ResetsHeld) : (s.modHeld f).sch = s.sch := rfl
@[simp] theorem State.modHeld_sems (f : ResetsHeld → ResetsHeld) : (s.modHeld f).sems = s.sems := rfl
@[simp] theorem State.modHeld_ownQ (f : ResetsHeld → ResetsHeld) : (s.modHeld f).ownQ = s.ownQ := rfl
@[simp] theorem State.modHeld_localTags (f : ResetsHeld → ResetsHeld) : (s.modHeld f).localTags = s.localTags := rfl
@[simp] theorem State.modHeld_ord (f : ResetsHeld → ResetsHeld) : (s.modHeld f).ord = s.ord := rfl
@[simp] theorem State.modHeld_inbOut (f : ResetsHeld → ResetsHeld) : (s.modHeld f).inbOut = s.inbOut := rfl
@[simp] theorem State.modHeld_seqNo (f : ResetsHeld → ResetsHeld) : (s.modHeld f).seqNo = s.seqNo := rfl
@[simp] theorem State.modHeld_rlc (f : ResetsHeld → ResetsHeld) : (s.modHeld f).rlc = s.rlc := rfl
@[simp] theorem State.modHeld_home (f : ResetsHeld → ResetsHeld) : (s.modHeld f).home = s.home := rfl
@[simp] theorem State.modHeld_ifr (f : ResetsHeld → ResetsHeld) : (s.modHeld f).ifr = s.ifr := rfl
@[simp] theorem State.modHeld_ten (f : ResetsHeld → ResetsHeld) : (s.modHeld f).ten = s.ten := rfl
@[simp] theorem State.modHeld_twins (f : ResetsHeld → ResetsHeld) : (s.modHeld f).twins = s.twins := rfl
@[simp] theorem State.modHeld_fw (f : ResetsHeld → ResetsHeld) : (s.modHeld f).fw = s.fw := rfl
@[simp] theorem State.modHeld_repair (f : ResetsHeld → ResetsHeld) : (s.modHeld f).repair = s.repair := rfl
@[simp] theorem State.modHeld_tap (f : ResetsHeld → ResetsHeld) : (s.modHeld f).tap = s.tap := rfl
@[simp] theorem State.modHeld_trace (f : ResetsHeld → ResetsHeld) : (s.modHeld f).trace = s.trace := rfl
@[simp] theorem State.modHeld_ports (f : ResetsHeld → ResetsHeld) : (s.modHeld f).ports = s.ports := rfl
@[simp] theorem State.modHeld_out (f : ResetsHeld → ResetsHeld) : (s.modHeld f).out = s.out := rfl
@[simp] theorem State.modHeld_pending (f : ResetsHeld → ResetsHeld) : (s.modHeld f).pending = s.pending := rfl

/-! ### `State.modTap` changes `tap` only -/

@[simp] theorem State.modTap_elab (f : Tap → Tap) : (s.modTap f).elab_ = s.elab_ := rfl
@[simp] theorem State.modTap_fuses (f : Tap → Tap) : (s.modTap f).fuses = s.fuses := rfl
@[simp] theorem State.modTap_alm (f : Tap → Tap) : (s.modTap f).alm = s.alm := rfl
@[simp] theorem State.modTap_tabs (f : Tap → Tap) : (s.modTap f).tabs = s.tabs := rfl
@[simp] theorem State.modTap_counts (f : Tap → Tap) : (s.modTap f).counts = s.counts := rfl
@[simp] theorem State.modTap_now (f : Tap → Tap) : (s.modTap f).now = s.now := rfl
@[simp] theorem State.modTap_strapDie (f : Tap → Tap) : (s.modTap f).strapDie = s.strapDie := rfl
@[simp] theorem State.modTap_strapRole (f : Tap → Tap) : (s.modTap f).strapRole = s.strapRole := rfl
@[simp] theorem State.modTap_strapPos (f : Tap → Tap) : (s.modTap f).strapPos = s.strapPos := rfl
@[simp] theorem State.modTap_die (f : Tap → Tap) : (s.modTap f).die = s.die := rfl
@[simp] theorem State.modTap_role (f : Tap → Tap) : (s.modTap f).role = s.role := rfl
@[simp] theorem State.modTap_held (f : Tap → Tap) : (s.modTap f).held = s.held := rfl
@[simp] theorem State.modTap_core (f : Tap → Tap) : (s.modTap f).core = s.core := rfl
@[simp] theorem State.modTap_coreAt (f : Tap → Tap) : (s.modTap f).coreAt = s.coreAt := rfl
@[simp] theorem State.modTap_resetAt (f : Tap → Tap) : (s.modTap f).resetAt = s.resetAt := rfl
@[simp] theorem State.modTap_ifiReady (f : Tap → Tap) : (s.modTap f).ifiReady = s.ifiReady := rfl
@[simp] theorem State.modTap_ifiWake (f : Tap → Tap) : (s.modTap f).ifiWake = s.ifiWake := rfl
@[simp] theorem State.modTap_ingress (f : Tap → Tap) : (s.modTap f).ingress = s.ingress := rfl
@[simp] theorem State.modTap_egress (f : Tap → Tap) : (s.modTap f).egress = s.egress := rfl
@[simp] theorem State.modTap_icr (f : Tap → Tap) : (s.modTap f).icr = s.icr := rfl
@[simp] theorem State.modTap_ecr (f : Tap → Tap) : (s.modTap f).ecr = s.ecr := rfl
@[simp] theorem State.modTap_evtOut (f : Tap → Tap) : (s.modTap f).evtOut = s.evtOut := rfl
@[simp] theorem State.modTap_evtCr (f : Tap → Tap) : (s.modTap f).evtCr = s.evtCr := rfl
@[simp] theorem State.modTap_evtIcr (f : Tap → Tap) : (s.modTap f).evtIcr = s.evtIcr := rfl
@[simp] theorem State.modTap_irqs (f : Tap → Tap) : (s.modTap f).irqs = s.irqs := rfl
@[simp] theorem State.modTap_rr (f : Tap → Tap) : (s.modTap f).rr = s.rr := rfl
@[simp] theorem State.modTap_cfg (f : Tap → Tap) : (s.modTap f).cfg = s.cfg := rfl
@[simp] theorem State.modTap_xfers (f : Tap → Tap) : (s.modTap f).xfers = s.xfers := rfl
@[simp] theorem State.modTap_sup (f : Tap → Tap) : (s.modTap f).sup = s.sup := rfl
@[simp] theorem State.modTap_ring (f : Tap → Tap) : (s.modTap f).ring = s.ring := rfl
@[simp] theorem State.modTap_svc (f : Tap → Tap) : (s.modTap f).svc = s.svc := rfl
@[simp] theorem State.modTap_therm (f : Tap → Tap) : (s.modTap f).therm = s.therm := rfl
@[simp] theorem State.modTap_sch (f : Tap → Tap) : (s.modTap f).sch = s.sch := rfl
@[simp] theorem State.modTap_sems (f : Tap → Tap) : (s.modTap f).sems = s.sems := rfl
@[simp] theorem State.modTap_ownQ (f : Tap → Tap) : (s.modTap f).ownQ = s.ownQ := rfl
@[simp] theorem State.modTap_localTags (f : Tap → Tap) : (s.modTap f).localTags = s.localTags := rfl
@[simp] theorem State.modTap_ord (f : Tap → Tap) : (s.modTap f).ord = s.ord := rfl
@[simp] theorem State.modTap_inbOut (f : Tap → Tap) : (s.modTap f).inbOut = s.inbOut := rfl
@[simp] theorem State.modTap_seqNo (f : Tap → Tap) : (s.modTap f).seqNo = s.seqNo := rfl
@[simp] theorem State.modTap_rlc (f : Tap → Tap) : (s.modTap f).rlc = s.rlc := rfl
@[simp] theorem State.modTap_home (f : Tap → Tap) : (s.modTap f).home = s.home := rfl
@[simp] theorem State.modTap_ifr (f : Tap → Tap) : (s.modTap f).ifr = s.ifr := rfl
@[simp] theorem State.modTap_ten (f : Tap → Tap) : (s.modTap f).ten = s.ten := rfl
@[simp] theorem State.modTap_twins (f : Tap → Tap) : (s.modTap f).twins = s.twins := rfl
@[simp] theorem State.modTap_fw (f : Tap → Tap) : (s.modTap f).fw = s.fw := rfl
@[simp] theorem State.modTap_repair (f : Tap → Tap) : (s.modTap f).repair = s.repair := rfl
@[simp] theorem State.modTap_trace (f : Tap → Tap) : (s.modTap f).trace = s.trace := rfl
@[simp] theorem State.modTap_ports (f : Tap → Tap) : (s.modTap f).ports = s.ports := rfl
@[simp] theorem State.modTap_out (f : Tap → Tap) : (s.modTap f).out = s.out := rfl
@[simp] theorem State.modTap_pending (f : Tap → Tap) : (s.modTap f).pending = s.pending := rfl

/-! ### The changed fields -/

@[simp] theorem State.emit_out (o : Output) : (s.emit o).out = s.out ++ [o] := rfl
@[simp] theorem State.evt_evtOut (c : BitVec 8) (t : Ten) (a : BitVec 32) : (s.evt c t a).evtOut = s.evtOut ++ [(c, t, a)] := rfl
@[simp] theorem State.modCfg_cfg (f : CfgWindow → CfgWindow) : (s.modCfg f).cfg = f s.cfg := rfl
@[simp] theorem State.modRing_ring (f : RingAgent → RingAgent) : (s.modRing f).ring = f s.ring := rfl
@[simp] theorem State.modHeld_held (f : ResetsHeld → ResetsHeld) : (s.modHeld f).held = f s.held := rfl
@[simp] theorem State.modTap_tap (f : Tap → Tap) : (s.modTap f).tap = f s.tap := rfl
@[simp] theorem State.modTrace_trace (f : Trace → Trace) : (s.modTrace f).trace = f s.trace := rfl
@[simp] theorem State.toIfi_egress (ch : EgCh) (t : Txn) : (s.toIfi ch t).egress = s.egress ++ [(ch, { txn := t })] := rfl
@[simp] theorem State.setPort_ports (q : Nat) (p : Port) : (s.setPort q p).ports = setAt q p s.ports := rfl
@[simp] theorem State.modPort_ports (q : Nat) (f : Port → Port) : (s.modPort q f).ports = setAt q (f (s.port q)) s.ports := rfl

/-- A port reads as what was put in its place. -/
theorem State.port_modPort_same {q : Nat} (f : Port → Port) (h : q < s.ports.length) :
    (s.modPort q f).port q = f (s.port q) := setAt_getD_same h

/-- The other ports stay as they are. -/
theorem State.port_modPort_other {q r : Nat} (f : Port → Port) (h : r ≠ q) : (s.modPort q f).port r = s.port r :=
  setAt_getD_other _ _ _ h

end Sys2Proof.Machine
end

