-- ==== Sys2Proof/Laws/Ops.lean ====
section
/-!
SUPPORT. Everything that the shared operations can do: reading back a scalar entry, and what a trace event, an
interrupt cause, a service record, a credit return and a change of link state leave alone.
-/

namespace Sys2Proof.Machine
open Sys2Proof

variable {s : State}

/-! ### Scalar entries -/

theorem mgetD_mset_same {α : Type} (m : NMap α) (k : Nat) (v d : α) : mgetD (mset m k v) k d = v := by
  simp [mgetD]

theorem mgetD_mset_other {α : Type} (m : NMap α) {k j : Nat} (v d : α) (h : j ≠ k) :
    mgetD (mset m k v) j d = mgetD m j d := by
  simp [mgetD, mget_mset_other m v h]

theorem mgetD_mdel_same {α : Type} {m : NMap α} (h : mwf m = true) (k : Nat) (d : α) : mgetD (mdel m k) k d = d := by
  simp [mgetD, mget_mdel_same h]

theorem mgetD_mdel_other {α : Type} (m : NMap α) {k j : Nat} (d : α) (h : j ≠ k) :
    mgetD (mdel m k) j d = mgetD m j d := by
  simp [mgetD, mget_mdel_other m h]

/-- A scalar reads as what was stored. -/
theorem State.get_put_same (h : mwf s.alm = true) (i j d v : Nat) : (s.put i j d v).get i j d = v := by
  unfold State.put State.get
  split
  · rename_i e; subst e; exact mgetD_mdel_same h _ _
  · exact mgetD_mset_same _ _ _ _

/-- Another scalar reads as before. -/
theorem State.get_put_other (s : State) {i j i' j' : Nat} (d d' v : Nat) (h : ekey i' j' ≠ ekey i j) :
    (s.put i j d v).get i' j' d' = s.get i' j' d' := by
  unfold State.put State.get
  split
  · exact mgetD_mdel_other _ _ h
  · exact mgetD_mset_other _ _ _ h

theorem State.get_bump_same (h : mwf s.alm = true) (i j n : Nat) :
    (s.bump i j n).get i j 0 = satAdd 32 (s.get i j 0) n := State.get_put_same h _ _ _ _

theorem State.get_bump_other (s : State) {i j i' j' : Nat} (n d' : Nat) (h : ekey i' j' ≠ ekey i j) :
    (s.bump i j n).get i' j' d' = s.get i' j' d' := State.get_put_other s _ _ _ h

theorem State.get_bump64_same (h : mwf s.alm = true) (i j n : Nat) :
    (s.bump64 i j n).get i j 0 = satAdd 64 (s.get i j 0) n := State.get_put_same h _ _ _ _

theorem State.get_bump64_other (s : State) {i j i' j' : Nat} (n d' : Nat) (h : ekey i' j' ≠ ekey i j) :
    (s.bump64 i j n).get i' j' d' = s.get i' j' d' := State.get_put_other s _ _ _ h

/-- A scalar is found in `alm` alone. -/
theorem State.get_congr {s t : State} (h : t.alm = s.alm) (i j d : Nat) : t.get i j d = s.get i j d := by
  unfold State.get; rw [h]

/-- A port's record is found in `ports` alone. -/
theorem State.port_congr {s t : State} (h : t.ports = s.ports) (q : Nat) : t.port q = s.port q := by
  unfold State.port; rw [h]

theorem put_mwf (h : mwf s.alm = true) (i j d v : Nat) : mwf (s.put i j d v).alm = true := by
  unfold State.put; dsimp only; split
  · exact mdel_wf h
  · exact mset_wf h

/-! ### Reading through the named updates -/

@[simp] theorem State.emit_get (s : State) (o : Output) (a₁ a₂ a₃ : Nat) : (s.emit o).get a₁ a₂ a₃ = s.get a₁ a₂ a₃ := rfl
@[simp] theorem State.emit_port (s : State) (o : Output) (r : Nat) : (s.emit o).port r = s.port r := rfl
@[simp] theorem State.evt_get (s : State) (c : BitVec 8) (t : Ten) (a : BitVec 32) (a₁ a₂ a₃ : Nat) : (s.evt c t a).get a₁ a₂ a₃ = s.get a₁ a₂ a₃ := rfl
@[simp] theorem State.evt_port (s : State) (c : BitVec 8) (t : Ten) (a : BitVec 32) (r : Nat) : (s.evt c t a).port r = s.port r := rfl
@[simp] theorem State.setPort_get (s : State) (q : Nat) (p : Port) (a₁ a₂ a₃ : Nat) : (s.setPort q p).get a₁ a₂ a₃ = s.get a₁ a₂ a₃ := rfl
@[simp] theorem State.modPort_get (s : State) (q : Nat) (f : Port → Port) (a₁ a₂ a₃ : Nat) : (s.modPort q f).get a₁ a₂ a₃ = s.get a₁ a₂ a₃ := rfl
@[simp] theorem State.modBundle_get (s : State) (q b : Nat) (f : Bundle → Bundle) (a₁ a₂ a₃ : Nat) : (s.modBundle q b f).get a₁ a₂ a₃ = s.get a₁ a₂ a₃ := rfl
@[simp] theorem State.modLane_get (s : State) (q l : Nat) (f : Lane → Lane) (a₁ a₂ a₃ : Nat) : (s.modLane q l f).get a₁ a₂ a₃ = s.get a₁ a₂ a₃ := rfl
@[simp] theorem State.put_port (s : State) (i j d v : Nat) (r : Nat) : (s.put i j d v).port r = s.port r := rfl
@[simp] theorem State.bump_port (s : State) (i j n : Nat) (r : Nat) : (s.bump i j n).port r = s.port r := rfl
@[simp] theorem State.bump64_port (s : State) (i j n : Nat) (r : Nat) : (s.bump64 i j n).port r = s.port r := rfl
@[simp] theorem State.pbump_port (s : State) (b q j n : Nat) (r : Nat) : (s.pbump b q j n).port r = s.port r := rfl
@[simp] theorem State.pbump64_port (s : State) (b q j n : Nat) (r : Nat) : (s.pbump64 b q j n).port r = s.port r := rfl
@[simp] theorem State.bumpCount_get (s : State) (k n : Nat) (a₁ a₂ a₃ : Nat) : (s.bumpCount k n).get a₁ a₂ a₃ = s.get a₁ a₂ a₃ := rfl
@[simp] theorem State.bumpCount_port (s : State) (k n : Nat) (r : Nat) : (s.bumpCount k n).port r = s.port r := rfl
@[simp] theorem State.countStatus_get (s : State) (st : BitVec 8) (a₁ a₂ a₃ : Nat) : (s.countStatus st).get a₁ a₂ a₃ = s.get a₁ a₂ a₃ := rfl
@[simp] theorem State.countStatus_port (s : State) (st : BitVec 8) (r : Nat) : (s.countStatus st).port r = s.port r := rfl
@[simp] theorem State.toIfi_get (s : State) (ch : EgCh) (t : Txn) (a₁ a₂ a₃ : Nat) : (s.toIfi ch t).get a₁ a₂ a₃ = s.get a₁ a₂ a₃ := rfl
@[simp] theorem State.toIfi_port (s : State) (ch : EgCh) (t : Txn) (r : Nat) : (s.toIfi ch t).port r = s.port r := rfl
@[simp] theorem State.modPair_get (s : State) (k : Nat) (f : Pair → Pair) (a₁ a₂ a₃ : Nat) : (s.modPair k f).get a₁ a₂ a₃ = s.get a₁ a₂ a₃ := rfl
@[simp] theorem State.modPair_port (s : State) (k : Nat) (f : Pair → Pair) (r : Nat) : (s.modPair k f).port r = s.port r := rfl
@[simp] theorem State.bumpSeq_get (s : State)  (a₁ a₂ a₃ : Nat) : (s.bumpSeq).get a₁ a₂ a₃ = s.get a₁ a₂ a₃ := rfl
@[simp] theorem State.bumpSeq_port (s : State)  (r : Nat) : (s.bumpSeq).port r = s.port r := rfl
@[simp] theorem State.finish_get (s : State) (n : Nat) (a₁ a₂ a₃ : Nat) : (s.finish n).get a₁ a₂ a₃ = s.get a₁ a₂ a₃ := rfl
@[simp] theorem State.finish_port (s : State) (n : Nat) (r : Nat) : (s.finish n).port r = s.port r := rfl
@[simp] theorem State.modTrace_get (s : State) (f : Trace → Trace) (a₁ a₂ a₃ : Nat) : (s.modTrace f).get a₁ a₂ a₃ = s.get a₁ a₂ a₃ := rfl
@[simp] theorem State.modTrace_port (s : State) (f : Trace → Trace) (r : Nat) : (s.modTrace f).port r = s.port r := rfl
@[simp] theorem State.modCfg_get (s : State) (f : CfgWindow → CfgWindow) (a₁ a₂ a₃ : Nat) : (s.modCfg f).get a₁ a₂ a₃ = s.get a₁ a₂ a₃ := rfl
@[simp] theorem State.modCfg_port (s : State) (f : CfgWindow → CfgWindow) (r : Nat) : (s.modCfg f).port r = s.port r := rfl
@[simp] theorem State.modRing_get (s : State) (f : RingAgent → RingAgent) (a₁ a₂ a₃ : Nat) : (s.modRing f).get a₁ a₂ a₃ = s.get a₁ a₂ a₃ := rfl
@[simp] theorem State.modRing_port (s : State) (f : RingAgent → RingAgent) (r : Nat) : (s.modRing f).port r = s.port r := rfl
@[simp] theorem State.modHeld_get (s : State) (f : ResetsHeld → ResetsHeld) (a₁ a₂ a₃ : Nat) : (s.modHeld f).get a₁ a₂ a₃ = s.get a₁ a₂ a₃ := rfl
@[simp] theorem State.modHeld_port (s : State) (f : ResetsHeld → ResetsHeld) (r : Nat) : (s.modHeld f).port r = s.port r := rfl
@[simp] theorem State.modTap_get (s : State) (f : Tap → Tap) (a₁ a₂ a₃ : Nat) : (s.modTap f).get a₁ a₂ a₃ = s.get a₁ a₂ a₃ := rfl
@[simp] theorem State.modTap_port (s : State) (f : Tap → Tap) (r : Nat) : (s.modTap f).port r = s.port r := rfl

/-! ### `State.tev` changes `trace` only -/

@[simp] theorem State.tev_elab (s : State) (kind port sub : Nat) (bad : Bool) (data : BitVec 64) : (s.tev kind port sub bad data).elab_ = s.elab_ := by
  unfold State.tev; split <;> rfl
@[simp] theorem State.tev_fuses (s : State) (kind port sub : Nat) (bad : Bool) (data : BitVec 64) : (s.tev kind port sub bad data).fuses = s.fuses := by
  unfold State.tev; split <;> rfl
@[simp] theorem State.tev_alm (s : State) (kind port sub : Nat) (bad : Bool) (data : BitVec 64) : (s.tev kind port sub bad data).alm = s.alm := by
  unfold State.tev; split <;> rfl
@[simp] theorem State.tev_tabs (s : State) (kind port sub : Nat) (bad : Bool) (data : BitVec 64) : (s.tev kind port sub bad data).tabs = s.tabs := by
  unfold State.tev; split <;> rfl
@[simp] theorem State.tev_counts (s : State) (kind port sub : Nat) (bad : Bool) (data : BitVec 64) : (s.tev kind port sub bad data).counts = s.counts := by
  unfold State.tev; split <;> rfl
@[simp] theorem State.tev_now (s : State) (kind port sub : Nat) (bad : Bool) (data : BitVec 64) : (s.tev kind port sub bad data).now = s.now := by
  unfold State.tev; split <;> rfl
@[simp] theorem State.tev_strapDie (s : State) (kind port sub : Nat) (bad : Bool) (data : BitVec 64) : (s.tev kind port sub bad data).strapDie = s.strapDie := by
  unfold State.tev; split <;> rfl
@[simp] theorem State.tev_strapRole (s : State) (kind port sub : Nat) (bad : Bool) (data : BitVec 64) : (s.tev kind port sub bad data).strapRole = s.strapRole := by
  unfold State.tev; split <;> rfl
@[simp] theorem State.tev_strapPos (s : State) (kind port sub : Nat) (bad : Bool) (data : BitVec 64) : (s.tev kind port sub bad data).strapPos = s.strapPos := by
  unfold State.tev; split <;> rfl
@[simp] theorem State.tev_die (s : State) (kind port sub : Nat) (bad : Bool) (data : BitVec 64) : (s.tev kind port sub bad data).die = s.die := by
  unfold State.tev; split <;> rfl
@[simp] theorem State.tev_role (s : State) (kind port sub : Nat) (bad : Bool) (data : BitVec 64) : (s.tev kind port sub bad data).role = s.role := by
  unfold State.tev; split <;> rfl
@[simp] theorem State.tev_held (s : State) (kind port sub : Nat) (bad : Bool) (data : BitVec 64) : (s.tev kind port sub bad data).held = s.held := by
  unfold State.tev; split <;> rfl
@[simp] theorem State.tev_core (s : State) (kind port sub : Nat) (bad : Bool) (data : BitVec 64) : (s.tev kind port sub bad data).core = s.core := by
  unfold State.tev; split <;> rfl
@[simp] theorem State.tev_coreAt (s : State) (kind port sub : Nat) (bad : Bool) (data : BitVec 64) : (s.tev kind port sub bad data).coreAt = s.coreAt := by
  unfold State.tev; split <;> rfl
@[simp] theorem State.tev_resetAt (s : State) (kind port sub : Nat) (bad : Bool) (data : BitVec 64) : (s.tev kind port sub bad data).resetAt = s.resetAt := by
  unfold State.tev; split <;> rfl
@[simp] theorem State.tev_ifiReady (s : State) (kind port sub : Nat) (bad : Bool) (data : BitVec 64) : (s.tev kind port sub bad data).ifiReady = s.ifiReady := by
  unfold State.tev; split <;> rfl
@[simp] theorem State.tev_ifiWake (s : State) (kind port sub : Nat) (bad : Bool) (data : BitVec 64) : (s.tev kind port sub bad data).ifiWake = s.ifiWake := by
  unfold State.tev; split <;> rfl
@[simp] theorem State.tev_ingress (s : State) (kind port sub : Nat) (bad : Bool) (data : BitVec 64) : (s.tev kind port sub bad data).ingress = s.ingress := by
  unfold State.tev; split <;> rfl
@[simp] theorem State.tev_egress (s : State) (kind port sub : Nat) (bad : Bool) (data : BitVec 64) : (s.tev kind port sub bad data).egress = s.egress := by
  unfold State.tev; split <;> rfl
@[simp] theorem State.tev_icr (s : State) (kind port sub : Nat) (bad : Bool) (data : BitVec 64) : (s.tev kind port sub bad data).icr = s.icr := by
  unfold State.tev; split <;> rfl
@[simp] theorem State.tev_ecr (s : State) (kind port sub : Nat) (bad : Bool) (data : BitVec 64) : (s.tev kind port sub bad data).ecr = s.ecr := by
  unfold State.tev; split <;> rfl
@[simp] theorem State.tev_evtOut (s : State) (kind port sub : Nat) (bad : Bool) (data : BitVec 64) : (s.tev kind port sub bad data).evtOut = s.evtOut := by
  unfold State.tev; split <;> rfl
@[simp] theorem State.tev_evtCr (s : State) (kind port sub : Nat) (bad : Bool) (data : BitVec 64) : (s.tev kind port sub bad data).evtCr = s.evtCr := by
  unfold State.tev; split <;> rfl
@[simp] theorem State.tev_evtIcr (s : State) (kind port sub : Nat) (bad : Bool) (data : BitVec 64) : (s.tev kind port sub bad data).evtIcr = s.evtIcr := by
  unfold State.tev; split <;> rfl
@[simp] theorem State.tev_irqs (s : State) (kind port sub : Nat) (bad : Bool) (data : BitVec 64) : (s.tev kind port sub bad data).irqs = s.irqs := by
  unfold State.tev; split <;> rfl
@[simp] theorem State.tev_rr (s : State) (kind port sub : Nat) (bad : Bool) (data : BitVec 64) : (s.tev kind port sub bad data).rr = s.rr := by
  unfold State.tev; split <;> rfl
@[simp] theorem State.tev_cfg (s : State) (kind port sub : Nat) (bad : Bool) (data : BitVec 64) : (s.tev kind port sub bad data).cfg = s.cfg := by
  unfold State.tev; split <;> rfl
@[simp] theorem State.tev_xfers (s : State) (kind port sub : Nat) (bad : Bool) (data : BitVec 64) : (s.tev kind port sub bad data).xfers = s.xfers := by
  unfold State.tev; split <;> rfl
@[simp] theorem State.tev_sup (s : State) (kind port sub : Nat) (bad : Bool) (data : BitVec 64) : (s.tev kind port sub bad data).sup = s.sup := by
  unfold State.tev; split <;> rfl
@[simp] theorem State.tev_ring (s : State) (kind port sub : Nat) (bad : Bool) (data : BitVec 64) : (s.tev kind port sub bad data).ring = s.ring := by
  unfold State.tev; split <;> rfl
@[simp] theorem State.tev_svc (s : State) (kind port sub : Nat) (bad : Bool) (data : BitVec 64) : (s.tev kind port sub bad data).svc = s.svc := by
  unfold State.tev; split <;> rfl
@[simp] theorem State.tev_therm (s : State) (kind port sub : Nat) (bad : Bool) (data : BitVec 64) : (s.tev kind port sub bad data).therm = s.therm := by
  unfold State.tev; split <;> rfl
@[simp] theorem State.tev_sch (s : State) (kind port sub : Nat) (bad : Bool) (data : BitVec 64) : (s.tev kind port sub bad data).sch = s.sch := by
  unfold State.tev; split <;> rfl
@[simp] theorem State.tev_sems (s : State) (kind port sub : Nat) (bad : Bool) (data : BitVec 64) : (s.tev kind port sub bad data).sems = s.sems := by
  unfold State.tev; split <;> rfl
@[simp] theorem State.tev_ownQ (s : State) (kind port sub : Nat) (bad : Bool) (data : BitVec 64) : (s.tev kind port sub bad data).ownQ = s.ownQ := by
  unfold State.tev; split <;> rfl
@[simp] theorem State.tev_localTags (s : State) (kind port sub : Nat) (bad : Bool) (data : BitVec 64) : (s.tev kind port sub bad data).localTags = s.localTags := by
  unfold State.tev; split <;> rfl
@[simp] theorem State.tev_ord (s : State) (kind port sub : Nat) (bad : Bool) (data : BitVec 64) : (s.tev kind port sub bad data).ord = s.ord := by
  unfold State.tev; split <;> rfl
@[simp] theorem State.tev_inbOut (s : State) (kind port sub : Nat) (bad : Bool) (data : BitVec 64) : (s.tev kind port sub bad data).inbOut = s.inbOut := by
  unfold State.tev; split <;> rfl
@[simp] theorem State.tev_seqNo (s : State) (kind port sub : Nat) (bad : Bool) (data : BitVec 64) : (s.tev kind port sub bad data).seqNo = s.seqNo := by
  unfold State.tev; split <;> rfl
@[simp] theorem State.tev_rlc (s : State) (kind port sub : Nat) (bad : Bool) (data : BitVec 64) : (s.tev kind port sub bad data).rlc = s.rlc := by
  unfold State.tev; split <;> rfl
@[simp] theorem State.tev_home (s : State) (kind port sub : Nat) (bad : Bool) (data : BitVec 64) : (s.tev kind port sub bad data).home = s.home := by
  unfold State.tev; split <;> rfl
@[simp] theorem State.tev_ifr (s : State) (kind port sub : Nat) (bad : Bool) (data : BitVec 64) : (s.tev kind port sub bad data).ifr = s.ifr := by
  unfold State.tev; split <;> rfl
@[simp] theorem State.tev_ten (s : State) (kind port sub : Nat) (bad : Bool) (data : BitVec 64) : (s.tev kind port sub bad data).ten = s.ten := by
  unfold State.tev; split <;> rfl
@[simp] theorem State.tev_twins (s : State) (kind port sub : Nat) (bad : Bool) (data : BitVec 64) : (s.tev kind port sub bad data).twins = s.twins := by
  unfold State.tev; split <;> rfl
@[simp] theorem State.tev_fw (s : State) (kind port sub : Nat) (bad : Bool) (data : BitVec 64) : (s.tev kind port sub bad data).fw = s.fw := by
  unfold State.tev; split <;> rfl
@[simp] theorem State.tev_repair (s : State) (kind port sub : Nat) (bad : Bool) (data : BitVec 64) : (s.tev kind port sub bad data).repair = s.repair := by
  unfold State.tev; split <;> rfl
@[simp] theorem State.tev_tap (s : State) (kind port sub : Nat) (bad : Bool) (data : BitVec 64) : (s.tev kind port sub bad data).tap = s.tap := by
  unfold State.tev; split <;> rfl
@[simp] theorem State.tev_ports (s : State) (kind port sub : Nat) (bad : Bool) (data : BitVec 64) : (s.tev kind port sub bad data).ports = s.ports := by
  unfold State.tev; split <;> rfl
@[simp] theorem State.tev_out (s : State) (kind port sub : Nat) (bad : Bool) (data : BitVec 64) : (s.tev kind port sub bad data).out = s.out := by
  unfold State.tev; split <;> rfl
@[simp] theorem State.tev_pending (s : State) (kind port sub : Nat) (bad : Bool) (data : BitVec 64) : (s.tev kind port sub bad data).pending = s.pending := by
  unfold State.tev; split <;> rfl
@[simp] theorem State.tev_get (s : State) (kind port sub : Nat) (bad : Bool) (data : BitVec 64) (a₁ a₂ a₃ : Nat) : (s.tev kind port sub bad data).get a₁ a₂ a₃ = s.get a₁ a₂ a₃ :=
  State.get_congr (State.tev_alm ..) _ _ _
@[simp] theorem State.tev_port (s : State) (kind port sub : Nat) (bad : Bool) (data : BitVec 64) (r : Nat) : (s.tev kind port sub bad data).port r = s.port r :=
  State.port_congr (State.tev_ports ..) _

/-! ### `State.irqEvent` changes `evtOut`, `irqs` only -/

@[simp] theorem State.irqEvent_elab (s : State) (a : BitVec 32) : (s.irqEvent a).elab_ = s.elab_ := by
  unfold State.irqEvent; split <;> rfl
@[simp] theorem State.irqEvent_fuses (s : State) (a : BitVec 32) : (s.irqEvent a).fuses = s.fuses := by
  unfold State.irqEvent; split <;> rfl
@[simp] theorem State.irqEvent_alm (s : State) (a : BitVec 32) : (s.irqEvent a).alm = s.alm := by
  unfold State.irqEvent; split <;> rfl
@[simp] theorem State.irqEvent_tabs (s : State) (a : BitVec 32) : (s.irqEvent a).tabs = s.tabs := by
  unfold State.irqEvent; split <;> rfl
@[simp] theorem State.irqEvent_counts (s : State) (a : BitVec 32) : (s.irqEvent a).counts = s.counts := by
  unfold State.irqEvent; split <;> rfl
@[simp] theorem State.irqEvent_now (s : State) (a : BitVec 32) : (s.irqEvent a).now = s.now := by
  unfold State.irqEvent; split <;> rfl
@[simp] theorem State.irqEvent_strapDie (s : State) (a : BitVec 32) : (s.irqEvent a).strapDie = s.strapDie := by
  unfold State.irqEvent; split <;> rfl
@[simp] theorem State.irqEvent_strapRole (s : State) (a : BitVec 32) : (s.irqEvent a).strapRole = s.strapRole := by
  unfold State.irqEvent; split <;> rfl
@[simp] theorem State.irqEvent_strapPos (s : State) (a : BitVec 32) : (s.irqEvent a).strapPos = s.strapPos := by
  unfold State.irqEvent; split <;> rfl
@[simp] theorem State.irqEvent_die (s : State) (a : BitVec 32) : (s.irqEvent a).die = s.die := by
  unfold State.irqEvent; split <;> rfl
@[simp] theorem State.irqEvent_role (s : State) (a : BitVec 32) : (s.irqEvent a).role = s.role := by
  unfold State.irqEvent; split <;> rfl
@[simp] theorem State.irqEvent_held (s : State) (a : BitVec 32) : (s.irqEvent a).held = s.held := by
  unfold State.irqEvent; split <;> rfl
@[simp] theorem State.irqEvent_core (s : State) (a : BitVec 32) : (s.irqEvent a).core = s.core := by
  unfold State.irqEvent; split <;> rfl
@[simp] theorem State.irqEvent_coreAt (s : State) (a : BitVec 32) : (s.irqEvent a).coreAt = s.coreAt := by
  unfold State.irqEvent; split <;> rfl
@[simp] theorem State.irqEvent_resetAt (s : State) (a : BitVec 32) : (s.irqEvent a).resetAt = s.resetAt := by
  unfold State.irqEvent; split <;> rfl
@[simp] theorem State.irqEvent_ifiReady (s : State) (a : BitVec 32) : (s.irqEvent a).ifiReady = s.ifiReady := by
  unfold State.irqEvent; split <;> rfl
@[simp] theorem State.irqEvent_ifiWake (s : State) (a : BitVec 32) : (s.irqEvent a).ifiWake = s.ifiWake := by
  unfold State.irqEvent; split <;> rfl
@[simp] theorem State.irqEvent_ingress (s : State) (a : BitVec 32) : (s.irqEvent a).ingress = s.ingress := by
  unfold State.irqEvent; split <;> rfl
@[simp] theorem State.irqEvent_egress (s : State) (a : BitVec 32) : (s.irqEvent a).egress = s.egress := by
  unfold State.irqEvent; split <;> rfl
@[simp] theorem State.irqEvent_icr (s : State) (a : BitVec 32) : (s.irqEvent a).icr = s.icr := by
  unfold State.irqEvent; split <;> rfl
@[simp] theorem State.irqEvent_ecr (s : State) (a : BitVec 32) : (s.irqEvent a).ecr = s.ecr := by
  unfold State.irqEvent; split <;> rfl
@[simp] theorem State.irqEvent_evtCr (s : State) (a : BitVec 32) : (s.irqEvent a).evtCr = s.evtCr := by
  unfold State.irqEvent; split <;> rfl
@[simp] theorem State.irqEvent_evtIcr (s : State) (a : BitVec 32) : (s.irqEvent a).evtIcr = s.evtIcr := by
  unfold State.irqEvent; split <;> rfl
@[simp] theorem State.irqEvent_rr (s : State) (a : BitVec 32) : (s.irqEvent a).rr = s.rr := by
  unfold State.irqEvent; split <;> rfl
@[simp] theorem State.irqEvent_cfg (s : State) (a : BitVec 32) : (s.irqEvent a).cfg = s.cfg := by
  unfold State.irqEvent; split <;> rfl
@[simp] theorem State.irqEvent_xfers (s : State) (a : BitVec 32) : (s.irqEvent a).xfers = s.xfers := by
  unfold State.irqEvent; split <;> rfl
@[simp] theorem State.irqEvent_sup (s : State) (a : BitVec 32) : (s.irqEvent a).sup = s.sup := by
  unfold State.irqEvent; split <;> rfl
@[simp] theorem State.irqEvent_ring (s : State) (a : BitVec 32) : (s.irqEvent a).ring = s.ring := by
  unfold State.irqEvent; split <;> rfl
@[simp] theorem State.irqEvent_svc (s : State) (a : BitVec 32) : (s.irqEvent a).svc = s.svc := by
  unfold State.irqEvent; split <;> rfl
@[simp] theorem State.irqEvent_therm (s : State) (a : BitVec 32) : (s.irqEvent a).therm = s.therm := by
  unfold State.irqEvent; split <;> rfl
@[simp] theorem State.irqEvent_sch (s : State) (a : BitVec 32) : (s.irqEvent a).sch = s.sch := by
  unfold State.irqEvent; split <;> rfl
@[simp] theorem State.irqEvent_sems (s : State) (a : BitVec 32) : (s.irqEvent a).sems = s.sems := by
  unfold State.irqEvent; split <;> rfl
@[simp] theorem State.irqEvent_ownQ (s : State) (a : BitVec 32) : (s.irqEvent a).ownQ = s.ownQ := by
  unfold State.irqEvent; split <;> rfl
@[simp] theorem State.irqEvent_localTags (s : State) (a : BitVec 32) : (s.irqEvent a).localTags = s.localTags := by
  unfold State.irqEvent; split <;> rfl
@[simp] theorem State.irqEvent_ord (s : State) (a : BitVec 32) : (s.irqEvent a).ord = s.ord := by
  unfold State.irqEvent; split <;> rfl
@[simp] theorem State.irqEvent_inbOut (s : State) (a : BitVec 32) : (s.irqEvent a).inbOut = s.inbOut := by
  unfold State.irqEvent; split <;> rfl
@[simp] theorem State.irqEvent_seqNo (s : State) (a : BitVec 32) : (s.irqEvent a).seqNo = s.seqNo := by
  unfold State.irqEvent; split <;> rfl
@[simp] theorem State.irqEvent_rlc (s : State) (a : BitVec 32) : (s.irqEvent a).rlc = s.rlc := by
  unfold State.irqEvent; split <;> rfl
@[simp] theorem State.irqEvent_home (s : State) (a : BitVec 32) : (s.irqEvent a).home = s.home := by
  unfold State.irqEvent; split <;> rfl
@[simp] theorem State.irqEvent_ifr (s : State) (a : BitVec 32) : (s.irqEvent a).ifr = s.ifr := by
  unfold State.irqEvent; split <;> rfl
@[simp] theorem State.irqEvent_ten (s : State) (a : BitVec 32) : (s.irqEvent a).ten = s.ten := by
  unfold State.irqEvent; split <;> rfl
@[simp] theorem State.irqEvent_twins (s : State) (a : BitVec 32) : (s.irqEvent a).twins = s.twins := by
  unfold State.irqEvent; split <;> rfl
@[simp] theorem State.irqEvent_fw (s : State) (a : BitVec 32) : (s.irqEvent a).fw = s.fw := by
  unfold State.irqEvent; split <;> rfl
@[simp] theorem State.irqEvent_repair (s : State) (a : BitVec 32) : (s.irqEvent a).repair = s.repair := by
  unfold State.irqEvent; split <;> rfl
@[simp] theorem State.irqEvent_tap (s : State) (a : BitVec 32) : (s.irqEvent a).tap = s.tap := by
  unfold State.irqEvent; split <;> rfl
@[simp] theorem State.irqEvent_trace (s : State) (a : BitVec 32) : (s.irqEvent a).trace = s.trace := by
  unfold State.irqEvent; split <;> rfl
@[simp] theorem State.irqEvent_ports (s : State) (a : BitVec 32) : (s.irqEvent a).ports = s.ports := by
  unfold State.irqEvent; split <;> rfl
@[simp] theorem State.irqEvent_out (s : State) (a : BitVec 32) : (s.irqEvent a).out = s.out := by
  unfold State.irqEvent; split <;> rfl
@[simp] theorem State.irqEvent_pending (s : State) (a : BitVec 32) : (s.irqEvent a).pending = s.pending := by
  unfold State.irqEvent; split <;> rfl
@[simp] theorem State.irqEvent_get (s : State) (a : BitVec 32) (a₁ a₂ a₃ : Nat) : (s.irqEvent a).get a₁ a₂ a₃ = s.get a₁ a₂ a₃ :=
  State.get_congr (State.irqEvent_alm ..) _ _ _
@[simp] theorem State.irqEvent_port (s : State) (a : BitVec 32) (r : Nat) : (s.irqEvent a).port r = s.port r :=
  State.port_congr (State.irqEvent_ports ..) _

/-! ### `State.irq` changes `alm`, `evtOut`, `ring`, `irqs` only -/

@[simp] theorem State.irq_elab (s : State) (c : Nat) : (s.irq c).elab_ = s.elab_ := by
  unfold State.irq State.irqSeen; dsimp only; split <;> simp
@[simp] theorem State.irq_fuses (s : State) (c : Nat) : (s.irq c).fuses = s.fuses := by
  unfold State.irq State.irqSeen; dsimp only; split <;> simp
@[simp] theorem State.irq_tabs (s : State) (c : Nat) : (s.irq c).tabs = s.tabs := by
  unfold State.irq State.irqSeen; dsimp only; split <;> simp
@[simp] theorem State.irq_counts (s : State) (c : Nat) : (s.irq c).counts = s.counts := by
  unfold State.irq State.irqSeen; dsimp only; split <;> simp
@[simp] theorem State.irq_now (s : State) (c : Nat) : (s.irq c).now = s.now := by
  unfold State.irq State.irqSeen; dsimp only; split <;> simp
@[simp] theorem State.irq_strapDie (s : State) (c : Nat) : (s.irq c).strapDie = s.strapDie := by
  unfold State.irq State.irqSeen; dsimp only; split <;> simp
@[simp] theorem State.irq_strapRole (s : State) (c : Nat) : (s.irq c).strapRole = s.strapRole := by
  unfold State.irq State.irqSeen; dsimp only; split <;> simp
@[simp] theorem State.irq_strapPos (s : State) (c : Nat) : (s.irq c).strapPos = s.strapPos := by
  unfold State.irq State.irqSeen; dsimp only; split <;> simp
@[simp] theorem State.irq_die (s : State) (c : Nat) : (s.irq c).die = s.die := by
  unfold State.irq State.irqSeen; dsimp only; split <;> simp
@[simp] theorem State.irq_role (s : State) (c : Nat) : (s.irq c).role = s.role := by
  unfold State.irq State.irqSeen; dsimp only; split <;> simp
@[simp] theorem State.irq_held (s : State) (c : Nat) : (s.irq c).held = s.held := by
  unfold State.irq State.irqSeen; dsimp only; split <;> simp
@[simp] theorem State.irq_core (s : State) (c : Nat) : (s.irq c).core = s.core := by
  unfold State.irq State.irqSeen; dsimp only; split <;> simp
@[simp] theorem State.irq_coreAt (s : State) (c : Nat) : (s.irq c).coreAt = s.coreAt := by
  unfold State.irq State.irqSeen; dsimp only; split <;> simp
@[simp] theorem State.irq_resetAt (s : State) (c : Nat) : (s.irq c).resetAt = s.resetAt := by
  unfold State.irq State.irqSeen; dsimp only; split <;> simp
@[simp] theorem State.irq_ifiReady (s : State) (c : Nat) : (s.irq c).ifiReady = s.ifiReady := by
  unfold State.irq State.irqSeen; dsimp only; split <;> simp
@[simp] theorem State.irq_ifiWake (s : State) (c : Nat) : (s.irq c).ifiWake = s.ifiWake := by
  unfold State.irq State.irqSeen; dsimp only; split <;> simp
@[simp] theorem State.irq_ingress (s : State) (c : Nat) : (s.irq c).ingress = s.ingress := by
  unfold State.irq State.irqSeen; dsimp only; split <;> simp
@[simp] theorem State.irq_egress (s : State) (c : Nat) : (s.irq c).egress = s.egress := by
  unfold State.irq State.irqSeen; dsimp only; split <;> simp
@[simp] theorem State.irq_icr (s : State) (c : Nat) : (s.irq c).icr = s.icr := by
  unfold State.irq State.irqSeen; dsimp only; split <;> simp
@[simp] theorem State.irq_ecr (s : State) (c : Nat) : (s.irq c).ecr = s.ecr := by
  unfold State.irq State.irqSeen; dsimp only; split <;> simp
@[simp] theorem State.irq_evtCr (s : State) (c : Nat) : (s.irq c).evtCr = s.evtCr := by
  unfold State.irq State.irqSeen; dsimp only; split <;> simp
@[simp] theorem State.irq_evtIcr (s : State) (c : Nat) : (s.irq c).evtIcr = s.evtIcr := by
  unfold State.irq State.irqSeen; dsimp only; split <;> simp
@[simp] theorem State.irq_rr (s : State) (c : Nat) : (s.irq c).rr = s.rr := by
  unfold State.irq State.irqSeen; dsimp only; split <;> simp
@[simp] theorem State.irq_cfg (s : State) (c : Nat) : (s.irq c).cfg = s.cfg := by
  unfold State.irq State.irqSeen; dsimp only; split <;> simp
@[simp] theorem State.irq_xfers (s : State) (c : Nat) : (s.irq c).xfers = s.xfers := by
  unfold State.irq State.irqSeen; dsimp only; split <;> simp
@[simp] theorem State.irq_sup (s : State) (c : Nat) : (s.irq c).sup = s.sup := by
  unfold State.irq State.irqSeen; dsimp only; split <;> simp
@[simp] theorem State.irq_svc (s : State) (c : Nat) : (s.irq c).svc = s.svc := by
  unfold State.irq State.irqSeen; dsimp only; split <;> simp
@[simp] theorem State.irq_therm (s : State) (c : Nat) : (s.irq c).therm = s.therm := by
  unfold State.irq State.irqSeen; dsimp only; split <;> simp
@[simp] theorem State.irq_sch (s : State) (c : Nat) : (s.irq c).sch = s.sch := by
  unfold State.irq State.irqSeen; dsimp only; split <;> simp
@[simp] theorem State.irq_sems (s : State) (c : Nat) : (s.irq c).sems = s.sems := by
  unfold State.irq State.irqSeen; dsimp only; split <;> simp
@[simp] theorem State.irq_ownQ (s : State) (c : Nat) : (s.irq c).ownQ = s.ownQ := by
  unfold State.irq State.irqSeen; dsimp only; split <;> simp
@[simp] theorem State.irq_localTags (s : State) (c : Nat) : (s.irq c).localTags = s.localTags := by
  unfold State.irq State.irqSeen; dsimp only; split <;> simp
@[simp] theorem State.irq_ord (s : State) (c : Nat) : (s.irq c).ord = s.ord := by
  unfold State.irq State.irqSeen; dsimp only; split <;> simp
@[simp] theorem State.irq_inbOut (s : State) (c : Nat) : (s.irq c).inbOut = s.inbOut := by
  unfold State.irq State.irqSeen; dsimp only; split <;> simp
@[simp] theorem State.irq_seqNo (s : State) (c : Nat) : (s.irq c).seqNo = s.seqNo := by
  unfold State.irq State.irqSeen; dsimp only; split <;> simp
@[simp] theorem State.irq_rlc (s : State) (c : Nat) : (s.irq c).rlc = s.rlc := by
  unfold State.irq State.irqSeen; dsimp only; split <;> simp
@[simp] theorem State.irq_home (s : State) (c : Nat) : (s.irq c).home = s.home := by
  unfold State.irq State.irqSeen; dsimp only; split <;> simp
@[simp] theorem State.irq_ifr (s : State) (c : Nat) : (s.irq c).ifr = s.ifr := by
  unfold State.irq State.irqSeen; dsimp only; split <;> simp
@[simp] theorem State.irq_ten (s : State) (c : Nat) : (s.irq c).ten = s.ten := by
  unfold State.irq State.irqSeen; dsimp only; split <;> simp
@[simp] theorem State.irq_twins (s : State) (c : Nat) : (s.irq c).twins = s.twins := by
  unfold State.irq State.irqSeen; dsimp only; split <;> simp
@[simp] theorem State.irq_fw (s : State) (c : Nat) : (s.irq c).fw = s.fw := by
  unfold State.irq State.irqSeen; dsimp only; split <;> simp
@[simp] theorem State.irq_repair (s : State) (c : Nat) : (s.irq c).repair = s.repair := by
  unfold State.irq State.irqSeen; dsimp only; split <;> simp
@[simp] theorem State.irq_tap (s : State) (c : Nat) : (s.irq c).tap = s.tap := by
  unfold State.irq State.irqSeen; dsimp only; split <;> simp
@[simp] theorem State.irq_trace (s : State) (c : Nat) : (s.irq c).trace = s.trace := by
  unfold State.irq State.irqSeen; dsimp only; split <;> simp
@[simp] theorem State.irq_ports (s : State) (c : Nat) : (s.irq c).ports = s.ports := by
  unfold State.irq State.irqSeen; dsimp only; split <;> simp
@[simp] theorem State.irq_out (s : State) (c : Nat) : (s.irq c).out = s.out := by
  unfold State.irq State.irqSeen; dsimp only; split <;> simp
@[simp] theorem State.irq_pending (s : State) (c : Nat) : (s.irq c).pending = s.pending := by
  unfold State.irq State.irqSeen; dsimp only; split <;> simp
@[simp] theorem State.irq_port (s : State) (c : Nat) (r : Nat) : (s.irq c).port r = s.port r :=
  State.port_congr (State.irq_ports ..) _

/-! ### `State.service` changes `alm`, `evtOut`, `ring`, `svc`, `irqs` only -/

@[simp] theorem State.service_elab (s : State) (a b c d e : Nat) : (s.service a b c d e).elab_ = s.elab_ := by
  unfold State.service; dsimp only; split; · rfl
  · split <;> simp
@[simp] theorem State.service_fuses (s : State) (a b c d e : Nat) : (s.service a b c d e).fuses = s.fuses := by
  unfold State.service; dsimp only; split; · rfl
  · split <;> simp
@[simp] theorem State.service_tabs (s : State) (a b c d e : Nat) : (s.service a b c d e).tabs = s.tabs := by
  unfold State.service; dsimp only; split; · rfl
  · split <;> simp
@[simp] theorem State.service_counts (s : State) (a b c d e : Nat) : (s.service a b c d e).counts = s.counts := by
  unfold State.service; dsimp only; split; · rfl
  · split <;> simp
@[simp] theorem State.service_now (s : State) (a b c d e : Nat) : (s.service a b c d e).now = s.now := by
  unfold State.service; dsimp only; split; · rfl
  · split <;> simp
@[simp] theorem State.service_strapDie (s : State) (a b c d e : Nat) : (s.service a b c d e).strapDie = s.strapDie := by
  unfold State.service; dsimp only; split; · rfl
  · split <;> simp
@[simp] theorem State.service_strapRole (s : State) (a b c d e : Nat) : (s.service a b c d e).strapRole = s.strapRole := by
  unfold State.service; dsimp only; split; · rfl
  · split <;> simp
@[simp] theorem State.service_strapPos (s : State) (a b c d e : Nat) : (s.service a b c d e).strapPos = s.strapPos := by
  unfold State.service; dsimp only; split; · rfl
  · split <;> simp
@[simp] theorem State.service_die (s : State) (a b c d e : Nat) : (s.service a b c d e).die = s.die := by
  unfold State.service; dsimp only; split; · rfl
  · split <;> simp
@[simp] theorem State.service_role (s : State) (a b c d e : Nat) : (s.service a b c d e).role = s.role := by
  unfold State.service; dsimp only; split; · rfl
  · split <;> simp
@[simp] theorem State.service_held (s : State) (a b c d e : Nat) : (s.service a b c d e).held = s.held := by
  unfold State.service; dsimp only; split; · rfl
  · split <;> simp
@[simp] theorem State.service_core (s : State) (a b c d e : Nat) : (s.service a b c d e).core = s.core := by
  unfold State.service; dsimp only; split; · rfl
  · split <;> simp
@[simp] theorem State.service_coreAt (s : State) (a b c d e : Nat) : (s.service a b c d e).coreAt = s.coreAt := by
  unfold State.service; dsimp only; split; · rfl
  · split <;> simp
@[simp] theorem State.service_resetAt (s : State) (a b c d e : Nat) : (s.service a b c d e).resetAt = s.resetAt := by
  unfold State.service; dsimp only; split; · rfl
  · split <;> simp
@[simp] theorem State.service_ifiReady (s : State) (a b c d e : Nat) : (s.service a b c d e).ifiReady = s.ifiReady := by
  unfold State.service; dsimp only; split; · rfl
  · split <;> simp
@[simp] theorem State.service_ifiWake (s : State) (a b c d e : Nat) : (s.service a b c d e).ifiWake = s.ifiWake := by
  unfold State.service; dsimp only; split; · rfl
  · split <;> simp
@[simp] theorem State.service_ingress (s : State) (a b c d e : Nat) : (s.service a b c d e).ingress = s.ingress := by
  unfold State.service; dsimp only; split; · rfl
  · split <;> simp
@[simp] theorem State.service_egress (s : State) (a b c d e : Nat) : (s.service a b c d e).egress = s.egress := by
  unfold State.service; dsimp only; split; · rfl
  · split <;> simp
@[simp] theorem State.service_icr (s : State) (a b c d e : Nat) : (s.service a b c d e).icr = s.icr := by
  unfold State.service; dsimp only; split; · rfl
  · split <;> simp
@[simp] theorem State.service_ecr (s : State) (a b c d e : Nat) : (s.service a b c d e).ecr = s.ecr := by
  unfold State.service; dsimp only; split; · rfl
  · split <;> simp
@[simp] theorem State.service_evtCr (s : State) (a b c d e : Nat) : (s.service a b c d e).evtCr = s.evtCr := by
  unfold State.service; dsimp only; split; · rfl
  · split <;> simp
@[simp] theorem State.service_evtIcr (s : State) (a b c d e : Nat) : (s.service a b c d e).evtIcr = s.evtIcr := by
  unfold State.service; dsimp only; split; · rfl
  · split <;> simp
@[simp] theorem State.service_rr (s : State) (a b c d e : Nat) : (s.service a b c d e).rr = s.rr := by
  unfold State.service; dsimp only; split; · rfl
  · split <;> simp
@[simp] theorem State.service_cfg (s : State) (a b c d e : Nat) : (s.service a b c d e).cfg = s.cfg := by
  unfold State.service; dsimp only; split; · rfl
  · split <;> simp
@[simp] theorem State.service_xfers (s : State) (a b c d e : Nat) : (s.service a b c d e).xfers = s.xfers := by
  unfold State.service; dsimp only; split; · rfl
  · split <;> simp
@[simp] theorem State.service_sup (s : State) (a b c d e : Nat) : (s.service a b c d e).sup = s.sup := by
  unfold State.service; dsimp only; split; · rfl
  · split <;> simp
@[simp] theorem State.service_therm (s : State) (a b c d e : Nat) : (s.service a b c d e).therm = s.therm := by
  unfold State.service; dsimp only; split; · rfl
  · split <;> simp
@[simp] theorem State.service_sch (s : State) (a b c d e : Nat) : (s.service a b c d e).sch = s.sch := by
  unfold State.service; dsimp only; split; · rfl
  · split <;> simp
@[simp] theorem State.service_sems (s : State) (a b c d e : Nat) : (s.service a b c d e).sems = s.sems := by
  unfold State.service; dsimp only; split; · rfl
  · split <;> simp
@[simp] theorem State.service_ownQ (s : State) (a b c d e : Nat) : (s.service a b c d e).ownQ = s.ownQ := by
  unfold State.service; dsimp only; split; · rfl
  · split <;> simp
@[simp] theorem State.service_localTags (s : State) (a b c d e : Nat) : (s.service a b c d e).localTags = s.localTags := by
  unfold State.service; dsimp only; split; · rfl
  · split <;> simp
@[simp] theorem State.service_ord (s : State) (a b c d e : Nat) : (s.service a b c d e).ord = s.ord := by
  unfold State.service; dsimp only; split; · rfl
  · split <;> simp
@[simp] theorem State.service_inbOut (s : State) (a b c d e : Nat) : (s.service a b c d e).inbOut = s.inbOut := by
  unfold State.service; dsimp only; split; · rfl
  · split <;> simp
@[simp] theorem State.service_seqNo (s : State) (a b c d e : Nat) : (s.service a b c d e).seqNo = s.seqNo := by
  unfold State.service; dsimp only; split; · rfl
  · split <;> simp
@[simp] theorem State.service_rlc (s : State) (a b c d e : Nat) : (s.service a b c d e).rlc = s.rlc := by
  unfold State.service; dsimp only; split; · rfl
  · split <;> simp
@[simp] theorem State.service_home (s : State) (a b c d e : Nat) : (s.service a b c d e).home = s.home := by
  unfold State.service; dsimp only; split; · rfl
  · split <;> simp
@[simp] theorem State.service_ifr (s : State) (a b c d e : Nat) : (s.service a b c d e).ifr = s.ifr := by
  unfold State.service; dsimp only; split; · rfl
  · split <;> simp
@[simp] theorem State.service_ten (s : State) (a b c d e : Nat) : (s.service a b c d e).ten = s.ten := by
  unfold State.service; dsimp only; split; · rfl
  · split <;> simp
@[simp] theorem State.service_twins (s : State) (a b c d e : Nat) : (s.service a b c d e).twins = s.twins := by
  unfold State.service; dsimp only; split; · rfl
  · split <;> simp
@[simp] theorem State.service_fw (s : State) (a b c d e : Nat) : (s.service a b c d e).fw = s.fw := by
  unfold State.service; dsimp only; split; · rfl
  · split <;> simp
@[simp] theorem State.service_repair (s : State) (a b c d e : Nat) : (s.service a b c d e).repair = s.repair := by
  unfold State.service; dsimp only; split; · rfl
  · split <;> simp
@[simp] theorem State.service_tap (s : State) (a b c d e : Nat) : (s.service a b c d e).tap = s.tap := by
  unfold State.service; dsimp only; split; · rfl
  · split <;> simp
@[simp] theorem State.service_trace (s : State) (a b c d e : Nat) : (s.service a b c d e).trace = s.trace := by
  unfold State.service; dsimp only; split; · rfl
  · split <;> simp
@[simp] theorem State.service_ports (s : State) (a b c d e : Nat) : (s.service a b c d e).ports = s.ports := by
  unfold State.service; dsimp only; split; · rfl
  · split <;> simp
@[simp] theorem State.service_out (s : State) (a b c d e : Nat) : (s.service a b c d e).out = s.out := by
  unfold State.service; dsimp only; split; · rfl
  · split <;> simp
@[simp] theorem State.service_pending (s : State) (a b c d e : Nat) : (s.service a b c d e).pending = s.pending := by
  unfold State.service; dsimp only; split; · rfl
  · split <;> simp
@[simp] theorem State.service_port (s : State) (a b c d e : Nat) (r : Nat) : (s.service a b c d e).port r = s.port r :=
  State.port_congr (State.service_ports ..) _

/-! ### `State.creditDie` changes `icr`, `out` only -/

@[simp] theorem State.creditDie_elab (s : State) (ch : IngCh) (n : Nat) : (s.creditDie ch n).elab_ = s.elab_ := by
  unfold State.creditDie; split <;> rfl
@[simp] theorem State.creditDie_fuses (s : State) (ch : IngCh) (n : Nat) : (s.creditDie ch n).fuses = s.fuses := by
  unfold State.creditDie; split <;> rfl
@[simp] theorem State.creditDie_alm (s : State) (ch : IngCh) (n : Nat) : (s.creditDie ch n).alm = s.alm := by
  unfold State.creditDie; split <;> rfl
@[simp] theorem State.creditDie_tabs (s : State) (ch : IngCh) (n : Nat) : (s.creditDie ch n).tabs = s.tabs := by
  unfold State.creditDie; split <;> rfl
@[simp] theorem State.creditDie_counts (s : State) (ch : IngCh) (n : Nat) : (s.creditDie ch n).counts = s.counts := by
  unfold State.creditDie; split <;> rfl
@[simp] theorem State.creditDie_now (s : State) (ch : IngCh) (n : Nat) : (s.creditDie ch n).now = s.now := by
  unfold State.creditDie; split <;> rfl
@[simp] theorem State.creditDie_strapDie (s : State) (ch : IngCh) (n : Nat) : (s.creditDie ch n).strapDie = s.strapDie := by
  unfold State.creditDie; split <;> rfl
@[simp] theorem State.creditDie_strapRole (s : State) (ch : IngCh) (n : Nat) : (s.creditDie ch n).strapRole = s.strapRole := by
  unfold State.creditDie; split <;> rfl
@[simp] theorem State.creditDie_strapPos (s : State) (ch : IngCh) (n : Nat) : (s.creditDie ch n).strapPos = s.strapPos := by
  unfold State.creditDie; split <;> rfl
@[simp] theorem State.creditDie_die (s : State) (ch : IngCh) (n : Nat) : (s.creditDie ch n).die = s.die := by
  unfold State.creditDie; split <;> rfl
@[simp] theorem State.creditDie_role (s : State) (ch : IngCh) (n : Nat) : (s.creditDie ch n).role = s.role := by
  unfold State.creditDie; split <;> rfl
@[simp] theorem State.creditDie_held (s : State) (ch : IngCh) (n : Nat) : (s.creditDie ch n).held = s.held := by
  unfold State.creditDie; split <;> rfl
@[simp] theorem State.creditDie_core (s : State) (ch : IngCh) (n : Nat) : (s.creditDie ch n).core = s.core := by
  unfold State.creditDie; split <;> rfl
@[simp] theorem State.creditDie_coreAt (s : State) (ch : IngCh) (n : Nat) : (s.creditDie ch n).coreAt = s.coreAt := by
  unfold State.creditDie; split <;> rfl
@[simp] theorem State.creditDie_resetAt (s : State) (ch : IngCh) (n : Nat) : (s.creditDie ch n).resetAt = s.resetAt := by
  unfold State.creditDie; split <;> rfl
@[simp] theorem State.creditDie_ifiReady (s : State) (ch : IngCh) (n : Nat) : (s.creditDie ch n).ifiReady = s.ifiReady := by
  unfold State.creditDie; split <;> rfl
@[simp] theorem State.creditDie_ifiWake (s : State) (ch : IngCh) (n : Nat) : (s.creditDie ch n).ifiWake = s.ifiWake := by
  unfold State.creditDie; split <;> rfl
@[simp] theorem State.creditDie_ingress (s : State) (ch : IngCh) (n : Nat) : (s.creditDie ch n).ingress = s.ingress := by
  unfold State.creditDie; split <;> rfl
@[simp] theorem State.creditDie_egress (s : State) (ch : IngCh) (n : Nat) : (s.creditDie ch n).egress = s.egress := by
  unfold State.creditDie; split <;> rfl
@[simp] theorem State.creditDie_ecr (s : State) (ch : IngCh) (n : Nat) : (s.creditDie ch n).ecr = s.ecr := by
  unfold State.creditDie; split <;> rfl
@[simp] theorem State.creditDie_evtOut (s : State) (ch : IngCh) (n : Nat) : (s.creditDie ch n).evtOut = s.evtOut := by
  unfold State.creditDie; split <;> rfl
@[simp] theorem State.creditDie_evtCr (s : State) (ch : IngCh) (n : Nat) : (s.creditDie ch n).evtCr = s.evtCr := by
  unfold State.creditDie; split <;> rfl
@[simp] theorem State.creditDie_evtIcr (s : State) (ch : IngCh) (n : Nat) : (s.creditDie ch n).evtIcr = s.evtIcr := by
  unfold State.creditDie; split <;> rfl
@[simp] theorem State.creditDie_irqs (s : State) (ch : IngCh) (n : Nat) : (s.creditDie ch n).irqs = s.irqs := by
  unfold State.creditDie; split <;> rfl
@[simp] theorem State.creditDie_rr (s : State) (ch : IngCh) (n : Nat) : (s.creditDie ch n).rr = s.rr := by
  unfold State.creditDie; split <;> rfl
@[simp] theorem State.creditDie_cfg (s : State) (ch : IngCh) (n : Nat) : (s.creditDie ch n).cfg = s.cfg := by
  unfold State.creditDie; split <;> rfl
@[simp] theorem State.creditDie_xfers (s : State) (ch : IngCh) (n : Nat) : (s.creditDie ch n).xfers = s.xfers := by
  unfold State.creditDie; split <;> rfl
@[simp] theorem State.creditDie_sup (s : State) (ch : IngCh) (n : Nat) : (s.creditDie ch n).sup = s.sup := by
  unfold State.creditDie; split <;> rfl
@[simp] theorem State.creditDie_ring (s : State) (ch : IngCh) (n : Nat) : (s.creditDie ch n).ring = s.ring := by
  unfold State.creditDie; split <;> rfl
@[simp] theorem State.creditDie_svc (s : State) (ch : IngCh) (n : Nat) : (s.creditDie ch n).svc = s.svc := by
  unfold State.creditDie; split <;> rfl
@[simp] theorem State.creditDie_therm (s : State) (ch : IngCh) (n : Nat) : (s.creditDie ch n).therm = s.therm := by
  unfold State.creditDie; split <;> rfl
@[simp] theorem State.creditDie_sch (s : State) (ch : IngCh) (n : Nat) : (s.creditDie ch n).sch = s.sch := by
  unfold State.creditDie; split <;> rfl
@[simp] theorem State.creditDie_sems (s : State) (ch : IngCh) (n : Nat) : (s.creditDie ch n).sems = s.sems := by
  unfold State.creditDie; split <;> rfl
@[simp] theorem State.creditDie_ownQ (s : State) (ch : IngCh) (n : Nat) : (s.creditDie ch n).ownQ = s.ownQ := by
  unfold State.creditDie; split <;> rfl
@[simp] theorem State.creditDie_localTags (s : State) (ch : IngCh) (n : Nat) : (s.creditDie ch n).localTags = s.localTags := by
  unfold State.creditDie; split <;> rfl
@[simp] theorem State.creditDie_ord (s : State) (ch : IngCh) (n : Nat) : (s.creditDie ch n).ord = s.ord := by
  unfold State.creditDie; split <;> rfl
@[simp] theorem State.creditDie_inbOut (s : State) (ch : IngCh) (n : Nat) : (s.creditDie ch n).inbOut = s.inbOut := by
  unfold State.creditDie; split <;> rfl
@[simp] theorem State.creditDie_seqNo (s : State) (ch : IngCh) (n : Nat) : (s.creditDie ch n).seqNo = s.seqNo := by
  unfold State.creditDie; split <;> rfl
@[simp] theorem State.creditDie_rlc (s : State) (ch : IngCh) (n : Nat) : (s.creditDie ch n).rlc = s.rlc := by
  unfold State.creditDie; split <;> rfl
@[simp] theorem State.creditDie_home (s : State) (ch : IngCh) (n : Nat) : (s.creditDie ch n).home = s.home := by
  unfold State.creditDie; split <;> rfl
@[simp] theorem State.creditDie_ifr (s : State) (ch : IngCh) (n : Nat) : (s.creditDie ch n).ifr = s.ifr := by
  unfold State.creditDie; split <;> rfl
@[simp] theorem State.creditDie_ten (s : State) (ch : IngCh) (n : Nat) : (s.creditDie ch n).ten = s.ten := by
  unfold State.creditDie; split <;> rfl
@[simp] theorem State.creditDie_twins (s : State) (ch : IngCh) (n : Nat) : (s.creditDie ch n).twins = s.twins := by
  unfold State.creditDie; split <;> rfl
@[simp] theorem State.creditDie_fw (s : State) (ch : IngCh) (n : Nat) : (s.creditDie ch n).fw = s.fw := by
  unfold State.creditDie; split <;> rfl
@[simp] theorem State.creditDie_repair (s : State) (ch : IngCh) (n : Nat) : (s.creditDie ch n).repair = s.repair := by
  unfold State.creditDie; split <;> rfl
@[simp] theorem State.creditDie_tap (s : State) (ch : IngCh) (n : Nat) : (s.creditDie ch n).tap = s.tap := by
  unfold State.creditDie; split <;> rfl
@[simp] theorem State.creditDie_trace (s : State) (ch : IngCh) (n : Nat) : (s.creditDie ch n).trace = s.trace := by
  unfold State.creditDie; split <;> rfl
@[simp] theorem State.creditDie_ports (s : State) (ch : IngCh) (n : Nat) : (s.creditDie ch n).ports = s.ports := by
  unfold State.creditDie; split <;> rfl
@[simp] theorem State.creditDie_pending (s : State) (ch : IngCh) (n : Nat) : (s.creditDie ch n).pending = s.pending := by
  unfold State.creditDie; split <;> rfl
@[simp] theorem State.creditDie_get (s : State) (ch : IngCh) (n : Nat) (a₁ a₂ a₃ : Nat) : (s.creditDie ch n).get a₁ a₂ a₃ = s.get a₁ a₂ a₃ :=
  State.get_congr (State.creditDie_alm ..) _ _ _
@[simp] theorem State.creditDie_port (s : State) (ch : IngCh) (n : Nat) (r : Nat) : (s.creditDie ch n).port r = s.port r :=
  State.port_congr (State.creditDie_ports ..) _

/-! ### `protocolError` changes `alm`, `evtOut`, `ring`, `irqs` only -/

@[simp] theorem protocolError_elab (s : State)  : (protocolError s).elab_ = s.elab_ := by
  simp [protocolError]
@[simp] theorem protocolError_fuses (s : State)  : (protocolError s).fuses = s.fuses := by
  simp [protocolError]
@[simp] theorem protocolError_tabs (s : State)  : (protocolError s).tabs = s.tabs := by
  simp [protocolError]
@[simp] theorem protocolError_counts (s : State)  : (protocolError s).counts = s.counts := by
  simp [protocolError]
@[simp] theorem protocolError_now (s : State)  : (protocolError s).now = s.now := by
  simp [protocolError]
@[simp] theorem protocolError_strapDie (s : State)  : (protocolError s).strapDie = s.strapDie := by
  simp [protocolError]
@[simp] theorem protocolError_strapRole (s : State)  : (protocolError s).strapRole = s.strapRole := by
  simp [protocolError]
@[simp] theorem protocolError_strapPos (s : State)  : (protocolError s).strapPos = s.strapPos := by
  simp [protocolError]
@[simp] theorem protocolError_die (s : State)  : (protocolError s).die = s.die := by
  simp [protocolError]
@[simp] theorem protocolError_role (s : State)  : (protocolError s).role = s.role := by
  simp [protocolError]
@[simp] theorem protocolError_held (s : State)  : (protocolError s).held = s.held := by
  simp [protocolError]
@[simp] theorem protocolError_core (s : State)  : (protocolError s).core = s.core := by
  simp [protocolError]
@[simp] theorem protocolError_coreAt (s : State)  : (protocolError s).coreAt = s.coreAt := by
  simp [protocolError]
@[simp] theorem protocolError_resetAt (s : State)  : (protocolError s).resetAt = s.resetAt := by
  simp [protocolError]
@[simp] theorem protocolError_ifiReady (s : State)  : (protocolError s).ifiReady = s.ifiReady := by
  simp [protocolError]
@[simp] theorem protocolError_ifiWake (s : State)  : (protocolError s).ifiWake = s.ifiWake := by
  simp [protocolError]
@[simp] theorem protocolError_ingress (s : State)  : (protocolError s).ingress = s.ingress := by
  simp [protocolError]
@[simp] theorem protocolError_egress (s : State)  : (protocolError s).egress = s.egress := by
  simp [protocolError]
@[simp] theorem protocolError_icr (s : State)  : (protocolError s).icr = s.icr := by
  simp [protocolError]
@[simp] theorem protocolError_ecr (s : State)  : (protocolError s).ecr = s.ecr := by
  simp [protocolError]
@[simp] theorem protocolError_evtCr (s : State)  : (protocolError s).evtCr = s.evtCr := by
  simp [protocolError]
@[simp] theorem protocolError_evtIcr (s : State)  : (protocolError s).evtIcr = s.evtIcr := by
  simp [protocolError]
@[simp] theorem protocolError_rr (s : State)  : (protocolError s).rr = s.rr := by
  simp [protocolError]
@[simp] theorem protocolError_cfg (s : State)  : (protocolError s).cfg = s.cfg := by
  simp [protocolError]
@[simp] theorem protocolError_xfers (s : State)  : (protocolError s).xfers = s.xfers := by
  simp [protocolError]
@[simp] theorem protocolError_sup (s : State)  : (protocolError s).sup = s.sup := by
  simp [protocolError]
@[simp] theorem protocolError_svc (s : State)  : (protocolError s).svc = s.svc := by
  simp [protocolError]
@[simp] theorem protocolError_therm (s : State)  : (protocolError s).therm = s.therm := by
  simp [protocolError]
@[simp] theorem protocolError_sch (s : State)  : (protocolError s).sch = s.sch := by
  simp [protocolError]
@[simp] theorem protocolError_sems (s : State)  : (protocolError s).sems = s.sems := by
  simp [protocolError]
@[simp] theorem protocolError_ownQ (s : State)  : (protocolError s).ownQ = s.ownQ := by
  simp [protocolError]
@[simp] theorem protocolError_localTags (s : State)  : (protocolError s).localTags = s.localTags := by
  simp [protocolError]
@[simp] theorem protocolError_ord (s : State)  : (protocolError s).ord = s.ord := by
  simp [protocolError]
@[simp] theorem protocolError_inbOut (s : State)  : (protocolError s).inbOut = s.inbOut := by
  simp [protocolError]
@[simp] theorem protocolError_seqNo (s : State)  : (protocolError s).seqNo = s.seqNo := by
  simp [protocolError]
@[simp] theorem protocolError_rlc (s : State)  : (protocolError s).rlc = s.rlc := by
  simp [protocolError]
@[simp] theorem protocolError_home (s : State)  : (protocolError s).home = s.home := by
  simp [protocolError]
@[simp] theorem protocolError_ifr (s : State)  : (protocolError s).ifr = s.ifr := by
  simp [protocolError]
@[simp] theorem protocolError_ten (s : State)  : (protocolError s).ten = s.ten := by
  simp [protocolError]
@[simp] theorem protocolError_twins (s : State)  : (protocolError s).twins = s.twins := by
  simp [protocolError]
@[simp] theorem protocolError_fw (s : State)  : (protocolError s).fw = s.fw := by
  simp [protocolError]
@[simp] theorem protocolError_repair (s : State)  : (protocolError s).repair = s.repair := by
  simp [protocolError]
@[simp] theorem protocolError_tap (s : State)  : (protocolError s).tap = s.tap := by
  simp [protocolError]
@[simp] theorem protocolError_trace (s : State)  : (protocolError s).trace = s.trace := by
  simp [protocolError]
@[simp] theorem protocolError_ports (s : State)  : (protocolError s).ports = s.ports := by
  simp [protocolError]
@[simp] theorem protocolError_out (s : State)  : (protocolError s).out = s.out := by
  simp [protocolError]
@[simp] theorem protocolError_pending (s : State)  : (protocolError s).pending = s.pending := by
  simp [protocolError]
@[simp] theorem protocolError_port (s : State)  (r : Nat) : (protocolError s).port r = s.port r :=
  State.port_congr (protocolError_ports ..) _

/-! ### `takeEvt` changes `trace`, `out` only -/

@[simp] theorem takeEvt_elab (s : State) (c : BitVec 8) (t : Ten) : (takeEvt s c t).elab_ = s.elab_ := by
  simp [takeEvt]
@[simp] theorem takeEvt_fuses (s : State) (c : BitVec 8) (t : Ten) : (takeEvt s c t).fuses = s.fuses := by
  simp [takeEvt]
@[simp] theorem takeEvt_alm (s : State) (c : BitVec 8) (t : Ten) : (takeEvt s c t).alm = s.alm := by
  simp [takeEvt]
@[simp] theorem takeEvt_tabs (s : State) (c : BitVec 8) (t : Ten) : (takeEvt s c t).tabs = s.tabs := by
  simp [takeEvt]
@[simp] theorem takeEvt_counts (s : State) (c : BitVec 8) (t : Ten) : (takeEvt s c t).counts = s.counts := by
  simp [takeEvt]
@[simp] theorem takeEvt_now (s : State) (c : BitVec 8) (t : Ten) : (takeEvt s c t).now = s.now := by
  simp [takeEvt]
@[simp] theorem takeEvt_strapDie (s : State) (c : BitVec 8) (t : Ten) : (takeEvt s c t).strapDie = s.strapDie := by
  simp [takeEvt]
@[simp] theorem takeEvt_strapRole (s : State) (c : BitVec 8) (t : Ten) : (takeEvt s c t).strapRole = s.strapRole := by
  simp [takeEvt]
@[simp] theorem takeEvt_strapPos (s : State) (c : BitVec 8) (t : Ten) : (takeEvt s c t).strapPos = s.strapPos := by
  simp [takeEvt]
@[simp] theorem takeEvt_die (s : State) (c : BitVec 8) (t : Ten) : (takeEvt s c t).die = s.die := by
  simp [takeEvt]
@[simp] theorem takeEvt_role (s : State) (c : BitVec 8) (t : Ten) : (takeEvt s c t).role = s.role := by
  simp [takeEvt]
@[simp] theorem takeEvt_held (s : State) (c : BitVec 8) (t : Ten) : (takeEvt s c t).held = s.held := by
  simp [takeEvt]
@[simp] theorem takeEvt_core (s : State) (c : BitVec 8) (t : Ten) : (takeEvt s c t).core = s.core := by
  simp [takeEvt]
@[simp] theorem takeEvt_coreAt (s : State) (c : BitVec 8) (t : Ten) : (takeEvt s c t).coreAt = s.coreAt := by
  simp [takeEvt]
@[simp] theorem takeEvt_resetAt (s : State) (c : BitVec 8) (t : Ten) : (takeEvt s c t).resetAt = s.resetAt := by
  simp [takeEvt]
@[simp] theorem takeEvt_ifiReady (s : State) (c : BitVec 8) (t : Ten) : (takeEvt s c t).ifiReady = s.ifiReady := by
  simp [takeEvt]
@[simp] theorem takeEvt_ifiWake (s : State) (c : BitVec 8) (t : Ten) : (takeEvt s c t).ifiWake = s.ifiWake := by
  simp [takeEvt]
@[simp] theorem takeEvt_ingress (s : State) (c : BitVec 8) (t : Ten) : (takeEvt s c t).ingress = s.ingress := by
  simp [takeEvt]
@[simp] theorem takeEvt_egress (s : State) (c : BitVec 8) (t : Ten) : (takeEvt s c t).egress = s.egress := by
  simp [takeEvt]
@[simp] theorem takeEvt_icr (s : State) (c : BitVec 8) (t : Ten) : (takeEvt s c t).icr = s.icr := by
  simp [takeEvt]
@[simp] theorem takeEvt_ecr (s : State) (c : BitVec 8) (t : Ten) : (takeEvt s c t).ecr = s.ecr := by
  simp [takeEvt]
@[simp] theorem takeEvt_evtOut (s : State) (c : BitVec 8) (t : Ten) : (takeEvt s c t).evtOut = s.evtOut := by
  simp [takeEvt]
@[simp] theorem takeEvt_evtCr (s : State) (c : BitVec 8) (t : Ten) : (takeEvt s c t).evtCr = s.evtCr := by
  simp [takeEvt]
@[simp] theorem takeEvt_evtIcr (s : State) (c : BitVec 8) (t : Ten) : (takeEvt s c t).evtIcr = s.evtIcr := by
  simp [takeEvt]
@[simp] theorem takeEvt_irqs (s : State) (c : BitVec 8) (t : Ten) : (takeEvt s c t).irqs = s.irqs := by
  simp [takeEvt]
@[simp] theorem takeEvt_rr (s : State) (c : BitVec 8) (t : Ten) : (takeEvt s c t).rr = s.rr := by
  simp [takeEvt]
@[simp] theorem takeEvt_cfg (s : State) (c : BitVec 8) (t : Ten) : (takeEvt s c t).cfg = s.cfg := by
  simp [takeEvt]
@[simp] theorem takeEvt_xfers (s : State) (c : BitVec 8) (t : Ten) : (takeEvt s c t).xfers = s.xfers := by
  simp [takeEvt]
@[simp] theorem takeEvt_sup (s : State) (c : BitVec 8) (t : Ten) : (takeEvt s c t).sup = s.sup := by
  simp [takeEvt]
@[simp] theorem takeEvt_ring (s : State) (c : BitVec 8) (t : Ten) : (takeEvt s c t).ring = s.ring := by
  simp [takeEvt]
@[simp] theorem takeEvt_svc (s : State) (c : BitVec 8) (t : Ten) : (takeEvt s c t).svc = s.svc := by
  simp [takeEvt]
@[simp] theorem takeEvt_therm (s : State) (c : BitVec 8) (t : Ten) : (takeEvt s c t).therm = s.therm := by
  simp [takeEvt]
@[simp] theorem takeEvt_sch (s : State) (c : BitVec 8) (t : Ten) : (takeEvt s c t).sch = s.sch := by
  simp [takeEvt]
@[simp] theorem takeEvt_sems (s : State) (c : BitVec 8) (t : Ten) : (takeEvt s c t).sems = s.sems := by
  simp [takeEvt]
@[simp] theorem takeEvt_ownQ (s : State) (c : BitVec 8) (t : Ten) : (takeEvt s c t).ownQ = s.ownQ := by
  simp [takeEvt]
@[simp] theorem takeEvt_localTags (s : State) (c : BitVec 8) (t : Ten) : (takeEvt s c t).localTags = s.localTags := by
  simp [takeEvt]
@[simp] theorem takeEvt_ord (s : State) (c : BitVec 8) (t : Ten) : (takeEvt s c t).ord = s.ord := by
  simp [takeEvt]
@[simp] theorem takeEvt_inbOut (s : State) (c : BitVec 8) (t : Ten) : (takeEvt s c t).inbOut = s.inbOut := by
  simp [takeEvt]
@[simp] theorem takeEvt_seqNo (s : State) (c : BitVec 8) (t : Ten) : (takeEvt s c t).seqNo = s.seqNo := by
  simp [takeEvt]
@[simp] theorem takeEvt_rlc (s : State) (c : BitVec 8) (t : Ten) : (takeEvt s c t).rlc = s.rlc := by
  simp [takeEvt]
@[simp] theorem takeEvt_home (s : State) (c : BitVec 8) (t : Ten) : (takeEvt s c t).home = s.home := by
  simp [takeEvt]
@[simp] theorem takeEvt_ifr (s : State) (c : BitVec 8) (t : Ten) : (takeEvt s c t).ifr = s.ifr := by
  simp [takeEvt]
@[simp] theorem takeEvt_ten (s : State) (c : BitVec 8) (t : Ten) : (takeEvt s c t).ten = s.ten := by
  simp [takeEvt]
@[simp] theorem takeEvt_twins (s : State) (c : BitVec 8) (t : Ten) : (takeEvt s c t).twins = s.twins := by
  simp [takeEvt]
@[simp] theorem takeEvt_fw (s : State) (c : BitVec 8) (t : Ten) : (takeEvt s c t).fw = s.fw := by
  simp [takeEvt]
@[simp] theorem takeEvt_repair (s : State) (c : BitVec 8) (t : Ten) : (takeEvt s c t).repair = s.repair := by
  simp [takeEvt]
@[simp] theorem takeEvt_tap (s : State) (c : BitVec 8) (t : Ten) : (takeEvt s c t).tap = s.tap := by
  simp [takeEvt]
@[simp] theorem takeEvt_ports (s : State) (c : BitVec 8) (t : Ten) : (takeEvt s c t).ports = s.ports := by
  simp [takeEvt]
@[simp] theorem takeEvt_pending (s : State) (c : BitVec 8) (t : Ten) : (takeEvt s c t).pending = s.pending := by
  simp [takeEvt]
@[simp] theorem takeEvt_get (s : State) (c : BitVec 8) (t : Ten) (a₁ a₂ a₃ : Nat) : (takeEvt s c t).get a₁ a₂ a₃ = s.get a₁ a₂ a₃ :=
  State.get_congr (takeEvt_alm ..) _ _ _
@[simp] theorem takeEvt_port (s : State) (c : BitVec 8) (t : Ten) (r : Nat) : (takeEvt s c t).port r = s.port r :=
  State.port_congr (takeEvt_ports ..) _

/-! ### `State.goto` changes `ports`, `evtOut`, `trace`, `alm` only -/

@[simp] theorem State.goto_elab (s : State) (q : Nat) (st : LinkState) : (s.goto q st).elab_ = s.elab_ := by
  unfold State.goto; dsimp only; split <;> (try split) <;> simp
@[simp] theorem State.goto_fuses (s : State) (q : Nat) (st : LinkState) : (s.goto q st).fuses = s.fuses := by
  unfold State.goto; dsimp only; split <;> (try split) <;> simp
@[simp] theorem State.goto_tabs (s : State) (q : Nat) (st : LinkState) : (s.goto q st).tabs = s.tabs := by
  unfold State.goto; dsimp only; split <;> (try split) <;> simp
@[simp] theorem State.goto_counts (s : State) (q : Nat) (st : LinkState) : (s.goto q st).counts = s.counts := by
  unfold State.goto; dsimp only; split <;> (try split) <;> simp
@[simp] theorem State.goto_now (s : State) (q : Nat) (st : LinkState) : (s.goto q st).now = s.now := by
  unfold State.goto; dsimp only; split <;> (try split) <;> simp
@[simp] theorem State.goto_strapDie (s : State) (q : Nat) (st : LinkState) : (s.goto q st).strapDie = s.strapDie := by
  unfold State.goto; dsimp only; split <;> (try split) <;> simp
@[simp] theorem State.goto_strapRole (s : State) (q : Nat) (st : LinkState) : (s.goto q st).strapRole = s.strapRole := by
  unfold State.goto; dsimp only; split <;> (try split) <;> simp
@[simp] theorem State.goto_strapPos (s : State) (q : Nat) (st : LinkState) : (s.goto q st).strapPos = s.strapPos := by
  unfold State.goto; dsimp only; split <;> (try split) <;> simp
@[simp] theorem State.goto_die (s : State) (q : Nat) (st : LinkState) : (s.goto q st).die = s.die := by
  unfold State.goto; dsimp only; split <;> (try split) <;> simp
@[simp] theorem State.goto_role (s : State) (q : Nat) (st : LinkState) : (s.goto q st).role = s.role := by
  unfold State.goto; dsimp only; split <;> (try split) <;> simp
@[simp] theorem State.goto_held (s : State) (q : Nat) (st : LinkState) : (s.goto q st).held = s.held := by
  unfold State.goto; dsimp only; split <;> (try split) <;> simp
@[simp] theorem State.goto_core (s : State) (q : Nat) (st : LinkState) : (s.goto q st).core = s.core := by
  unfold State.goto; dsimp only; split <;> (try split) <;> simp
@[simp] theorem State.goto_coreAt (s : State) (q : Nat) (st : LinkState) : (s.goto q st).coreAt = s.coreAt := by
  unfold State.goto; dsimp only; split <;> (try split) <;> simp
@[simp] theorem State.goto_resetAt (s : State) (q : Nat) (st : LinkState) : (s.goto q st).resetAt = s.resetAt := by
  unfold State.goto; dsimp only; split <;> (try split) <;> simp
@[simp] theorem State.goto_ifiReady (s : State) (q : Nat) (st : LinkState) : (s.goto q st).ifiReady = s.ifiReady := by
  unfold State.goto; dsimp only; split <;> (try split) <;> simp
@[simp] theorem State.goto_ifiWake (s : State) (q : Nat) (st : LinkState) : (s.goto q st).ifiWake = s.ifiWake := by
  unfold State.goto; dsimp only; split <;> (try split) <;> simp
@[simp] theorem State.goto_ingress (s : State) (q : Nat) (st : LinkState) : (s.goto q st).ingress = s.ingress := by
  unfold State.goto; dsimp only; split <;> (try split) <;> simp
@[simp] theorem State.goto_egress (s : State) (q : Nat) (st : LinkState) : (s.goto q st).egress = s.egress := by
  unfold State.goto; dsimp only; split <;> (try split) <;> simp
@[simp] theorem State.goto_icr (s : State) (q : Nat) (st : LinkState) : (s.goto q st).icr = s.icr := by
  unfold State.goto; dsimp only; split <;> (try split) <;> simp
@[simp] theorem State.goto_ecr (s : State) (q : Nat) (st : LinkState) : (s.goto q st).ecr = s.ecr := by
  unfold State.goto; dsimp only; split <;> (try split) <;> simp
@[simp] theorem State.goto_evtCr (s : State) (q : Nat) (st : LinkState) : (s.goto q st).evtCr = s.evtCr := by
  unfold State.goto; dsimp only; split <;> (try split) <;> simp
@[simp] theorem State.goto_evtIcr (s : State) (q : Nat) (st : LinkState) : (s.goto q st).evtIcr = s.evtIcr := by
  unfold State.goto; dsimp only; split <;> (try split) <;> simp
@[simp] theorem State.goto_irqs (s : State) (q : Nat) (st : LinkState) : (s.goto q st).irqs = s.irqs := by
  unfold State.goto; dsimp only; split <;> (try split) <;> simp
@[simp] theorem State.goto_rr (s : State) (q : Nat) (st : LinkState) : (s.goto q st).rr = s.rr := by
  unfold State.goto; dsimp only; split <;> (try split) <;> simp
@[simp] theorem State.goto_cfg (s : State) (q : Nat) (st : LinkState) : (s.goto q st).cfg = s.cfg := by
  unfold State.goto; dsimp only; split <;> (try split) <;> simp
@[simp] theorem State.goto_xfers (s : State) (q : Nat) (st : LinkState) : (s.goto q st).xfers = s.xfers := by
  unfold State.goto; dsimp only; split <;> (try split) <;> simp
@[simp] theorem State.goto_sup (s : State) (q : Nat) (st : LinkState) : (s.goto q st).sup = s.sup := by
  unfold State.goto; dsimp only; split <;> (try split) <;> simp
@[simp] theorem State.goto_ring (s : State) (q : Nat) (st : LinkState) : (s.goto q st).ring = s.ring := by
  unfold State.goto; dsimp only; split <;> (try split) <;> simp
@[simp] theorem State.goto_svc (s : State) (q : Nat) (st : LinkState) : (s.goto q st).svc = s.svc := by
  unfold State.goto; dsimp only; split <;> (try split) <;> simp
@[simp] theorem State.goto_therm (s : State) (q : Nat) (st : LinkState) : (s.goto q st).therm = s.therm := by
  unfold State.goto; dsimp only; split <;> (try split) <;> simp
@[simp] theorem State.goto_sch (s : State) (q : Nat) (st : LinkState) : (s.goto q st).sch = s.sch := by
  unfold State.goto; dsimp only; split <;> (try split) <;> simp
@[simp] theorem State.goto_sems (s : State) (q : Nat) (st : LinkState) : (s.goto q st).sems = s.sems := by
  unfold State.goto; dsimp only; split <;> (try split) <;> simp
@[simp] theorem State.goto_ownQ (s : State) (q : Nat) (st : LinkState) : (s.goto q st).ownQ = s.ownQ := by
  unfold State.goto; dsimp only; split <;> (try split) <;> simp
@[simp] theorem State.goto_localTags (s : State) (q : Nat) (st : LinkState) : (s.goto q st).localTags = s.localTags := by
  unfold State.goto; dsimp only; split <;> (try split) <;> simp
@[simp] theorem State.goto_ord (s : State) (q : Nat) (st : LinkState) : (s.goto q st).ord = s.ord := by
  unfold State.goto; dsimp only; split <;> (try split) <;> simp
@[simp] theorem State.goto_inbOut (s : State) (q : Nat) (st : LinkState) : (s.goto q st).inbOut = s.inbOut := by
  unfold State.goto; dsimp only; split <;> (try split) <;> simp
@[simp] theorem State.goto_seqNo (s : State) (q : Nat) (st : LinkState) : (s.goto q st).seqNo = s.seqNo := by
  unfold State.goto; dsimp only; split <;> (try split) <;> simp
@[simp] theorem State.goto_rlc (s : State) (q : Nat) (st : LinkState) : (s.goto q st).rlc = s.rlc := by
  unfold State.goto; dsimp only; split <;> (try split) <;> simp
@[simp] theorem State.goto_home (s : State) (q : Nat) (st : LinkState) : (s.goto q st).home = s.home := by
  unfold State.goto; dsimp only; split <;> (try split) <;> simp
@[simp] theorem State.goto_ifr (s : State) (q : Nat) (st : LinkState) : (s.goto q st).ifr = s.ifr := by
  unfold State.goto; dsimp only; split <;> (try split) <;> simp
@[simp] theorem State.goto_ten (s : State) (q : Nat) (st : LinkState) : (s.goto q st).ten = s.ten := by
  unfold State.goto; dsimp only; split <;> (try split) <;> simp
@[simp] theorem State.goto_twins (s : State) (q : Nat) (st : LinkState) : (s.goto q st).twins = s.twins := by
  unfold State.goto; dsimp only; split <;> (try split) <;> simp
@[simp] theorem State.goto_fw (s : State) (q : Nat) (st : LinkState) : (s.goto q st).fw = s.fw := by
  unfold State.goto; dsimp only; split <;> (try split) <;> simp
@[simp] theorem State.goto_repair (s : State) (q : Nat) (st : LinkState) : (s.goto q st).repair = s.repair := by
  unfold State.goto; dsimp only; split <;> (try split) <;> simp
@[simp] theorem State.goto_tap (s : State) (q : Nat) (st : LinkState) : (s.goto q st).tap = s.tap := by
  unfold State.goto; dsimp only; split <;> (try split) <;> simp
@[simp] theorem State.goto_out (s : State) (q : Nat) (st : LinkState) : (s.goto q st).out = s.out := by
  unfold State.goto; dsimp only; split <;> (try split) <;> simp
@[simp] theorem State.goto_pending (s : State) (q : Nat) (st : LinkState) : (s.goto q st).pending = s.pending := by
  unfold State.goto; dsimp only; split <;> (try split) <;> simp

/-! ### What they do -/

/-- The status bit of a cause group stands after it is raised (R388). -/
theorem irq_raised (h : mwf s.alm = true) (c : Nat) : bitAt ((s.irq c).get 0x1001 0x01 0) c = true := by
  unfold State.irq
  dsimp only
  split
  · assumption
  · rename_i hb
    show bitAt ((((s.irqSeen c).put 0x1001 0x01 0 (s.get 0x1001 0x01 0 + 2 ^ c)).irqEvent _).get 0x1001 0x01 0) c = true
    rw [State.irqEvent_get, State.get_put_same (by exact h)]
    generalize s.get 0x1001 0x01 0 = v at hb
    simp only [bitAt, bitsOf, Nat.shiftRight_eq_div_pow, beq_iff_eq] at hb ⊢
    rw [Nat.add_div_right _ (Nat.two_pow_pos c)]
    omega

/-- No other scalar entry than irq_status changes with a cause. -/
theorem irq_get_other (s : State) (c : Nat) {i j : Nat} (d : Nat) (h : ekey i j ≠ ekey 0x1001 0x01) :
    (s.irq c).get i j d = s.get i j d := by
  unfold State.irq
  dsimp only
  split
  · rfl
  · show (((s.irqSeen c).put 0x1001 0x01 0 _).irqEvent _).get i j d = _
    rw [State.irqEvent_get]
    exact State.get_put_other (s.irqSeen c) _ _ _ h

theorem irq_mwf (h : mwf s.alm = true) (c : Nat) : mwf (s.irq c).alm = true := by
  unfold State.irq
  dsimp only
  split
  · exact h
  · show mwf (((s.irqSeen c).put 0x1001 0x01 0 _).irqEvent _).alm = true
    rw [State.irqEvent_alm]
    exact put_mwf (by exact h) _ _ _ _

/-- The port stands in the state it goes to. -/
theorem goto_port {q : Nat} (h : q < s.ports.length) (st : LinkState) :
    (s.goto q st).port q = enterState (s.port q) st s.now := by
  have e : (s.goto q st).ports = setAt q (enterState (s.port q) st s.now) s.ports := by
    unfold State.goto; dsimp only
    split <;> (try split) <;> simp
  show (s.goto q st).ports.getD q {} = _
  rw [e, setAt_getD_same h]

theorem goto_port_other {q r : Nat} (h : r ≠ q) (st : LinkState) : (s.goto q st).port r = s.port r := by
  have e : (s.goto q st).ports = setAt q (enterState (s.port q) st s.now) s.ports := by
    unfold State.goto; dsimp only
    split <;> (try split) <;> simp
  unfold State.port
  rw [e, setAt_getD_other _ _ _ h]

end Sys2Proof.Machine
end

