-- ==== Sys2Proof/WellFormed.lean ====
section
/-!
DEFINITION. Which command terms stand for events that can reach the block: the checks on operands that
their types do not make.
-/

namespace Sys2Proof

/-- The opcode groups of the die-to-adapter EVT codes: 0x01 QUIESCE and 0x02 READMIT are listed (R40). -/
def listedEvtCode (ecode : BitVec 8) : Bool := ecode == 0x01 || ecode == 0x02

/-- OP values that start a command: 1 READ to 5 ABORT (R42). -/
def listedCfgOp (op : BitVec 4) : Bool := decide (1 ≤ op.toNat) && decide (op.toNat ≤ 5)

/-- The IFI channel on which a kind of transaction may be presented, or another place (R31, R214). -/
def Place.onChannels (chs : List IngCh) : Place → Bool
  | .ifi ch _ => chs.contains ch
  | .rx _ _ => true
  | .own _ => true

/-- Almanac writes that have a row of their own: base index with the port digit cleared, and subindex. -/
def ownRowEntry (index : BitVec 16) (sub : BitVec 8) : Bool :=
  let i := index.toNat
  let s := sub.toNat
  let portBase := i / 4096 * 4096 + i % 256
  (portBase == 0x5000 && decide (i < 0x5A00) && (s == 0x09 || s == 0x0A))
    || (portBase == 0x4000 && s == 0x06)
    || (i == 0x6F00 && (s == 0x01 || s == 0x07 || s == 0x08 || s == 0x0B))
    || (i == 0x7000 && (s == 0x01 || s == 0x05))
    || (i == 0x8000 && (s == 0x01 || s == 0x03 || s == 0x04))
    || (i == 0x9000 && (s == 0x02 || s == 0x07))
    || (i == 0x0100 && s == 0x03)
    || (i == 0xB100 && decide (1 ≤ s) && decide (s ≤ 0x10))
    || (i == 0xC000 && s == 0x02)
    || (i / 256 * 256 % 0x1000 == 0x200 && i / 0x1000 == 0xC && s == 0x01)
    || (i == 0x1001 && s == 0x02)
    || (i == 0x1002 && s == 0x05)
    || (i == 0xD000 && s == 0x06)
    || (i / 256 == 0xE2 && s == 0x03)
    || (i == 0xE400 && (s == 0x03 || s == 0x08))

/-- The TAP instruction codes that R409 lists apart from BYPASS. -/
def listedTapCode (code : BitVec 8) : Bool :=
  [0x00, 0x01, 0x02, 0x08, 0x09, 0x0A, 0x10].contains code.toNat

/-- The cells of a presentation stand in the order in which they were presented (R32). -/
def fallingAgo : List IfiCell → Bool
  | [] => true
  | [_] => true
  | a :: b :: cs => decide (b.ago ≤ a.ago) && fallingAgo (b :: cs)

/-- The operands of a command can occur together (R32, R40, R42, R74, R100, R119, R176). -/
def Instr.wf : Instr → Bool
  | .ifiIngressTransaction cells =>
    -- A transaction is its head cell and at most 255 more cells, on one channel.
    decide (1 ≤ cells.length) && decide (cells.length ≤ 256)
      && (cells.all fun c => some c.cch == cells.head?.map (·.cch))
      && fallingAgo cells
  | .ifiCreditReturn _ n => decide (1 ≤ n)
  | .evtUnknownCode c => !listedEvtCode c
  | .cfgNoOperation op => !listedCfgOp op
  | .almanacWrite index sub _ => !ownRowEntry index sub
  | .stepDone q step => decide (q.val < 8) && decide (1 ≤ step.toNat)
  | .trainingFrame q _ _ | .latencyMarker q _ _ _ _ | .laneLoss q _ | .laneLost q | .laneDegraded q _
  | .codeword q _ | .xphPllLock q | .signalDetect q | .reachWakeComplete q _ | .xphyPathDelayReset q =>
    decide (8 ≤ q.val)
  | .trainStart q _ | .mapAck q _ _ | .repairMap q _ _ _ | .trainingAbort q _ | .fatalParityError q
  | .wtxPllLock q | .clockLoss q _ | .trkLoss q _ | .bundleLost q | .fifoDrift q _ | .keepalive q _
  | .trkWordInvalid q _ _ | .spareReq q _ _ | .spareGo q _ _ | .spareReqRepeat q _ _ | .liveSwapTrigger q _ _
  | .spareFailed q _ _ | .napWakePattern q | .napWakeComplete q | .napWakeTimeout q _ | .dormantWakeComplete q _
  | .napIdleExpiry q | .ixtFuseWrite q _ _ => decide (q.val < 8)
  | .rd pl | .aadd pl | .aand pl | .aor pl | .axor pl | .aswap pl | .acas pl | .amax pl | .amin pl
  | .amaxu pl | .aminu pl | .wr pl | .wrp pl | .fence pl | .semInit pl | .semSignal pl | .semWait pl
  | .semTry pl | .semRead pl | .barInit pl | .barArrive pl | .semFree pl | .mrd pl | .mwr pl | .mrds pl
  | .mwrs pl | .mabt pl => pl.onChannels [.req]
  | .msg pl | .msgc pl => pl.onChannels [.msg]
  | .cpl pl => pl.onChannels []
  | .bypass code => !listedTapCode code
  | .extest d c | .samplePreload d c => d.length == c.length
  | .txnAbsentMapWrite rows => decide (rows.length ≤ 64)
  | _ => true

end Sys2Proof
end

