-- ==== Sys2Proof/Tests/Slice0.lean ====
section
/-!
SUPPORT. Tests: ill-formed commands that `Instr.wf` refuses, worked examples and check values of the spec, and for every
statement with hypotheses a state and operands that meet the hypotheses of each of its clauses.
-/

namespace Sys2Proof.Tests
open Sys2Proof Sys2Proof.Machine

-- Each theorem is checked before the next is read, so that few threads run at once.
set_option Elab.async false

/-! ### Small states -/

/-- A running adapter out of reset: the adapter of `State.reset` with CORE running and the supervisor started. -/
def wUp : State :=
  { State.reset with core := .running, ifiReady := true, icr := [16, 32, 8, 16, 16, 32], ecr := List.replicate 6 8,
                     evtCr := 8, evtIcr := 16, sup := { state := 1, boot := false }, now := 5000 }

/-- The running adapter with one port changed. -/
def wPort (q : Nat) (f : Port → Port) : State := wUp.modPort q f

theorem inv_of (s : State)
    (h : (s.elab_.legal && decide (s.ports.length = 10) && decide (s.svc.length = 32) && mwf s.alm) = true) : s.Inv := by
  simp only [Bool.and_eq_true, decide_eq_true_eq] at h
  exact ⟨h.1.1.1, h.1.1.2, h.1.2, h.2⟩

theorem writable_of (s : State) (h : (!inReset s && s.xfers.isEmpty) = true) : Writable s := by
  simp only [Bool.and_eq_true, Bool.not_eq_true', List.isEmpty_iff] at h
  exact h

theorem undecided_of {s : State} {pl : Place} {w : Waiting}
    (h : (decide (atPlace s pl = some w) && w.step != 9 && w.step != 10 && w.step != 13
      && (match pl with | .rx q _ => !isFwPort s q | _ => true)) = true) : Undecided s pl w := by
  simp only [Bool.and_eq_true, decide_eq_true_eq, bne_iff_ne, and_assoc] at h
  refine h.imp_right (And.imp_right (And.imp_right (And.imp_right ?_)))
  rintro port q k rfl
  simpa using port

theorem waits_of {s : State} {pl : Place} {w : Waiting} {o : Nat}
    (h : (decide (atPlace s pl = some w) && w.step != 9 && w.step != 10 && w.step != 13
      && (match pl with | .rx q _ => !isFwPort s q | _ => true)
      && (decide (w.txn.opc.toNat = o) && (legalAt pl w.txn.opc && inTurn s pl w))) = true) : Waits s pl w o := by
  rw [Bool.and_eq_true] at h
  obtain ⟨h0, h1⟩ := h
  rw [Bool.and_eq_true, Bool.and_eq_true, decide_eq_true_eq] at h1
  exact ⟨undecided_of h0, h1⟩

theorem atHome_of {s : State} {pl : Place} {w : Waiting} {o : Nat}
    (h : (decide (atPlace s pl = some w) && w.step != 9 && w.step != 10 && w.step != 13
      && (match pl with | .rx q _ => !isFwPort s q | _ => true)
      && (decide (w.txn.opc.toNat = o) && (legalAt pl w.txn.opc && inTurn s pl w))
      && (decide (destOf s w.txn = .self) && !quiesced s w.txn.ten && (!placeIsIfi pl || !heldBack s w))) = true) :
    AtHome s pl w o := by
  rw [Bool.and_eq_true] at h
  obtain ⟨h0, h1⟩ := h
  simp only [Bool.and_eq_true, decide_eq_true_eq, Bool.not_eq_true', Bool.or_eq_true] at h1
  exact ⟨waits_of h0, h1.1.1, h1.1.2, fun e => by simpa [e] using h1.2⟩

theorem plainWrite_of {s : State} {path : Option Path} {e : Entry} {idx sub : Nat} {bytes : List Byte}
    (h : (decide (entryAt s idx sub = some e) && decide (e.ty.width = some bytes.length)
      && decide (writeRefused s path idx sub = none) && inLegal e (ofBytes bytes)
      && !ownerRefuses s idx sub (ofBytes bytes) && !actingBases.contains (locate idx).base) = true) :
    PlainWrite s path e idx sub bytes := by
  simpa only [PlainWrite, Bool.and_eq_true, decide_eq_true_eq, Bool.not_eq_true', List.contains_eq_mem,
    decide_eq_false_iff_not, and_assoc] using h

theorem freshRequest_of {s : State} {f : List Byte} {kind : Nat}
    (h : (ringOn s && !inReset s && frameGood f && decide ((frameOf f).fkind = kind) && frameForMe s (frameOf f)
      && (decide (kind < 3) || decide ((frameOf f).dst ≠ 0x1FF))
      && decide (s.ring.kept.find? (fun k => k.src == (frameOf f).src && k.request == requestKey f
        && decide (s.now < k.at_ + 1000000)) = none)
      && decide (s.ring.waiting.length < 4)) = true) : FreshRequest s f kind := by
  simp only [Bool.and_eq_true, Bool.or_eq_true, decide_eq_true_eq, Bool.not_eq_true', and_assoc] at h
  refine h.imp_right (And.imp_right (And.imp_right (And.imp_right (And.imp_right (And.imp_left ?_)))))
  exact fun addressed late => addressed.resolve_left (Nat.not_lt.2 late)

theorem heldOnlyBy_of {s : State} {b c d : Bool}
    (h : (!s.held.porst && !s.held.aonLost && !s.held.refLost && s.held.wrst == b && s.held.drst == c
      && s.held.vddLost == d && !s.cfg.busy && s.ring.later.isEmpty) = true) : HeldOnlyBy s b c d := by
  simpa only [HeldOnlyBy, Bool.and_eq_true, Bool.not_eq_true', beq_iff_eq, List.isEmpty_iff, and_assoc] using h

theorem oneTxn_of {c : IfiCell} {rest : List IfiCell}
    (h : (decide (ingressRuns (c :: rest) = [c :: rest]) && decide (cutAtCeop (c :: rest) = (c :: rest, []))) = true) :
    OneTxn c rest := by
  simp only [Bool.and_eq_true, decide_eq_true_eq] at h
  exact h


/-- An IFI cell slot that carries a whole one-cell transaction. -/
def wCell : IfiCell :=
  { cch := 1, csop := true, ceop := true, cten := 3, cport := 0, cslot := 0, data := 0x0F00#128 }

/-- A transaction with this opcode and head, of tenancy 3. -/
def wTxn (opc : BitVec 8) (h : Head) (data : List Cell) : Txn :=
  { opc := opc, ten := 3, tag := 5, sport := 0, spkg := 0, sdie := 0, head := h, data := data }

/-- A finished request on its way to the die. -/
def wCpl : Waiting := { txn := wTxn 0x80 (.cpl 0 0 1 0) [] }

/-- A port in a link state. -/
def wLink (q : Nat) (st : LinkState) : State := wPort q fun p => { p with state := st }

/-- A wire port in training at a step. -/
def wTrain (q : Nat) (st : LinkState) (x : TrainStep) (sent : Bool) : State :=
  wPort q fun p => { p with state := st, step := x, doneSent := sent, trainAt := 4000 }


/-- A port in PARAM that offered all its bundles. -/
def wParam (f : ParamState → ParamState) : State :=
  wPort 0 fun p => { p with state := .param, offer := 0xFF, param := f { offered := true } }

/-- The body of a PARAM message of a partner of the same build. -/
def wBody (pmt : BitVec 4) (gen : Gen) (ffv : BitVec 8) : BitVec 1920 :=
  ({ ownParam (wParam id) 0 with pmt := pmt, gen := gen, ffv := ffv } : ParamMsg).body

/-- A reach port in ACTIVE whose lanes are in use. -/
def wReach (f : Nat → Lane → Lane) : State :=
  wPort 8 fun p => { p with state := .active, width := 16, lanes := p.lanes.mapIdx fun i l => f i { l with state := 1 } }

/-- A port asleep, awake since `w` when given. -/
def wAsleep (q : Nat) (st : LinkState) (w : Option Nat) : State :=
  wPort q fun p => { p with state := st, mask := 0xFF, wakeAt := w, fastOk := true, trained := true }


/-- A flit with this FTYPE and FSEQ. -/
def wFlit (ftype : BitVec 4) (fseq : Fseq) : Flit := { ftype := ftype, fseq := fseq, cells := List.replicate 15 0 }

/-- CRC-32C of R116 with its register forced at every bit, for evaluation by the kernel. -/
def wCrc : (n msg c : Nat) → Nat
  | 0, _, c => c
  | n + 1, msg, c =>
    match (if (c ^^^ msg) % 2 = 1 then (c / 2) ^^^ crc32cPoly else c / 2) with
    | 0 => wCrc n (msg / 2) 0
    | k + 1 => wCrc n (msg / 2) (k + 1)

theorem wCrc_eq (n m c : Nat) : crc32cBits n m c = wCrc n m c := by
  induction n generalizing m c with
  | zero => rfl
  | succ n ih =>
    unfold crc32cBits wCrc
    generalize (if (c ^^^ m) % 2 = 1 then (c / 2) ^^^ crc32cPoly else c / 2) = d
    cases d <;> exact ih ..

/-- A flit as it arrives on a reach port. -/
def wRx (f : Flit) : RxFlit :=
  { bits := BitVec.ofNat 2048 (f.message + (wCrc 1984 f.message 0xFFFFFFFF ^^^ 0xFFFFFFFF) * 2 ^ 1984), bundle := 0, slotBad := false }

/-- `checkReach` over `wCrc`. -/
def wCheck (r : RxFlit) : Checked :=
  let f := Flit.ofBits r.bits
  { flit := f, corrected := 0, wires := [],
    bad := r.slotBad
      || !((wCrc 1984 (r.bits.toNat % 2 ^ 1984) 0xFFFFFFFF ^^^ 0xFFFFFFFF) == bitsOf r.bits.toNat 1984 32)
      || !knownFtype f.ftype }

theorem wCheck_eq (r : RxFlit) : checkReach r = wCheck r := by
  simp only [checkReach, wCheck, crcGood, crc32c, wCrc_eq]

/-- The reach port 8 in ACTIVE. -/
def wFar (f : Port → Port) : State := wPort 8 fun p => f { p with state := .active, mask := 0xFF, feat := 0x7FFF }

/-- A port in ACTIVE whose partner has every feature and granted credit. -/
def wActive (f : Port → Port) : State :=
  wPort 0 fun p => f { p with state := .active, mask := 0xFF, feat := 0x7FFF,
                              rsvP := List.replicate 16 64, shP := 1000, schLatency := 24 }

/-- A control cell that waits at a port. -/
def wCtrl (c : Cell) : CtrlIn := { cell := c, live := true, at_ := 4999 }

/-- A request of the die that waits for port 0. -/
def wReq : Waiting := { txn := wTxn 1 (.mem false false 64 0) [], step := 9, route := [0], seq := 1 }

/-- An adapter of a domain that has joined it, with port 0 a domain link in ACTIVE. -/
def wDomain (f : Port → Port) : State :=
  { ((wActive f).put 0x6F00 0x01 0 1).put 0x6000 0x01 0 1 with sch := { joined := true, epoch := 5, tn := 4500 } }

/-- A payload that the die presents for slot 0 of port 0. -/
def wPay : Waiting :=
  { txn := { opc := 0, ten := 3, tag := 0, sport := 0, spkg := 0, sdie := 0, head := .other 0, data := List.replicate 15 7 },
    cport := 0, cslot := 0, seq := 9, at_ := 4990 }


/-- Port 0 in ACTIVE leads to DIE 1; queues 0–255 and semaphores 0–255 are at home here, queues 256–511 on DIE 1. -/
def wNet (f : Port → Port) : State :=
  { wActive f with tabs := [(ekey 0x7000 0x02, [0x1FFFF, 0xFFF0]), (ekey 0x7000 0x06, [256 * 2 ^ 20, 256 + 256 * 2 ^ 20 + 2 ^ 41]),
                            (ekey 0x7000 0x07, [256 * 2 ^ 16, 256 + 256 * 2 ^ 16 + 2 ^ 33])] }

/-- A transaction that waits in the IFI buffer of a channel. -/
def wDie (ch : IngCh) (t : Txn) : State := { wNet id with ingress := [(ch, { txn := t, seq := 7 })] }

/-- A transaction that waits in the receive buffer of port 0. -/
def wWire (t : Txn) : State := wNet fun p => { p with rx := [{ txn := t }] }

/-- A request of the die with this head. -/
def wAsk (t : Txn) : Waiting := { txn := t, seq := 7 }

/-- A synchronisation request for semaphore 5. -/
def wSync (opc : BitVec 8) (arg : BitVec 32) : Txn := wTxn opc (.sync false 0 5 arg) []

/-- A state at the home of a semaphore, with this semaphore 5 and this request of the die. -/
def wSem (m : Sem) (t : Txn) : State := { wDie .req t with sems := [(5, m)] }

/-- A read or write of a line of DIE 1 through the Remote Line Cache. -/
def wCa (opc : BitVec 8) : Txn := wTxn opc (.mem false true 8 (BitVec.ofNat 58 (2 ^ 38))) [0]

/-- The line of `wCa`. -/
def wLa : LineAddr := BitVec.ofNat 51 (2 ^ 31)

/-- A line of DIE 1 in the Remote Line Cache. -/
def wLine (st : LineSt) : RlcLine := { set_ := rlcSet wUp wLa, way := 0, st := st, data := 5, hint := none }

/-- A miss of that line that waits for its answers. -/
def wMiss : Miss :=
  { la := wLa, opc := 0x40, port := some 0, tag := 4, ten := 3, waiting := [], gnt := none, acks := 0, data := none,
    fwd := none, dirty := false, policy := 0 }

/-- A coherence answer for that miss that has arrived at port 0. -/
def wAnswer (opc : BitVec 8) (cst : BitVec 4) (n : BitVec 4) : Txn :=
  { wTxn opc (.coh cst true false false false n wLa) (List.replicate 8 0) with tag := 4 }

/-- The adapter that waits for that answer. -/
def wMissing (m : Miss) (t : Txn) : State :=
  { wNet fun p => { p with rx := [{ txn := t }],
                           tags := [(4, { opc := 0x40, ten := 3, rqid := 0, seq := 0, use_ := .rlc wLa })] } with rlc := { miss := [m] } }


/-- A coherence transaction of DIE 1 that has arrived at port 0 for line 7 of this die. -/
def wCoh (opc : BitVec 8) (cst : BitVec 4) (data : List Cell) : Txn :=
  { wTxn opc (.coh cst false false false false 0 7) data with sdie := 1 }

/-- The tracker entry of a read of that line. -/
def wTrack : Track := { id := 0, la := 7, kind := .request, txn := wCoh 0x40 0 [], busy := true, presented := true }

/-- The home with one tracker entry and one waiting transaction. -/
def wHome (tr : Track) (t : Txn) : State := { wWire t with home := { track := [tr] } }

/-- The home with one tracker entry, its request on INB and an answer of the die. -/
def wInr (tr : Track) (t : Txn) : State := { wDie .inr t with home := { track := [tr] }, inbOut := [tr.txn] }

/-- A root descriptor of a local contribution and one child on DIE 1. -/
def wDesc : Desc :=
  { rid := 5, op := 0, ifmt := 8, cfmt := 2, ofmt := 8, contrib := 2, local_ := true, allred := false, sr := false,
    nanZero := false, satNan := false, eng := 15, nblk := 3, ppkg := 0, pdie := 0, root := true, seed := 0,
    children := [⟨0, 1⟩] }

/-- An open RID of that descriptor. -/
def wRid (f : RidState → RidState) : RidState :=
  f { aborted := false, desc := wDesc, ten := 3, eng := 0, window := 16, klo := 0, staged := [], flags := {}, got := [], moving := none }

/-- One block of zeros, from the die or from DIE 1. -/
def wBlk (opc : BitVec 8) (fmt : BitVec 4) (sdie : Die) : Txn :=
  { wTxn opc (.blk 5 0 1 fmt false false false 0 0) (List.replicate 8 0) with sdie := sdie }

/-- A state with RID 5. -/
def wRed (r : RidState) (s : State) : State := { s with ifr := { rids := [(5, r)] } }

/-- The cells of an ROPEN with the descriptor `wDesc`. -/
def wOpen : Txn :=
  wTxn 0x62 (.other 0)
    [5 + 8 * 2 ^ 14 + 2 * 2 ^ 18 + 8 * 2 ^ 20 + 2 * 2 ^ 24 + 2 ^ 28 + 15 * 2 ^ 33 + 3 * 2 ^ 40 + 2 ^ 84, 2 ^ 12, 0]

/-- Ports 0 and 1 as twin pair 0. -/
def wTwin (pr : Pair) (f : Port → Port) : State :=
  { (wActive f).modPort 1 fun p => { p with state := .active } with tabs := [(ekey 0xB000 0x01, [0x110])], twins := [pr, {}, {}, {}] }


/-- A request of the ring from agent 3 to this agent with this kind, place, LEN and payload. -/
def wFrame (kind len index sub : Nat) (payload : List Byte) : List Byte :=
  let h := headerBytes { fkind := kind, txid := 1, dst := 0, src := 3, len := len, index := index, sub := sub, segoff := 0 } 9
  h ++ payload ++ toBytes 2 (frameCrc h payload)

/-- The agent works on the ring. -/
def wRing : State := { wUp with ring := { joined := true } }

/-- The CFG window with this place, SEGLEN and first DATA word. -/
def wCfg (index : BitVec 16) (sub : BitVec 8) (len : BitVec 6) (d : BitVec 32) : State :=
  { wUp with cfg := { index := index, sub := sub, seglen := len, data := d :: List.replicate 7 0 } }

/-- A management request of the die for this place. -/
def wMgmt (opc : BitVec 8) (index : BitVec 16) (sub : BitVec 8) (len : BitVec 6) (data : List Cell) : Txn :=
  wTxn opc (.mgmt false 0 0 index sub len 0) data

/-- A segmented write that a path holds open. -/
def wOpenWrite : Transfer := { key := ekey 0x7000 0x02, write := true, bytes := List.replicate 32 0, next := 1 }

/-- `wphy_marginal_threshold`, and the table `txn_die_routes`. -/
def wScalar : Entry := ⟨0x3000, 0x07, 0x07, .wire, .u8, .rw, .w, 28, [(20, 40)]⟩
def wTable : Entry := ⟨0x7000, 0x02, 0x02, .inst, .table, .rw, .w, 0, []⟩

/-- Port 0 as a firewall port with one rule for reads of tenancy 3, and a read that waits there. -/
def wFw (step : Nat) (rule : Nat) : State :=
  let s := (wNet fun p => { p with rx := [{ txn := wTxn 1 (.mem false false 8 0) [], step := step }], partnerDie := 0 }).put 0xC200 0x01 0 1
  { s with tabs := s.tabs ++ [(ekey 0xC001 0x01, [rule])] }

/-- A rule that admits reads of port 0 from any range with a full bucket. -/
def wRule : Nat := 1 + 2 + 3 * 2 ^ 4 + 3 * 2 ^ 8 + 2 ^ 16 + 2 ^ 32 + 5 * 2 ^ 192 + 64 * 2 ^ 208


/-- An armed trace in a mode, with a queue and a buffer of `n` records. -/
def wTrace (mode n : Nat) (queue : List (BitVec 128)) (owed : Nat) : State :=
  let s := wUp.put 0xE400 0x01 0 mode
  { s with trace := { s.trace with state := 2, queue := queue, count := n, lostOwed := owed } }

/-- A wire seen under test. -/
def wObs : WireObs :=
  { q := 0, b := 0, wire := 71, inL1 := false, inL2 := true, ownL3 := true, ownL4 := false, otherL3 := false, otherL4 := true,
    parityL5 := false, eye := 19 }

/-- A loopback test that runs at port 0. -/
def wIx : State := { wUp with tap := { wUp.tap with instr := 8, ixMask := 1, stat := 1 } }


/-- A hello of an Ihleo-X for a bundle, without RDY. -/
def wHelloWord (b : Nat) : BitVec 32 := helloFrame 1 0 0 (BitVec.ofNat 4 b) false false false

/-- Port 0 in DETECT, gathering since a cc, with a hello of bundle 0 accepted once. -/
def wHello (b t : Nat) : State :=
  wPort 0 fun p => { p with state := .detect, gatherAt := some t,
                            bundles := p.bundles.map fun x => { x with hello := some (wHelloWord b) } }

/-- Port 0 in a link state whose bundles located `n` errors on a wire in the present window. -/
def wErrs (w n : Nat) (st : LinkState) : State :=
  wPort 0 fun p => { p with state := st, bundles := p.bundles.map fun b => { b with errs := [(w, n)] } }

/-- A codeword without errors whose header is the given one and whose section holds zeros. -/
def wCodeword (h : Nat) : Codeword := codewordOf (BitVec.ofNat 5140 h)

theorem wDecodeA : cwDecode (wCodeword 0x900C5) = { msg := 0x900C5, bad := false, fixed := [] } := by decide +kernel

theorem wDecodeB : cwDecode (wCodeword 0xA03C5) = { msg := 0xA03C5, bad := false, fixed := [] } := by decide +kernel

/-- The cells of a flit that carries one completion on VC 2. -/
def wCplCells : List Cell := pad15 ((wTxn 0x80 (.cpl 0 0 1 0) []).linkCells 2)

/-- What `unpack` makes of a flit at a port. -/
def wUnpack (s : State) (q : Nat) (f : Flit) : Unpack :=
  match unpack (s.port q).rsvA (s.port q).shA f.cells ⟨rxUsed (s.port q), (s.port q).rxOpen, []⟩ with
  | .ok u => u
  | .error _ => ⟨[], none, []⟩

/-- The beacon of epoch 5, begun at cc 4,500, that arrives at cc 4,999. -/
def wBeacon : Cell := BitVec.ofNat 128 (2 + 5 * 2 ^ 16 + 493 * 2 ^ 64 + leadOf wUp * 2 ^ 104 + eplen wUp * 2 ^ 112)


/-- One block of zeros with its number. -/
def wBlkAt (opc : BitVec 8) (fmt : BitVec 4) (sdie : Die) (blk : BitVec 24) : Txn :=
  { wTxn opc (.blk 5 blk 1 fmt false false false 0 0) (List.replicate 8 0) with sdie := sdie }


/-- A firewall port with one rule, and a transaction that waits there. -/
def wFwT (t : Txn) (step rule : Nat) : State :=
  (wFw step rule).modPort 0 fun p => { p with rx := [{ txn := t, step := step }], partnerDie := t.sdie }

/-! ### Ill-formed commands -/

theorem test_wf_ingress_empty : Instr.wf (.ifiIngressTransaction []) = false := by decide

theorem test_wf_ingress_channels : Instr.wf (.ifiIngressTransaction [⟨1, true, false, 3, 0, 0, 0, 0⟩, ⟨2, false, true, 3, 0, 0, 0, 0⟩]) = false := by decide

theorem test_wf_credit_zero : Instr.wf (.ifiCreditReturn .evt 0) = false := by decide

theorem test_wf_evt_listed : Instr.wf (.evtUnknownCode 0x02) = false := by decide

theorem test_wf_cfg_listed : Instr.wf (.cfgNoOperation 5) = false := by decide

theorem test_wf_own_row : Instr.wf (.almanacWrite 0x8000 0x04 [1]) = false := by decide

theorem test_wf_step_zero : Instr.wf (.stepDone 0 0) = false := by decide

theorem test_wf_step_reach : Instr.wf (.stepDone 8 1) = false := by decide

theorem test_wf_reach_only : Instr.wf (.laneLost 7) = false := by decide

theorem test_wf_wire_only : Instr.wf (.fifoDrift 8 0) = false := by decide

theorem test_wf_request_channel : Instr.wf (.rd (.ifi .msg 0)) = false := by decide

theorem test_wf_message_channel : Instr.wf (.msg (.ifi .req 0)) = false := by decide

theorem test_wf_completion_channel : Instr.wf (.cpl (.ifi .inr 0)) = false := by decide

theorem test_wf_bypass_listed : Instr.wf (.bypass 0x10) = false := by decide

theorem test_wf_boundary_lengths : Instr.wf (.extest [true] []) = false := by decide

theorem test_wf_absent_rows : Instr.wf (.txnAbsentMapWrite (List.replicate 65 0)) = false := by decide

theorem test_wf_accepts : Instr.wf (.laneLost 8) = true ∧ Instr.wf (.rd (.rx 0 0)) = true := by decide

/-! ### Check values and worked examples of the spec -/

/-- The nine ASCII bytes "123456789". -/
def wDigits : List Byte := [0x31, 0x32, 0x33, 0x34, 0x35, 0x36, 0x37, 0x38, 0x39]

/-- R376. -/
theorem test_crc16_check_value : crc16 wDigits = 0x29B1 := by decide +kernel

/-- R116. -/
theorem test_crc32c_check_value : crc32c 9 (ofBytes wDigits) = 0xE3069283 := by decide +kernel

/-- The request of the example after R382 that the controller sends to site 0x005. -/
def wExampleRequest : List Byte :=
  [0xA7, 0x31, 0x05, 0x80, 0x03, 0x02, 0x00, 0x51, 0x01, 0x00, 0x00, 0x00]
    ++ toBytes 2 (frameCrc [0xA7, 0x31, 0x05, 0x80, 0x03, 0x02, 0x00, 0x51, 0x01, 0x00, 0x00, 0x00] [])

/-- The adapter at position 5 of role 0 with W1 in ACTIVE. -/
def wExampleSite : State := { (wUp.modPort 1 fun p => { p with state := .active }) with strapPos := 5, ring := { joined := true } }

/-- The example after R382: the first 17 bytes of its response. -/
theorem test_ring_example :
    (match exec (.ringRead wExampleRequest) wExampleSite with
      | .next t => (t.ring.waiting.headD []).take 17
      | _ => []) = [0xA7, 0x38, 0xC0, 0x0B, 0x00, 0x16, 0x00, 0x51, 0x01, 0x00, 0x00, 0x00, 1, 0, 0, 0, 5] := by
  decide +kernel

/-- The borrowed window of the example in chapter 8. -/
theorem test_window_example :
    rewrite { wUp.put 0x7000 0x01 0 1 with
        tabs := [(ekey 0x7000 0x04, [0xF0 + 2048 * 2 ^ 25 + 2 * 2 ^ 43 + 0x41 * 2 ^ 55 + 32768 * 2 ^ 63])] }
      0x7C0080000040 = 0x905080000040 := by decide +kernel

/-- Eyes of the example in chapter 3: d3 at 14, d40 at 25, group 3 at 31 and more, every other wire at 40. -/
def wEyes : List (BitVec 16) :=
  (List.range 72).map fun w => BitVec.ofNat 16 (256 * (if w = 3 then 14 else if w = 40 then 25 else if w = 50 then 31 else 40))

/-- The spare map of the example in chapter 3. -/
theorem test_spares_example : selectSpares wEyes [] 0x2A0 20 28 = some 0x4062B3 := by decide +kernel

/-- The port of the credit example in chapter 5. -/
def wCreditPort (u7 : Nat) : Port :=
  { uv := [0, 0, 10, 0, 0, 30, 800, u7, 0, 0, 0, 0, 0, 0, 0, 0], rsvP := 0 :: List.replicate 15 32, shP := 3616 }

/-- The credit example in chapter 5: a 9-cell write starts at X = 3,536 and waits at X = 3,610; a 9-cell response starts. -/
theorem test_credit_example :
    creditOk (wUp.modPort 0 fun _ => wCreditPort 2800) 0 3 7 9 = true
      ∧ creditOk (wUp.modPort 0 fun _ => wCreditPort 2874) 0 3 7 9 = false
      ∧ creditOk (wUp.modPort 0 fun _ => wCreditPort 2874) 0 3 2 9 = true := by decide +kernel

/-- The descriptor of the example in chapter 10. -/
def wExampleDesc : Desc := { wDesc with ifmt := 3, cfmt := 0, ofmt := 3 }

/-- The local block of die A in the example in chapter 10. -/
theorem test_to_carry_example :
    (toCarry wExampleDesc ([127, 0x46, 0xBA, 0x34, 0x40] ++ List.replicate 28 0)).1
      = .cb 128 ([112, -40, 24, 64] ++ List.replicate 28 0) := by decide +kernel

/-- The combination at die B in the example in chapter 10. -/
theorem test_combine_example :
    combine wExampleDesc (.cb 128 ([112, 96, -32, 64] ++ List.replicate 28 0))
        (.cb 128 ([112, -40, 24, 64] ++ List.replicate 28 0))
      = (.cb 129 ([112, 28, -4, 64] ++ List.replicate 28 0), { resc := true }) := by decide +kernel

/-- The delivery at die C in the example in chapter 10. -/
theorem test_deliver_example :
    (deliver wExampleDesc (.cb 130 ([80, -6, 4, 46] ++ List.replicate 28 0)) 0).1
      = [0x7A, 0x7A, 0xDC, 0x58, 0x74] ++ List.replicate 28 0 := by decide +kernel

/-- R410 for the Ihleo-X with no fuse burnt. -/
theorem test_idcode_value : idcodeOf State.reset = 0x21E43001 := by decide +kernel

/-! ### Witnesses of the hypotheses -/

theorem witness_fabricInterface :
    (∃ (s : State) (c : IfiCell) (rest : List IfiCell) (ch : IngCh), s.ifiReady = true ∧ channelOf c.cch = some ch ∧
      rest.length + 1 ≤ s.icr.getD (ingIdx ch) 0 ∧ OneTxn c rest ∧ ingressBad ch c rest = false)
    ∧ (∃ (s : State) (c : IfiCell) (rest : List IfiCell) (ch : IngCh), s.Inv ∧ s.ifiReady = true ∧
      channelOf c.cch = some ch ∧ rest.length + 1 ≤ s.icr.getD (ingIdx ch) 0 ∧ OneTxn c rest ∧
      ingressBad ch c rest = true)
    ∧ (∃ (s : State) (w : Waiting) (n : Nat), s.ifiReady = true ∧ s.elab_.nBeat ≠ 0 ∧ s.egress = [(.rsp, w)] ∧
      w.taken = 0 ∧ w.txn.ifiCells.length = 1 ∧ s.ecr.getD (egIdx .rsp) 0 = n + 1)
    ∧ (∃ (s : State), s.ifiReady = true ∧ s.egress = [])
    ∧ (∃ (s : State), s.ifiReady = true)
    ∧ (∃ (s : State), s.ifiReady = true)
    ∧ (∃ (s : State) (code : BitVec 8), s.Inv ∧ s.ifiReady = true ∧ code ≠ 1 ∧ code ≠ 2)
    ∧ (∃ (s : State), s.ifiReady = false) :=
  ⟨⟨wUp, wCell, [], .req, by decide +kernel, by decide +kernel, by decide +kernel, oneTxn_of (by decide +kernel),
     by decide +kernel⟩,
   ⟨wUp, { wCell with csop := false }, [], .req, inv_of _ (by decide +kernel), by decide +kernel, by decide +kernel,
     by decide +kernel, oneTxn_of (by decide +kernel), by decide +kernel⟩,
   ⟨{ wUp with egress := [(.rsp, wCpl)] }, wCpl, 7, by decide +kernel⟩,
   ⟨wUp, by decide +kernel⟩,
   ⟨wUp, by decide +kernel⟩,
   ⟨wUp, by decide +kernel⟩,
   ⟨wUp, 0x7F, inv_of _ (by decide +kernel), by decide +kernel⟩,
   ⟨State.reset, by decide +kernel⟩⟩

theorem witness_tenancyControl :
    (∃ (s : State) (ten : Ten), s.Inv ∧ s.ifiReady = true ∧ ten ≠ 0 ∧ tenState s ten.toNat = 0 ∧ s.ingress = [] ∧
      s.rlc.miss = [] ∧ s.rlc.victims = [] ∧ s.sems = [] ∧ (∀ p ∈ s.ports, p.assigned = []) ∧ s.ten.park = [])
    ∧ (∃ (s : State) (ten : Ten), s.Inv ∧ s.ifiReady = true ∧ ten ≠ 0 ∧ tenState s ten.toNat = 2)
    ∧ (∃ (s : State) (ten : Ten), s.Inv ∧ s.ifiReady = true ∧ (ten = 0 ∨ tenState s ten.toNat = 1))
    ∧ (∃ (s : State) (ten : Ten), s.ifiReady = true ∧ ten ≠ 0 ∧ tenState s ten.toNat = 2)
    ∧ (∃ (s : State) (ten : Ten) (d : Drain), s.ifiReady = true ∧ ten ≠ 0 ∧ tenState s ten.toNat = 1 ∧ s.ten.drains = [d] ∧
      d.ten = ten)
    ∧ (∃ (s : State) (ten : Ten) (d : Drain), s.Inv ∧ drainOf s ten = some d ∧ drainItems s ten = 0 ∧ d.readmit = false)
    ∧ (∃ (s : State) (ten : Ten) (d : Drain), s.Inv ∧ drainOf s ten = some d ∧ drainItems s ten ≠ 0 ∧ d.readmit = false) :=
  ⟨⟨wUp, 3, inv_of _ (by decide +kernel), by decide +kernel⟩,
   ⟨{ wUp with ten := { st := [(3, 2)] } }, 3, inv_of _ (by decide +kernel), by decide +kernel⟩,
   ⟨{ wUp with ten := { st := [(3, 1)] } }, 3, inv_of _ (by decide +kernel), by decide +kernel⟩,
   ⟨{ wUp with ten := { st := [(3, 2)], park := [(.req, { txn := wTxn 1 (.mem false false 8 0) [] })] } }, 3,
     by decide +kernel⟩,
   ⟨{ wUp with ten := { st := [(3, 1)], drains := [{ ten := 3, at_ := 4000, readmit := false }] } }, 3,
     { ten := 3, at_ := 4000, readmit := false }, by decide +kernel⟩,
   ⟨{ wUp with ten := { st := [(3, 1)], drains := [{ ten := 3, at_ := 4000, readmit := false }] } }, 3,
     { ten := 3, at_ := 4000, readmit := false }, inv_of _ (by decide +kernel), by decide +kernel⟩,
   ⟨{ wUp with ten := { st := [(3, 1)], drains := [{ ten := 3, at_ := 4000, readmit := false }] }, localTags := [(0, { opc := 0x20, ten := 3, rqid := 0, seq := 1, use_ := .die })] },
     3, { ten := 3, at_ := 4000, readmit := false }, inv_of _ (by decide +kernel), by decide +kernel⟩⟩

theorem witness_detection :
    (∃ (s : State) (q : PortId) (b : BundleId) (f : BitVec 32), s.elab_.portBuilt q = true ∧ q.val < 8 ∧
      b.val < s.elab_.units q ∧ helloGood f = false)
    ∧ (∃ (s : State) (q : PortId) (b : BundleId) (f : BitVec 32), s.elab_.portBuilt q = true ∧ q.val < 8 ∧
      b.val < s.elab_.units q ∧ helloGood f = true ∧ ((s.port q).bundles.getD b {}).hello ≠ some f)
    ∧ (∃ (s : State) (q : PortId) (b : BundleId) (f : BitVec 32) (t0 : Nat), s.Inv ∧ s.elab_.portBuilt q = true ∧
      q.val < 8 ∧ b.val < s.elab_.units q ∧ b.val < (s.port q).bundles.length ∧ helloGood f = true ∧
      ((s.port q).bundles.getD b {}).hello = some f ∧ (s.port q).state = .detect ∧ (s.port q).gatherAt = some t0 ∧
      s.now < t0 + 4000 ∧ (s.port q).partnerRdy = false ∧ f.getLsbD 23 = false ∧ helloFits (s.port q) b f = true)
    ∧ (∃ (s : State) (q : PortId) (b : BundleId) (f : BitVec 32) (t0 : Nat), s.Inv ∧ s.elab_.portBuilt q = true ∧
      q.val < 8 ∧ b.val < s.elab_.units q ∧ b.val < (s.port q).bundles.length ∧ helloGood f = true ∧
      ((s.port q).bundles.getD b {}).hello = some f ∧ (s.port q).state = .detect ∧ (s.port q).gatherAt = some t0 ∧
      (s.port q).partnerRdy = false ∧ helloFits (s.port q) b f = false)
    ∧ (∃ (s : State) (q : PortId) (b : BundleId) (f : BitVec 32), s.Inv ∧ s.elab_.portBuilt q = true ∧ q.val < 8 ∧
      b.val < s.elab_.units q ∧ helloGood f = true ∧ ((s.port q).bundles.getD b {}).hello = some f ∧
      (s.port q).state = .hold ∧ f.getLsbD 22 = false ∧ outranked s q 3 = false)
    ∧ (∃ (s : State) (q : PortId), s.Inv ∧ s.elab_.portBuilt q = true ∧
      (s.port q).state ∈ [.active, .retrain, .hold, .nap, .dormant, .fault] ∧ outranked s q 3 = false ∧
      (s.port q).pllPark = false)
    ∧ (∃ (s : State) (q : PortId), s.Inv ∧ s.elab_.portBuilt q = true ∧ (s.port q).state ∈ [.train, .align, .param] ∧
      outranked s q 3 = false ∧ (s.port q).pllPark = false)
    ∧ (∃ (s : State) (q : PortId), s.Inv ∧ s.elab_.portBuilt q = true ∧ q.val < 8 ∧ (s.port q).state = .detect ∧
      (s.port q).gatherAt ≠ none ∧ (s.port q).pllPark = false ∧ (s.port q).partnerRdy = false)
    ∧ (∃ (s : State) (q : PortId), s.Inv ∧ s.elab_.portBuilt q = true ∧ q.val < 8 ∧ (s.port q).state = .detect ∧
      gathered s q = true ∧ (s.port q).pllPark = false ∧ (s.port q).partnerHello = true ∧
      (s.port q).partnerRdy = true ∧ supRuns s = true ∧ (s.port q).ta < s.pget 0x5002 q 0x02 4)
    ∧ (∃ (s : State) (q : PortId), s.Inv ∧ s.elab_.portBuilt q = true ∧ 8 ≤ q.val ∧ (s.port q).state = .detect ∧
      (s.port q).pllPark = false ∧ (s.port q).partnerRdy = false)
    ∧ (∃ (s : State) (q : PortId), s.Inv ∧ s.elab_.portBuilt q = true ∧ 8 ≤ q.val ∧ (s.port q).state = .detect ∧
      (s.port q).pllPark = false ∧ (s.port q).partnerHello = true ∧ (s.port q).partnerRdy = true ∧ supRuns s = true ∧
      (s.port q).ta < s.pget 0x5002 q 0x02 4)
    ∧ (∃ (s : State) (q : PortId), s.Inv ∧ s.elab_.portBuilt q = true ∧ (s.port q).state = .detect ∧ supRuns s = true) :=
  ⟨⟨wLink 0 .detect, 0, 0, 0xA000000B, by decide +kernel⟩,
   ⟨wLink 0 .detect, 0, 0, 0xA000000A, by decide +kernel⟩,
   ⟨wHello 0 4000, 0, 0, wHelloWord 0, 4000, inv_of _ (by decide +kernel), by decide +kernel⟩,
   ⟨wHello 1 4000, 0, 0, wHelloWord 1, 4000, inv_of _ (by decide +kernel), by decide +kernel⟩,
   ⟨wPort 7 fun p => { p with state := .hold, bundles := p.bundles.map fun b => { b with hello := some 0xA000000A } },
     7, 7, 0xA000000A, inv_of _ (by decide +kernel), by decide +kernel⟩,
   ⟨wLink 9 .fault, 9, inv_of _ (by decide +kernel), by decide +kernel⟩,
   ⟨wLink 9 .align, 9, inv_of _ (by decide +kernel), by decide +kernel⟩,
   ⟨wPort 0 fun p => { p with state := .detect, partnerHello := true, gatherAt := some 900 }, 0,
     inv_of _ (by decide +kernel), by decide +kernel⟩,
   ⟨wPort 0 fun p => { p with state := .detect, gatherAt := some 900, partnerHello := true, partnerRdy := true, ta := 3 },
     0, inv_of _ (by decide +kernel), by decide +kernel⟩,
   ⟨wLink 8 .detect, 8, inv_of _ (by decide +kernel), by decide +kernel⟩,
   ⟨wPort 8 fun p => { p with state := .detect, partnerHello := true, partnerRdy := true, ta := 3 }, 8,
     inv_of _ (by decide +kernel), by decide +kernel⟩,
   ⟨wLink 0 .detect, 0, inv_of _ (by decide +kernel), by decide +kernel⟩⟩

theorem witness_trainingMessages :
    (∃ (s : State) (q : PortId), s.elab_.portBuilt q = true ∧ trains s q = true ∧ (s.port q).step = .t1)
    ∧ (∃ (s : State) (q : PortId) (c : BitVec 4), s.ports.length = 10 ∧ s.elab_.portBuilt q = true ∧ trains s q = true ∧
      (s.port q).step.code = c.toNat ∧ (s.port q).doneSent = false)
    ∧ (∃ (s : State) (q : PortId) (c : BitVec 4) (n : TrainStep), s.Inv ∧ s.elab_.portBuilt q = true ∧ trains s q = true ∧
      (s.port q).step.code = c.toNat ∧ (s.port q).doneSent = true ∧
      (s.port q).step.next (staysFast (s.port q)) = some n)
    ∧ (∃ (s : State) (q : PortId) (b : BundleId), s.elab_.portBuilt q = true ∧ q.val < 8 ∧ b.val < s.elab_.units q ∧
      trains s q = true)
    ∧ (∃ (s : State) (q : PortId) (b : BundleId) (map : BitVec 20), s.Inv ∧ s.elab_.portBuilt q = true ∧ q.val < 8 ∧
      b.val < s.elab_.units q ∧ trains s q = true ∧ b.val < (s.port q).bundles.length ∧
      ((s.port q).bundles.getD b {}).spareMap % 2 ^ 20 = map.toNat)
    ∧ (∃ (s : State) (q : PortId), s.Inv ∧ s.elab_.portBuilt q = true ∧ supRuns s = true ∧ (s.port q).pllPark = false ∧
      (s.port q).state ∈ [.train, .align, .param] ∧ (s.port q).ta < s.pget 0x5002 q 0x02 4)
    ∧ (∃ (s : State) (q : PortId), s.Inv ∧ s.elab_.portBuilt q = true ∧ supRuns s = true ∧ (s.port q).pllPark = false ∧
      (s.port q).state = .retrain ∧ (s.port q).ra < s.pget 0x5002 q 0x01 3)
    ∧ (∃ (s : State) (q : PortId), s.Inv ∧ s.elab_.portBuilt q = true ∧ q.val < 8 ∧ supRuns s = true ∧
      (s.port q).pllPark = false ∧ (s.port q).state ∈ [.align, .param] ∧ (s.port q).ta < s.pget 0x5002 q 0x02 4)
    ∧ (∃ (s : State) (q : PortId) (m : Measured) (b : Nat) (es : List (BitVec 16)) (b' : Nat), s.Inv ∧
      s.elab_.portBuilt q = true ∧ q.val < 8 ∧ supRuns s = true ∧ (s.port q).pllPark = false ∧
      (s.port q).state = .train ∧ (s.port q).step = .t2 ∧ (s.port q).doneSent = false ∧ (s.port q).doneRcvd = false ∧
      bundlesInPlay (s.port q) ≠ [] ∧ b < (s.port q).bundles.length ∧
      m.eyes.find? (fun e => e.1 == b) = some (b', es)) :=
  ⟨⟨wTrain 0 .train .t1 false, 0, by decide +kernel⟩,
   ⟨wTrain 0 .train .t2 false, 0, 2, by decide +kernel⟩,
   ⟨wTrain 0 .train .t2 true, 0, 2, .t3, inv_of _ (by decide +kernel), by decide +kernel⟩,
   ⟨wTrain 0 .train .t5 false, 0, 7, by decide +kernel⟩,
   ⟨wTrain 0 .train .t5 false, 0, 7, 0, inv_of _ (by decide +kernel), by decide +kernel⟩,
   ⟨wTrain 0 .align .a1 false, 0, inv_of _ (by decide +kernel), by decide +kernel⟩,
   ⟨wTrain 0 .retrain .t2 false, 0, inv_of _ (by decide +kernel), by decide +kernel⟩,
   ⟨wTrain 0 .param .idle false, 0, inv_of _ (by decide +kernel), by decide +kernel⟩,
   ⟨wPort 0 fun p => { p with state := .train, step := .t2, offer := 0xFF, mask := 0xFF }, 0,
     { bad := [], eyes := [(0, [5])], eqs := [] }, 0, [5], 0, inv_of _ (by decide +kernel), by decide +kernel⟩⟩

theorem witness_wireLosses :
    (∃ (s : State) (q : PortId) (b : BundleId) (b' : Nat) (c : Instr), (c = .clockLoss q b ∨ c = .trkLoss q b) ∧
      s.ports.length = 10 ∧ s.elab_.portBuilt q = true ∧ q.val < 8 ∧ b.val < s.elab_.units q ∧
      (s.port q).state = .active ∧ b.val < (s.port q).bundles.length ∧ bitAt (s.port q).mask b = true ∧
      ((s.port q).bundles.getD b {}).lost = false ∧ b' < (s.port q).bundles.length ∧ b' ≠ b.val ∧
      bitAt (s.port q).mask b' = true ∧ ((s.port q).bundles.getD b' {}).lost = false)
    ∧ (∃ (s : State) (q : PortId) (b' : Nat), s.Inv ∧ s.elab_.portBuilt q = true ∧ q.val < 8 ∧ (s.port q).state = .active ∧
      (s.port q).lossAt ≠ none ∧ outranked s q 4 = false ∧ (s.port q).pllPark = false ∧
      b' ∈ bundlesInUse (s.port q) ∧ ((s.port q).bundles.getD b' {}).lost = false ∧
      ((bundlesInUse (s.port q)).filter fun b => ((s.port q).bundles.getD b {}).lost && !((s.port q).bundles.getD b {}).told) ≠ [])
    ∧ (∃ (s : State) (q : PortId) (b : BundleId), s.Inv ∧ s.elab_.portBuilt q = true ∧ q.val < 8 ∧
      b.val < s.elab_.units q ∧ (s.port q).state = .active ∧ siblingMerged s q = false ∧ outranked s q 5 = false ∧
      (s.port q).pllPark = false ∧ (s.port q).ra < s.pget 0x5002 q 0x01 3)
    ∧ (∃ (s : State) (q : PortId) (b : BundleId), s.elab_.portBuilt q = true ∧ q.val < 8 ∧ b.val < s.elab_.units q)
    ∧ (∃ (s : State) (q : PortId) (b : BundleId), s.elab_.portBuilt q = true ∧ q.val < 8 ∧ b.val < s.elab_.units q) :=
  ⟨⟨wPort 0 fun p => { p with state := .active, mask := 3 }, 0, 0, 1, .clockLoss 0 0, by decide +kernel⟩,
   ⟨wPort 0 fun p => { p with state := .active, mask := 3, lossAt := some 4900, bundles := p.bundles.mapIdx fun i b => { b with lost := i == 0 } },
     0, 1, inv_of _ (by decide +kernel), by decide +kernel⟩,
   ⟨wPort 0 fun p => { p with state := .active, ra := 2 }, 0, 0, inv_of _ (by decide +kernel), by decide +kernel⟩,
   ⟨wUp, 0, 7, by decide +kernel⟩,
   ⟨wUp, 0, 7, by decide +kernel⟩⟩

theorem witness_liveSwap :
    (∃ (s : State) (q : PortId) (b : BundleId) (w : WireId), s.elab_.portBuilt q = true ∧ q.val < 8 ∧
      b.val < s.elab_.units q ∧ (s.port q).state = .active ∧ crcOnly s q = false ∧ ucieMode s q = false ∧
      swapThreshold s q ≠ 0 ∧ swapThreshold s q ≤ errorCount s ((s.port q).bundles.getD b {}) w ∧
      (((s.port q).bundles.getD b {}).swaps.any fun x => x.wire / 16 == w.val / 16) = false)
    ∧ (∃ (s : State) (q : PortId) (b : BundleId) (w : WireId), s.elab_.portBuilt q = true ∧ q.val < 8 ∧
      b.val < s.elab_.units q ∧
      ((s.port q).state ≠ .active ∨ crcOnly s q = true ∨ ucieMode s q = true ∨ swapThreshold s q = 0 ∨ errorCount s ((s.port q).bundles.getD b {}) w < swapThreshold s q ∨ (((s.port q).bundles.getD b {}).swaps.any fun x => x.wire / 16 == w.val / 16) = true))
    ∧ (∃ (s : State) (q : PortId) (b : BundleId) (w : WireId) (x : Swap), s.elab_.portBuilt q = true ∧ q.val < 8 ∧
      b.val < s.elab_.units q ∧ ((s.port q).bundles.getD b {}).swaps.find? (fun y => y.wire == w.val) = some x)
    ∧ (∃ (s : State) (q : PortId) (b : BundleId) (w : WireId), s.elab_.portBuilt q = true ∧ q.val < 8 ∧
      b.val < s.elab_.units q ∧ (((s.port q).bundles.getD b {}).swaps.find? fun y => y.wire == w.val) = none)
    ∧ (∃ (s : State) (q : PortId) (b : BundleId), s.Inv ∧ s.elab_.portBuilt q = true ∧ q.val < 8 ∧
      b.val < s.elab_.units q ∧ (s.port q).state = .active ∧ (s.port q).pllPark = false)
    ∧ (∃ (s : State) (q : PortId) (b : BundleId), s.elab_.portBuilt q = true ∧ q.val < 8 ∧ b.val < s.elab_.units q ∧
      (s.port q).state ≠ .active)
    ∧ (∃ (s : State) (q : PortId) (b : BundleId) (w : WireId), s.Inv ∧ s.elab_.portBuilt q = true ∧ q.val < 8 ∧
      b.val < s.elab_.units q ∧ b.val < (s.port q).bundles.length ∧
      (((s.port q).bundles.getD b {}).swaps.any fun y => y.wire == w.val) = true)
    ∧ (∃ (s : State) (q : PortId) (b : BundleId) (w : WireId), s.elab_.portBuilt q = true ∧ q.val < 8 ∧
      b.val < s.elab_.units q ∧ (((s.port q).bundles.getD b {}).swaps.any fun y => y.wire == w.val) = false)
    ∧ (∃ (s : State) (q : PortId) (b : BundleId) (g : Fin 4), s.Inv ∧ s.elab_.portBuilt q = true ∧ q.val < 8 ∧
      b.val < s.elab_.units q ∧ b.val < (s.port q).bundles.length ∧ crcOnly s q = false ∧ swapThreshold s q ≠ 0 ∧
      swapThreshold s q ≤ errorCount s ((s.port q).bundles.getD b {}) (64 + g.val) ∧
      bitAt ((s.port q).bundles.getD b {}).spareMap (5 * g + 4) = false ∧
      bitAt ((s.port q).bundles.getD b {}).spareMap (24 + g) = false)
    ∧ (∃ (s : State) (q : PortId) (b : BundleId) (g : Fin 4), s.elab_.portBuilt q = true ∧ q.val < 8 ∧
      b.val < s.elab_.units q ∧
      (crcOnly s q = true ∨ swapThreshold s q = 0 ∨ errorCount s ((s.port q).bundles.getD b {}) (64 + g.val) < swapThreshold s q ∨ bitAt ((s.port q).bundles.getD b {}).spareMap (5 * g + 4) = true ∨ bitAt ((s.port q).bundles.getD b {}).spareMap (24 + g) = true)) :=
  ⟨⟨wErrs 63 20 .active, 0, 0, 63, by decide +kernel⟩,
   ⟨wErrs 63 15 .active, 0, 0, 63, by decide +kernel⟩,
   ⟨wPort 0 fun p => { p with bundles := p.bundles.map fun b => { b with swaps := [{ wire := 63, copies := 15 }] } }, 0,
     0, 63, { wire := 63, copies := 15 }, by decide +kernel⟩,
   ⟨wErrs 63 20 .active, 0, 0, 63, by decide +kernel⟩,
   ⟨wLink 0 .active, 0, 0, inv_of _ (by decide +kernel), by decide +kernel⟩,
   ⟨wLink 0 .train, 0, 0, by decide +kernel⟩,
   ⟨wPort 0 fun p => { p with bundles := p.bundles.map fun b => { b with swaps := [{ wire := 63, copies := 1 }] } }, 0,
     0, 63, inv_of _ (by decide +kernel), by decide +kernel⟩,
   ⟨wUp, 0, 0, 63, by decide +kernel⟩,
   ⟨wErrs 67 16 .active, 0, 0, 3, inv_of _ (by decide +kernel), by decide +kernel⟩,
   ⟨wUp, 0, 0, 3, by decide +kernel⟩⟩

theorem witness_reachPhy :
    (∃ (s : State) (q : PortId) (l : LaneId) (h : BitVec 64), s.ports.length = 10 ∧ s.elab_.portBuilt q = true ∧
      8 ≤ q.val ∧ l.val < s.elab_.units q ∧ xframeGood h = true ∧ (s.port q).state = .detect ∧
      (s.port q).pll = false ∧ h.getLsbD 25 = false)
    ∧ (∃ (s : State) (q : PortId), s.elab_.portBuilt q = true ∧ trains s q = true ∧ (s.port q).step = .xa3)
    ∧ (∃ (s : State) (q : PortId) (l : LaneId) (l' : Nat), s.ports.length = 10 ∧ s.elab_.portBuilt q = true ∧ 8 ≤ q.val ∧
      l.val < s.elab_.units q ∧ (s.port q).state = .active ∧ l.val ∈ lanesInUse (s.port q) ∧
      ((s.port q).lanes.getD l {}).lost = false ∧ l' ∈ lanesInUse (s.port q) ∧ l' ≠ l.val ∧
      ((s.port q).lanes.getD l' {}).lost = false ∧ (s.port q).rxLanes ≠ [])
    ∧ (∃ (s : State) (q : PortId), s.Inv ∧ s.elab_.portBuilt q = true ∧ (s.port q).state = .active ∧
      (s.port q).lossAt ≠ none ∧ (∃ ln ∈ (s.port q).lanes, ln.lost = true) ∧
      (∃ l ∈ lanesInUse (s.port q), ((s.port q).lanes.getD l {}).lost = false) ∧ outranked s q 4 = false ∧
      (s.port q).pllPark = false)
    ∧ (∃ (s : State) (q : PortId) (l : LaneId), s.elab_.portBuilt q = true ∧ 8 ≤ q.val ∧ l.val < s.elab_.units q)
    ∧ (∃ (s : State) (q : PortId) (cw : Codeword), s.Inv ∧ s.elab_.portBuilt q = true ∧ 8 ≤ q.val ∧
      (s.port q).state = .active ∧ (cwDecode cw).bad = false ∧ cwHeaderGood (bitsOf (cwDecode cw).msg 0 20) = true ∧
      bitsOf (cwDecode cw).msg 12 4 = 0 ∧ bitAt (cwDecode cw).msg 8 = false)
    ∧ (∃ (s : State) (q : PortId) (cw : Codeword) (h : BitVec 5120) (sv : BitVec 3), s.Inv ∧ s.elab_.portBuilt q = true ∧
      8 ≤ q.val ∧ (s.port q).state = .active ∧ (s.port q).cwHalf = some (h, false, sv) ∧ (cwDecode cw).bad = false ∧
      cwHeaderGood (bitsOf (cwDecode cw).msg 0 20) = true ∧ bitsOf (cwDecode cw).msg 12 4 = 0 ∧
      bitAt (cwDecode cw).msg 8 = true ∧ sv.getLsbD 2 = bitAt (cwDecode cw).msg 9) :=
  ⟨⟨wLink 8 .detect, 8, 15, 0x6000000000006A93, by decide +kernel⟩,
   ⟨wPort 8 fun p => { p with state := .align, step := .xa3 }, 8, by decide +kernel⟩,
   ⟨(wReach fun _ l => l).modPort 8 fun p => { p with rxLanes := List.range 16 }, 8, 0, 15, by decide +kernel⟩,
   ⟨(wReach fun i l => { l with lost := i == 3 }).modPort 8 fun p => { p with lossAt := some 4900 }, 8,
     inv_of _ (by decide +kernel), by decide +kernel⟩,
   ⟨wReach fun _ l => l, 8, 15, by decide +kernel⟩,
   ⟨wReach fun _ l => l, 8, wCodeword 0x900C5, inv_of _ (by decide +kernel), by decide +kernel, by decide +kernel,
     by decide +kernel, by rw [wDecodeA], by rw [wDecodeA]; rfl, by rw [wDecodeA]; rfl, by rw [wDecodeA]; rfl⟩,
   ⟨(wReach fun _ l => l).modPort 8 fun p => { p with cwHalf := some (5, false, 4) }, 8, wCodeword 0xA03C5, 5, 4,
     inv_of _ (by decide +kernel), by decide +kernel, by decide +kernel, by decide +kernel, by decide +kernel,
     by rw [wDecodeB], by rw [wDecodeB]; rfl, by rw [wDecodeB]; rfl, by rw [wDecodeB]; rfl, by rw [wDecodeB]; rfl⟩⟩

theorem witness_sleepHandshake :
    (∃ (s : State) (q : PortId) (tg : SleepTarget), s.elab_.portBuilt q = true ∧ (s.port q).state = .active ∧
      (s.port q).sleepReq = none ∧ ¬(8 ≤ q.val ∧ tg = .nap) ∧ ownsSlots (s.port (logical s q)) = false)
    ∧ (∃ (s : State) (q : PortId), s.elab_.portBuilt q = true ∧ (s.port q).state = .active ∧ 8 ≤ q.val)
    ∧ (∃ (s : State) (q : PortId) (tg : SleepTarget), s.elab_.portBuilt q = true ∧ (s.port q).state = .active ∧
      ¬(8 ≤ q.val ∧ tg = .nap) ∧ ownsSlots (s.port (logical s q)) = true)
    ∧ (∃ (s : State) (q : PortId) (tg : SleepTarget) (own : SleepTarget), s.elab_.portBuilt q = true ∧
      (s.port q).state = .active ∧ ¬(8 ≤ q.val ∧ tg = .nap) ∧ ownsSlots (s.port (logical s q)) = false ∧
      (s.port q).sleepReq = some own)
    ∧ (∃ (s : State) (q : PortId) (tg : SleepTarget), s.elab_.portBuilt q = true ∧ (s.port q).sleepReq = some tg ∧
      ownsSlots (s.port (logical s q)) = false)
    ∧ (∃ (s : State) (q : PortId) (c : Instr), (c = .sleepNak q ∨ c = .sleepReqTimeout q) ∧ s.Inv ∧
      s.elab_.portBuilt q = true ∧ (s.port q).sleepReq ≠ none)
    ∧ (∃ (s : State) (q : PortId) (tg : SleepTarget), s.Inv ∧ s.elab_.portBuilt q = true ∧ (s.port q).state = .active ∧
      (s.port q).sleepTo = some tg ∧ ownsSlots (s.port (logical s q)) = false ∧
      ((s.port q).codes.any fun c => c.code == 2) = false)
    ∧ (∃ (s : State) (q : PortId) (tg : SleepTarget), s.elab_.portBuilt q = true ∧ (s.port q).state = .active ∧
      (s.port q).sleepTo = some tg ∧ ownsSlots (s.port (logical s q)) = true) :=
  ⟨⟨wLink 0 .active, 0, .nap, by decide +kernel⟩,
   ⟨wLink 8 .active, 8, by decide +kernel⟩,
   ⟨wPort 0 fun p => { p with state := .active, calIdle := false }, 0, .dormant, by decide +kernel⟩,
   ⟨wPort 0 fun p => { p with state := .active, sleepReq := some .dormant }, 0, .nap, .dormant, by decide +kernel⟩,
   ⟨wPort 0 fun p => { p with state := .active, sleepReq := some .dormant }, 0, .dormant, by decide +kernel⟩,
   ⟨wPort 0 fun p => { p with state := .active, sleepReq := some .dormant }, 0, .sleepReqTimeout 0, by decide +kernel,
     inv_of _ (by decide +kernel), by decide +kernel⟩,
   ⟨wPort 0 fun p => { p with state := .active, sleepTo := some .nap }, 0, .nap, inv_of _ (by decide +kernel),
     by decide +kernel⟩,
   ⟨wPort 0 fun p => { p with state := .active, calIdle := false, sleepTo := some .nap }, 0, .nap, by decide +kernel⟩⟩

theorem witness_wakes :
    (∃ (s : State) (q : PortId) (c : Instr), s.Inv ∧ s.elab_.portBuilt q = true ∧ (s.port q).wakeAt = none ∧
      (c = .portWake q ∧ (s.port q).state ∈ [.nap, .dormant] ∨ c = .napWakePattern q ∧ (s.port q).state = .nap ∨ c = .signalDetect q ∧ (s.port q).state = .dormant))
    ∧ (∃ (s : State) (q : PortId) (c : Instr), (c = .portWake q ∨ c = .napWakePattern q) ∧ s.elab_.portBuilt q = true ∧
      (s.port q).state = .active ∧ (s.port q).sleepTo ≠ none ∧ sibling s q = none)
    ∧ (∃ (s : State) (q : PortId) (at_ : Nat), s.Inv ∧ s.elab_.portBuilt q = true ∧ (s.port q).state = .nap ∧
      (s.port q).wakeAt = some at_)
    ∧ (∃ (s : State) (q : PortId) (silent : List BundleId), s.Inv ∧ s.elab_.portBuilt q = true ∧ q.val < 8 ∧
      (s.port q).state = .nap ∧ (s.port q).wakeAt ≠ none ∧ siblingMerged s q = false ∧
      (s.port q).bundles.length ≤ 16 ∧ (∀ b : BundleId, bitAt (s.port q).mask b = true → b ∈ silent))
    ∧ (∃ (s : State) (q : PortId) (b : BundleId) (b' : BundleId), s.Inv ∧ s.elab_.portBuilt q = true ∧ q.val < 8 ∧
      (s.port q).state = .nap ∧ (s.port q).wakeAt ≠ none ∧ (s.port q).pllPark = false ∧ outranked s q 4 = false ∧
      b.val < (s.port q).bundles.length ∧ b'.val < (s.port q).bundles.length ∧ b ≠ b' ∧
      bitAt (s.port q).mask b = true ∧ bitAt (s.port q).mask b' = true ∧ (s.port q).retained = none)
    ∧ (∃ (s : State) (q : PortId) (at_ : Nat) (c : Instr),
      (c = .dormantWakeComplete q true ∨ c = .reachWakeComplete q true) ∧ s.Inv ∧ s.elab_.portBuilt q = true ∧
      (s.port q).state = .dormant ∧ (s.port q).wakeAt = some at_ ∧ (8 ≤ q.val → wakeDelayOk (s.port q) = true))
    ∧ (∃ (s : State) (q : PortId) (c : Instr), (c = .dormantWakeComplete q false ∨ c = .reachWakeComplete q false) ∧
      s.Inv ∧ s.elab_.portBuilt q = true ∧ (s.port q).state = .dormant ∧ (s.port q).wakeAt ≠ none ∧
      (s.port q).ta < s.pget 0x5002 q 0x02 4) :=
  ⟨⟨wAsleep 8 .dormant none, 8, .signalDetect 8, inv_of _ (by decide +kernel), by decide +kernel⟩,
   ⟨wPort 0 fun p => { p with state := .active, sleepTo := some .nap }, 0, .napWakePattern 0, by decide +kernel⟩,
   ⟨wAsleep 0 .nap (some 4990), 0, 4990, inv_of _ (by decide +kernel), by decide +kernel⟩,
   ⟨wAsleep 0 .nap (some 4990), 0, [0, 1, 2, 3, 4, 5, 6, 7], inv_of _ (by decide +kernel), by decide +kernel⟩,
   ⟨wAsleep 0 .nap (some 4800), 0, 0, 1, inv_of _ (by decide +kernel), by decide +kernel⟩,
   ⟨wAsleep 0 .dormant (some 4990), 0, 4990, .dormantWakeComplete 0 true, by decide +kernel,
     inv_of _ (by decide +kernel), by decide +kernel⟩,
   ⟨wAsleep 8 .dormant (some 4990), 8, .reachWakeComplete 8 false, by decide +kernel, inv_of _ (by decide +kernel),
     by decide +kernel⟩⟩

theorem witness_idleTimers :
    (∃ (s : State) (q : PortId), s.elab_.portBuilt q = true ∧ (s.port q).state = .active ∧
      s.get (0xD100 + 16 * q) 0x01 16 ≠ 0 ∧ hasActivity s q = false)
    ∧ (∃ (s : State) (q : PortId) (c : Instr), (c = .idleEntry q ∨ c = .napIdleExpiry q ∨ c = .dormantIdleExpiry q) ∧
      s.elab_.portBuilt q = true ∧ hasActivity s q = true)
    ∧ (∃ (s : State) (q : PortId), s.elab_.portBuilt q = true ∧ q.val < 8 ∧ (s.port q).state = .active ∧
      s.get (0xD100 + 16 * q) 0x02 2000 ≠ 0 ∧
      ¬(s.get (0xD100 + 16 * q) 0x03 1000000 ≠ 0 ∧ s.get (0xD100 + 16 * q) 0x03 1000000 ≤ s.get (0xD100 + 16 * q) 0x02 2000) ∧
      hasActivity s q = false ∧ (s.port q).sleepReq = none ∧ (s.port q).sleepTo = none ∧ (s.port q).pllPark = false ∧
      unitRefusesSleep s q = false ∧ sibling s q = none)
    ∧ (∃ (s : State) (q : PortId), s.elab_.portBuilt q = true ∧ (s.port q).state = .active ∧
      s.get (0xD100 + 16 * q) 0x03 1000000 ≠ 0 ∧ hasActivity s q = false ∧ (s.port q).sleepReq = none ∧
      (s.port q).sleepTo = none ∧ (s.port q).pllPark = false ∧ unitRefusesSleep s q = false ∧ sibling s q = none)
    ∧ (∃ (s : State) (q : PortId), s.Inv ∧ s.elab_.portBuilt q = true ∧ (s.port q).state = .nap ∧
      (s.port q).wakeAt = none ∧ s.get (0xD100 + 16 * q) 0x03 1000000 ≠ 0 ∧ hasActivity s q = false)
    ∧ (∃ (s : State) (q : PortId) (mask : BitVec 16), s.Inv ∧ s.elab_.portBuilt q = true ∧ Writable s ∧ mask.toNat < 1024 ∧
      bitAt mask.toNat q = true ∧ (s.port q).state ∈ [.nap, .dormant] ∧ (s.port q).wakeAt = none) :=
  ⟨⟨wLink 0 .active, 0, by decide +kernel⟩,
   ⟨wPort 0 fun p => { p with state := .active, calIdle := false }, 0, .idleEntry 0, by decide +kernel⟩,
   ⟨wLink 0 .active, 0, by decide +kernel⟩,
   ⟨wLink 0 .active, 0, by decide +kernel⟩,
   ⟨wAsleep 0 .nap none, 0, inv_of _ (by decide +kernel), by decide +kernel⟩,
   ⟨wAsleep 9 .dormant none, 9, 0x3FF, inv_of _ (by decide +kernel), by decide +kernel,
     writable_of _ (by decide +kernel), by decide +kernel⟩⟩

theorem witness_recoveryTimers :
    (∃ (s : State) (q : PortId), s.Inv ∧ s.elab_.portBuilt q = true ∧ (s.port q).state ∈ [.active, .retrain] ∧
      outranked s q 4 = false ∧ (s.port q).pllPark = false)
    ∧ (∃ (s : State) (q : PortId), s.Inv ∧ s.elab_.portBuilt q = true ∧ (s.port q).state = .active ∧
      siblingMerged s q = false ∧ outranked s q 5 = false ∧ (s.port q).pllPark = false ∧
      (s.port q).ra < s.pget 0x5002 q 0x01 3)
    ∧ (∃ (s : State) (q : PortId), s.Inv ∧ s.elab_.portBuilt q = true ∧ (s.port q).state = .retrain ∧
      (s.port q).step = .idle)
    ∧ (∃ (s : State) (q : PortId), s.Inv ∧ s.elab_.portBuilt q = true ∧
      (s.port q).state ∈ [.active, .retrain, .detect, .train, .align, .param])
    ∧ (∃ (s : State) (q : PortId), s.Inv ∧ s.elab_.portBuilt q = true ∧ (s.port q).pllPark = true ∧ (s.port q).state ≠ .off)
    ∧ (∃ (s : State) (q : PortId), s.Inv ∧ s.elab_.portBuilt q = true ∧ (s.port q).state = .fault ∧
      s.pget 0x5000 q 0x17 100000000 ≠ 0)
    ∧ (∃ (s : State) (q : PortId), s.elab_.portBuilt q = true ∧ (s.port q).state = .active)
    ∧ (∃ (s : State) (q : PortId), s.Inv ∧ s.elab_.portBuilt q = true ∧ (s.port q).state ∈ [.hold, .fault] ∧
      (s.port q).holdNoticed = false ∧ s.pget 0x5002 q 0x0B 10000000 ≠ 0) :=
  ⟨⟨wPort 0 fun p => { p with state := .active, ra := 3, ta := 4 }, 0, inv_of _ (by decide +kernel), by decide +kernel⟩,
   ⟨wPort 0 fun p => { p with state := .active, ra := 2 }, 0, inv_of _ (by decide +kernel), by decide +kernel⟩,
   ⟨wLink 0 .retrain, 0, inv_of _ (by decide +kernel), by decide +kernel⟩,
   ⟨wLink 0 .param, 0, inv_of _ (by decide +kernel), by decide +kernel⟩,
   ⟨wPort 0 fun p => { p with state := .active, pllPark := true }, 0, inv_of _ (by decide +kernel), by decide +kernel⟩,
   ⟨wPort 0 fun p => { p with state := .fault, ra := 3, ta := 4 }, 0, inv_of _ (by decide +kernel), by decide +kernel⟩,
   ⟨wPort 0 fun p => { p with state := .active, ta := 1, ra := 1 }, 0, by decide +kernel⟩,
   ⟨wLink 0 .hold, 0, inv_of _ (by decide +kernel), by decide +kernel⟩⟩

theorem witness_portManagement :
    (∃ (s : State) (q : PortId), s.Inv ∧ s.elab_.portBuilt q = true ∧ Writable s ∧ (s.port q).state ≠ .off)
    ∧ (∃ (s : State) (q : PortId), s.Inv ∧ s.elab_.portBuilt q = true ∧ Writable s ∧ (s.port q).state = .off ∧
      (s.port q).supply = true ∧ (s.port q).testHeld = false ∧ s.strapRole.toNat < 6 ∧ aliasState s ≠ 1 ∧
      s.core = .running ∧ supRuns s = true)
    ∧ (∃ (s : State) (q : PortId), s.Inv ∧ s.elab_.portBuilt q = true ∧ (s.port q).state ≠ .off)
    ∧ (∃ (s : State) (q : PortId), s.Inv ∧ s.elab_.portBuilt q = true ∧ (s.port q).state = .off ∧
      (s.port q).testHeld = false ∧ s.strapRole.toNat < 6 ∧ aliasState s ≠ 1 ∧ inReset s = false ∧
      s.core = .running ∧ supRuns s = true ∧ s.pget 0x5000 q 0x09 1 = 1)
    ∧ (∃ (s : State) (q : PortId), s.Inv ∧ s.elab_.portBuilt q = true ∧ Writable s ∧ (s.port q).state = .active ∧
      pairOf s q = none ∧ outranked s q 5 = false ∧ (s.port q).pllPark = false ∧
      (s.port q).ra < s.pget 0x5002 q 0x01 3)
    ∧ (∃ (s : State) (q : PortId), s.Inv ∧ s.elab_.portBuilt q = true ∧ Writable s ∧ (s.port q).state = .active ∧
      pairOf s q = none ∧ outranked s q 4 = false ∧ (s.port q).pllPark = false)
    ∧ (∃ (s : State) (q : PortId), s.Inv ∧ s.elab_.portBuilt q = true ∧ Writable s ∧ (s.port q).state = .fault)
    ∧ (∃ (s : State) (q : PortId), s.Inv ∧ s.elab_.portBuilt q = true ∧ 8 ≤ q.val ∧ Writable s ∧ (s.port q).state = .off) :=
  ⟨⟨wLink 0 .active, 0, inv_of _ (by decide +kernel), by decide +kernel, writable_of _ (by decide +kernel),
     by decide +kernel⟩,
   ⟨wUp, 9, inv_of _ (by decide +kernel), by decide +kernel, writable_of _ (by decide +kernel), by decide +kernel⟩,
   ⟨wLink 0 .fault, 0, inv_of _ (by decide +kernel), by decide +kernel⟩,
   ⟨wPort 0 fun p => { p with supply := false }, 0, inv_of _ (by decide +kernel), by decide +kernel⟩,
   ⟨wPort 0 fun p => { p with state := .active, ra := 2 }, 0, inv_of _ (by decide +kernel), by decide +kernel,
     writable_of _ (by decide +kernel), by decide +kernel⟩,
   ⟨wLink 0 .active, 0, inv_of _ (by decide +kernel), by decide +kernel, writable_of _ (by decide +kernel),
     by decide +kernel⟩,
   ⟨wLink 0 .fault, 0, inv_of _ (by decide +kernel), by decide +kernel, writable_of _ (by decide +kernel),
     by decide +kernel⟩,
   ⟨wUp, 8, inv_of _ (by decide +kernel), by decide +kernel, by decide +kernel, writable_of _ (by decide +kernel),
     by decide +kernel⟩⟩

theorem witness_paramExchange :
    (∃ (s : State) (q : PortId) (body : BitVec 1920) (m : ParamMsg), m = ParamMsg.ofBody body ∧ s.Inv ∧
      s.elab_.portBuilt q = true ∧ (s.port q).state = .param ∧ (s.port q).pllPark = false ∧ m.pmt = 1 ∧
      (s.port q).param.partner ≠ some m ∧ offerIllegal s q m = false ∧ siblingMerged s q = false ∧
      (s.port q).offer &&& m.mask.toNat ≠ 0 ∧ rxMismatch s q m = false ∧ txMismatch s q m = false ∧
      mustDrain s q m = false)
    ∧ (∃ (s : State) (q : PortId) (body : BitVec 1920), s.Inv ∧ s.elab_.portBuilt q = true ∧ (s.port q).state = .param ∧
      (s.port q).pllPark = false ∧ (s.port q).param.partner ≠ some (ParamMsg.ofBody body) ∧
      (ParamMsg.ofBody body).pmt = 1 ∧ offerIllegal s q (ParamMsg.ofBody body) = true ∧
      (s.port q).ta < s.pget 0x5002 q 0x02 4)
    ∧ (∃ (s : State) (q : PortId) (body : BitVec 1920) (m : ParamMsg) (off : ParamMsg), m = ParamMsg.ofBody body ∧ s.Inv ∧
      s.elab_.portBuilt q = true ∧ (s.port q).state = .param ∧ (s.port q).pllPark = false ∧
      (s.port q).param.commitAt = none ∧ m.pmt = 2 ∧ (s.port q).param.partner = some off ∧
      m.gen = (s.port q).param.gen ∧ m.mask.toNat = (s.port q).param.mask ∧ siblingMerged s q = false)
    ∧ (∃ (s : State) (q : PortId) (body : BitVec 1920) (m : ParamMsg), m = ParamMsg.ofBody body ∧ s.Inv ∧
      s.elab_.portBuilt q = true ∧ (s.port q).state = .param ∧ (s.port q).pllPark = false ∧
      (s.port q).param.commitAt = none ∧ m.pmt = 2 ∧ (s.port q).param.partner ≠ none ∧ m.gen ≠ (s.port q).param.gen ∧
      (s.port q).ta < s.pget 0x5002 q 0x02 4)
    ∧ (∃ (s : State) (q : PortId) (body : BitVec 1920) (m : ParamMsg), m = ParamMsg.ofBody body ∧
      s.elab_.portBuilt q = true ∧ (s.port q).state = .param ∧ (s.port q).pllPark = false ∧ m.pmt = 3 ∧
      (s.port q).param.partner ≠ none ∧ m.gen = (s.port q).param.gen ∧ m.mask.toNat = (s.port q).param.mask)
    ∧ (∃ (s : State) (q : PortId) (c : Instr) (reason : Nat),
      (c = .paramAbort q ∧ reason = 7 ∨ c = .paramTimeout q ∧ reason = 2) ∧ s.Inv ∧ s.elab_.portBuilt q = true ∧
      (s.port q).state = .param ∧ (s.port q).pllPark = false ∧ (s.port q).ta < s.pget 0x5002 q 0x02 4)
    ∧ (∃ (s : State) (q : PortId) (m : ParamMsg), s.Inv ∧ s.elab_.portBuilt q = true ∧ (s.port q).state = .param ∧
      (s.port q).pllPark = false ∧ (s.port q).param.partner = some m ∧ (s.port q).param.commitAt ≠ none ∧
      (s.port q).param.commitRcvd = true ∧ pairOf s q = none)
    ∧ (∃ (s : State) (q : PortId) (m : ParamMsg), s.elab_.portBuilt q = true ∧ (s.port q).state = .param ∧
      (s.port q).pllPark = false ∧ (s.port q).param.partner = some m ∧ (s.port q).param.echoSent = false ∧
      mustDrain s q m = true)
    ∧ (∃ (s : State) (q : PortId) (m : ParamMsg), s.Inv ∧ s.elab_.portBuilt q = true ∧ (s.port q).state = .param ∧
      (s.port q).pllPark = false ∧ (s.port q).param.partner = some m ∧ (s.port q).param.echoSent = false ∧
      mustDrain s q m = false) :=
  ⟨⟨wParam id, 0, wBody 1 3 1, ParamMsg.ofBody (wBody 1 3 1), by decide +kernel, inv_of _ (by decide +kernel),
     by decide +kernel⟩,
   ⟨wParam id, 0, wBody 1 3 2, inv_of _ (by decide +kernel), by decide +kernel⟩,
   ⟨wParam fun x => { x with partner := some {}, gen := 4, mask := 0xFF }, 0, wBody 2 4 1,
     ParamMsg.ofBody (wBody 2 4 1), {}, by decide +kernel, inv_of _ (by decide +kernel), by decide +kernel⟩,
   ⟨wParam fun x => { x with partner := some {}, gen := 4, mask := 0xFF }, 0, wBody 2 5 1,
     ParamMsg.ofBody (wBody 2 5 1), by decide +kernel, inv_of _ (by decide +kernel), by decide +kernel⟩,
   ⟨wParam fun x => { x with partner := some {}, gen := 4, mask := 0xFF }, 0, wBody 3 4 1,
     ParamMsg.ofBody (wBody 3 4 1), by decide +kernel⟩,
   ⟨wParam id, 0, .paramTimeout 0, 2, by decide +kernel, inv_of _ (by decide +kernel), by decide +kernel⟩,
   ⟨wParam fun x => { x with partner := some (ParamMsg.ofBody (wBody 1 3 1)), gen := 4, mask := 0xFF, commitAt := some 4980, commitRcvd := true },
     0, ParamMsg.ofBody (wBody 1 3 1), inv_of _ (by decide +kernel), by decide +kernel⟩,
   ⟨(wParam fun x => { x with partner := some {} }).modPort 0 fun p => { p with rx := [wCpl] }, 0, {}, by decide +kernel⟩,
   ⟨wParam fun x => { x with partner := some {} }, 0, {}, inv_of _ (by decide +kernel), by decide +kernel⟩⟩

theorem witness_linkTimers :
    (∃ (s : State) (q : PortId), s.elab_.portBuilt q = true ∧ (s.port (logical s q)).ackAt ≠ none)
    ∧ (∃ (s : State) (q : PortId) (l : Nat), l = logical s q ∧ s.elab_.portBuilt q = true ∧ linkUp s l = true ∧
      (s.port l).replay ≠ [] ∧ (s.port l).replayAt ≠ some s.now ∧ (s.port l).replayCnt < s.pget 0x5000 l 0x13 4)
    ∧ (∃ (s : State) (q : PortId) (l : Nat) (u : Nat), l = logical s q ∧ u = activeUnit s l ∧ s.Inv ∧
      s.elab_.portBuilt q = true ∧ linkUp s l = true ∧ (s.port l).replay ≠ [] ∧
      s.pget 0x5000 l 0x13 4 ≤ (s.port l).replayCnt ∧ (s.port u).state = .active ∧ siblingMerged s u = false ∧
      (s.port l).replayAt ≠ some s.now ∧ outranked s u 5 = false ∧ (s.port u).pllPark = false ∧
      (s.port u).ra < s.pget 0x5002 u 0x01 3)
    ∧ (∃ (s : State) (q : PortId), s.elab_.portBuilt q = true ∧ (s.port (logical s q)).nakSent = true)
    ∧ (∃ (s : State) (q : PortId), s.elab_.portBuilt q = true ∧ linkUp s (logical s q) = true ∧
      (∃ n ∈ (s.port (logical s q)).pend, n ≠ 0))
    ∧ (∃ (s : State) (q : PortId) (l : Nat) (u : Nat), l = logical s q ∧ u = activeUnit s l ∧ s.Inv ∧
      s.elab_.portBuilt q = true ∧ s.pget 0x5000 l 0x14 1000000 ≠ 0 ∧ (s.port u).state = .active ∧
      (List.range 15).any (fun i => creditStarved s l (cands s l) (i + 1)) = true ∧ outranked s u 4 = false ∧
      (s.port u).pllPark = false)
    ∧ (∃ (s : State) (q : PortId) (l : Nat) (c : CtrlIn), l = logical s q ∧ s.elab_.portBuilt q = true ∧
      ctrlHead s l 1 = some c)
    ∧ (∃ (s : State) (q : PortId) (l : Nat) (c : CtrlIn) (cs : List CtrlIn), l = logical s q ∧ s.elab_.portBuilt q = true ∧
      (s.port l).ctrlIn = c :: cs ∧ 10 ≤ (c.cell.extractLsb' 0 8).toNat) :=
  ⟨⟨wActive fun p => { p with ackAt := some 4990 }, 0, by decide +kernel⟩,
   ⟨wActive fun p => { p with replay := [wFlit 1 0] }, 0, 0, by decide +kernel⟩,
   ⟨wActive fun p => { p with replay := [wFlit 1 0], replayCnt := 4 }, 0, 0, 0, by decide +kernel, by decide +kernel,
     inv_of _ (by decide +kernel), by decide +kernel⟩,
   ⟨wActive fun p => { p with nakSent := true }, 0, by decide +kernel⟩,
   ⟨wActive fun p => { p with pend := 0 :: List.replicate 15 1 }, 0, by decide +kernel⟩,
   ⟨{ (wActive fun p => { p with rsvP := List.replicate 16 0, shP := 0 }) with ingress := [(.req, wReq)] }, 0, 0, 0,
     by decide +kernel, by decide +kernel, inv_of _ (by decide +kernel), by decide +kernel⟩,
   ⟨wActive fun p => { p with uv := List.replicate 16 9, ctrlIn := [wCtrl (1 + 1 * 2 ^ 16 + 3 * 2 ^ 20)] }, 0, 0,
     wCtrl (1 + 1 * 2 ^ 16 + 3 * 2 ^ 20), by decide +kernel⟩,
   ⟨wActive fun p => { p with ctrlIn := [wCtrl 10] }, 0, 0, wCtrl 10, [], by decide +kernel⟩⟩

theorem witness_flitSlot :
    (∃ (s : State) (q : PortId), s.elab_.portBuilt q = true ∧
      (linkSends s (logical s q) = false ∨ slotFree s (logical s q) = false))
    ∧ (∃ (s : State) (q : PortId) (l : PortId) (i : Nat) (f : Flit), s.Inv ∧ s.elab_.portBuilt q = true ∧ logical s q = l ∧
      linkSends s l = true ∧ slotFree s l = true ∧ (s.port l).replayPtr = some i ∧ (s.port l).replay[i]? = some f ∧
      i < (s.port l).replay.length - (s.port l).fresh ∧ pairOf s l = none)
    ∧ (∃ (s : State) (q : PortId) (l : Nat), l = logical s q ∧ s.elab_.portBuilt q = true ∧ linkSends s l = true ∧
      slotFree s l = true ∧ (s.port l).replayPtr = none ∧ replayRoom s l = false ∧ (s.port l).ackOwed = false ∧
      (s.port l).nakOwed = false)
    ∧ (∃ (s : State) (q : PortId) (l : PortId), s.Inv ∧ logical s q = l ∧ s.elab_.portBuilt q = true ∧
      linkSends s l = true ∧ slotFree s l = true ∧ (s.port l).replayPtr = none ∧ replayRoom s l = false ∧
      ((s.port l).ackOwed = true ∨ (s.port l).nakOwed = true) ∧ pairOf s l = none)
    ∧ (∃ (s : State) (q : PortId) (l : PortId) (x : Flit × Epoch) (xs : List (Flit × Epoch)), s.Inv ∧ logical s q = l ∧
      s.elab_.portBuilt q = true ∧ linkSends s l = true ∧ slotFree s l = true ∧ (s.port l).replayPtr = none ∧
      replayRoom s l = true ∧ schedReady (s.port l) = true ∧ (s.port l).schedOut = x :: xs)
    ∧ (∃ (s : State) (q : PortId) (l : PortId), s.Inv ∧ logical s q = l ∧ s.elab_.portBuilt q = true ∧
      linkSends s l = true ∧ slotFree s l = true ∧ (s.port l).replayPtr = none ∧ replayRoom s l = true ∧
      schedReady (s.port l) = false ∧ (s.port l).ctrlOut ≠ [])
    ∧ (∃ (s : State) (q : PortId) (l : PortId), s.Inv ∧ logical s q = l ∧ s.elab_.portBuilt q = true ∧
      linkSends s l = true ∧ slotFree s l = true ∧ (s.port l).replayPtr = none ∧ replayRoom s l = true ∧
      (s.port l).schedOut = [] ∧ (s.port l).ctrlOut = [] ∧ (s.port l).credOut = true ∧ pairOf s l = none)
    ∧ (∃ (s : State) (q : PortId) (l : PortId), s.Inv ∧ logical s q = l ∧ s.elab_.portBuilt q = true ∧
      linkSends s l = true ∧ slotFree s l = true ∧ (s.port l).replayPtr = none ∧ replayRoom s l = true ∧
      (s.port l).schedOut = [] ∧ (s.port l).ctrlOut = [] ∧ (s.port l).credOut = false ∧
      15 ≤ (s.port l).stream.length ∧ pairOf s l = none)
    ∧ (∃ (s : State) (q : PortId) (l : Nat), l = logical s q ∧ s.elab_.portBuilt q = true ∧ linkSends s l = true ∧
      slotFree s l = true ∧ (s.port l).replayPtr = none ∧ replayRoom s l = true ∧ (s.port l).schedOut = [] ∧
      (s.port l).ctrlOut = [] ∧ (s.port l).credOut = false ∧ (s.port l).ackOwed = false ∧
      (s.port l).nakOwed = false ∧ (s.port l).stream = [] ∧ cands s l = []) :=
  ⟨⟨wLink 0 .train, 0, by decide +kernel⟩,
   ⟨wActive fun p => { p with replay := [wFlit 1 0], replayPtr := some 0 }, 0, 0, 0, wFlit 1 0,
     inv_of _ (by decide +kernel), by decide +kernel⟩,
   ⟨{ wActive id with repair := { banks := [(16, 16)] } }, 0, 0, by decide +kernel⟩,
   ⟨{ (wActive fun p => { p with ackOwed := true }) with repair := { banks := [(16, 16)] } }, 0, 0,
     inv_of _ (by decide +kernel), by decide +kernel⟩,
   ⟨wActive fun p => { p with schedOut := [(wFlit 2 0, 0)] }, 0, 0, (wFlit 2 0, 0), [], inv_of _ (by decide +kernel),
     by decide +kernel⟩,
   ⟨wActive fun p => { p with ctrlOut := [10, 11] }, 0, 0, inv_of _ (by decide +kernel), by decide +kernel⟩,
   ⟨wActive fun p => { p with credOut := true, pend := 0 :: 3 :: List.replicate 14 2 }, 0, 0,
     inv_of _ (by decide +kernel), by decide +kernel⟩,
   ⟨wActive fun p => { p with stream := List.replicate 17 9 }, 0, 0, inv_of _ (by decide +kernel), by decide +kernel⟩,
   ⟨wActive id, 0, 0, by decide +kernel⟩⟩

theorem witness_sequenceCheck :
    (∃ (s : State) (q : PortId) (r : RxFlit) (c : Checked), s.Inv ∧ s.elab_.portBuilt q = true ∧ pairOf s q = none ∧
      linkUp s q = true ∧ (s.port q).slotsIn = [] ∧
      (if Config.isReach q then [checkReach r] else (wireFlits s q [r]).map fun x => if ucieMode s q then checkUcie x.bits else checkWire x.bits) = [c] ∧
      c.bad = true ∧ (s.port q).nakSent = false)
    ∧ (∃ (s : State) (q : PortId) (r : RxFlit) (c : Checked) (er : UnpackErr), s.Inv ∧ s.elab_.portBuilt q = true ∧
      pairOf s q = none ∧ linkUp s q = true ∧ (s.port q).slotsIn = [] ∧
      (if Config.isReach q then [checkReach r] else (wireFlits s q [r]).map fun x => if ucieMode s q then checkUcie x.bits else checkWire x.bits) = [c] ∧
      c.bad = false ∧ c.flit.gen = (s.port q).gen ∧ c.flit.ftype = 1 ∧ c.flit.fseq = (s.port q).e ∧
      unpack (s.port q).rsvA (s.port q).shA c.flit.cells ⟨rxUsed (s.port q), (s.port q).rxOpen, []⟩ = .error er ∧
      (s.port q).nakSent = false)
    ∧ (∃ (s : State) (q : PortId) (r : RxFlit) (c : Checked), s.Inv ∧ s.elab_.portBuilt q = true ∧ pairOf s q = none ∧
      linkUp s q = true ∧ (s.port q).slotsIn = [] ∧
      (if Config.isReach q then [checkReach r] else (wireFlits s q [r]).map fun x => if ucieMode s q then checkUcie x.bits else checkWire x.bits) = [c] ∧
      c.bad = false ∧ c.flit.gen = (s.port q).gen ∧ c.flit.ftype = 2 ∧ c.flit.fseq = (s.port q).e ∧ c.flit.ackk = 0 ∧
      c.flit.crcnt = 0)
    ∧ (∃ (s : State) (q : PortId) (r : RxFlit) (c : Checked) (u : Unpack), s.Inv ∧ s.elab_.portBuilt q = true ∧
      pairOf s q = none ∧ linkUp s q = true ∧ (s.port q).slotsIn = [] ∧
      (if Config.isReach q then [checkReach r] else (wireFlits s q [r]).map fun x => if ucieMode s q then checkUcie x.bits else checkWire x.bits) = [c] ∧
      c.bad = false ∧ c.flit.gen = (s.port q).gen ∧ c.flit.ftype = 1 ∧ c.flit.fseq = (s.port q).e ∧ c.flit.ackk = 0 ∧
      c.flit.crcnt = 0 ∧
      unpack (s.port q).rsvA (s.port q).shA c.flit.cells ⟨rxUsed (s.port q), (s.port q).rxOpen, []⟩ = .ok u)
    ∧ (∃ (s : State) (q : PortId) (r : RxFlit) (c : Checked), s.Inv ∧ s.elab_.portBuilt q = true ∧ pairOf s q = none ∧
      linkUp s q = true ∧ (s.port q).slotsIn = [] ∧
      (if Config.isReach q then [checkReach r] else (wireFlits s q [r]).map fun x => if ucieMode s q then checkUcie x.bits else checkWire x.bits) = [c] ∧
      c.bad = false ∧ c.flit.gen = (s.port q).gen ∧ c.flit.ftype ∈ [(1 : BitVec 4), 2, 3] ∧
      2048 ≤ (c.flit.fseq - (s.port q).e).toNat ∧ c.flit.ackk = 0)
    ∧ (∃ (s : State) (q : PortId) (r : RxFlit) (c : Checked) (n : Nat), s.Inv ∧ s.elab_.portBuilt q = true ∧
      pairOf s q = none ∧ linkUp s q = true ∧ (s.port q).slotsIn = [] ∧
      (if Config.isReach q then [checkReach r] else (wireFlits s q [r]).map fun x => if ucieMode s q then checkUcie x.bits else checkWire x.bits) = [c] ∧
      c.bad = false ∧ c.flit.gen = (s.port q).gen ∧ c.flit.ftype = 4 ∧ c.flit.ackk = 1 ∧
      n = (c.flit.ackseq - (s.port q).o + 1).toNat ∧ n ≤ (s.port q).replay.length)
    ∧ (∃ (s : State) (q : PortId) (r : RxFlit) (c : Checked), s.Inv ∧ s.elab_.portBuilt q = true ∧ pairOf s q = none ∧
      linkUp s q = true ∧ (s.port q).slotsIn = [] ∧
      (if Config.isReach q then [checkReach r] else (wireFlits s q [r]).map fun x => if ucieMode s q then checkUcie x.bits else checkWire x.bits) = [c] ∧
      c.bad = false ∧ c.flit.gen ≠ (s.port q).gen ∧ (s.port q).state = .active ∧ outranked s q 4 = false) :=
  ⟨⟨wFar fun p => p, 8, { bits := 0, bundle := 0, slotBad := true }, wCheck { bits := 0, bundle := 0, slotBad := true },
     inv_of _ (by decide +kernel), by decide +kernel, by decide +kernel, by decide +kernel, by decide +kernel,
     (if_pos (by decide)).trans (congrArg (fun x => [x]) (wCheck_eq _)), by decide +kernel⟩,
   ⟨wFar fun p => { p with rsvA := List.replicate 16 0, shA := 0 }, 8, wRx { wFlit 1 0 with cells := wCplCells },
     wCheck (wRx { wFlit 1 0 with cells := wCplCells }), .overrun, inv_of _ (by decide +kernel), by decide +kernel,
     by decide +kernel, by decide +kernel, by decide +kernel,
     (if_pos (by decide)).trans (congrArg (fun x => [x]) (wCheck_eq _)), by decide +kernel⟩,
   ⟨wFar fun p => p, 8, wRx (wFlit 2 0), wCheck (wRx (wFlit 2 0)), inv_of _ (by decide +kernel), by decide +kernel,
     by decide +kernel, by decide +kernel, by decide +kernel,
     (if_pos (by decide)).trans (congrArg (fun x => [x]) (wCheck_eq _)), by decide +kernel⟩,
   ⟨wFar fun p => { p with rsvA := List.replicate 16 32, shA := 1000 }, 8, wRx { wFlit 1 0 with cells := wCplCells },
     wCheck (wRx { wFlit 1 0 with cells := wCplCells }),
     wUnpack (wFar fun p => { p with rsvA := List.replicate 16 32, shA := 1000 }) 8 (wCheck (wRx { wFlit 1 0 with cells := wCplCells })).flit,
     inv_of _ (by decide +kernel), by decide +kernel, by decide +kernel, by decide +kernel, by decide +kernel,
     (if_pos (by decide)).trans (congrArg (fun x => [x]) (wCheck_eq _)), by decide +kernel⟩,
   ⟨wFar fun p => { p with e := 1 }, 8, wRx (wFlit 1 0), wCheck (wRx (wFlit 1 0)), inv_of _ (by decide +kernel),
     by decide +kernel, by decide +kernel, by decide +kernel, by decide +kernel,
     (if_pos (by decide)).trans (congrArg (fun x => [x]) (wCheck_eq _)), by decide +kernel⟩,
   ⟨wFar fun p => { p with o := 1, replay := [wFlit 1 1, wFlit 1 2] }, 8, wRx { wFlit 4 0 with ackk := 1, ackseq := 1 },
     wCheck (wRx { wFlit 4 0 with ackk := 1, ackseq := 1 }), 1, inv_of _ (by decide +kernel), by decide +kernel,
     by decide +kernel, by decide +kernel, by decide +kernel,
     (if_pos (by decide)).trans (congrArg (fun x => [x]) (wCheck_eq _)), by decide +kernel⟩,
   ⟨wFar fun p => { p with gen := 1 }, 8, wRx (wFlit 1 0), wCheck (wRx (wFlit 1 0)), inv_of _ (by decide +kernel),
     by decide +kernel, by decide +kernel, by decide +kernel, by decide +kernel,
     (if_pos (by decide)).trans (congrArg (fun x => [x]) (wCheck_eq _)), by decide +kernel⟩⟩

theorem witness_commitment :
    (∃ (s : State) (q : PortId) (l : PortId) (c : Cand) (v : Nat) (tag : Nat) (p : Port), s.Inv ∧
      s.elab_.portBuilt q = true ∧ logical s q = l ∧ mayCommit s l = true ∧
      (∀ x ∈ cands s l, featuresCover s l x.w.txn = true) ∧ arbitrate s l (cands s l) = some (c, v, p) ∧
      needsTag c.w = true ∧ nextTag s l = some tag ∧ (∀ x ∈ cands s l, x.w.frees ≠ some (l.val, tag)))
    ∧ (∃ (s : State) (q : PortId) (l : PortId) (c : Cand) (v : Nat) (p : Port), s.Inv ∧ s.elab_.portBuilt q = true ∧
      logical s q = l ∧ mayCommit s l = true ∧ (∀ x ∈ cands s l, featuresCover s l x.w.txn = true) ∧
      arbitrate s l (cands s l) = some (c, v, p) ∧ needsTag c.w = false)
    ∧ (∃ (s : State) (q : PortId) (l : PortId), s.Inv ∧ s.elab_.portBuilt q = true ∧ logical s q = l ∧ linkUp s l = false ∧
      anyWaits s l = true ∧ (s.port l).state ∈ [.nap, .dormant] ∧ (s.port l).wakeAt = none) :=
  ⟨⟨{ wActive id with ingress := [(.req, wReq)] }, 0, 0, ⟨.place (.ifi .req 0), wReq⟩, 6, 0,
     (match arbitrate { wActive id with ingress := [(.req, wReq)] } 0 (cands { wActive id with ingress := [(.req, wReq)] } 0) with | some x => x.2.2 | none => {}),
     inv_of _ (by decide +kernel), by decide +kernel⟩,
   ⟨wActive fun p => { p with waitq := [{ wCpl with step := 9, route := [0] }] }, 0, 0,
     ⟨.waitq 0 0, { wCpl with step := 9, route := [0] }⟩, 2,
     (match arbitrate (wActive fun p => { p with waitq := [{ wCpl with step := 9, route := [0] }] }) 0 (cands (wActive fun p => { p with waitq := [{ wCpl with step := 9, route := [0] }] }) 0) with | some x => x.2.2 | none => {}),
     inv_of _ (by decide +kernel), by decide +kernel⟩,
   ⟨{ (wPort 0 fun p => { p with state := .nap, feat := 0x7FFF }) with ingress := [(.req, wReq)] }, 0, 0,
     inv_of _ (by decide +kernel), by decide +kernel⟩⟩

theorem witness_epochTurns :
    (∃ (s : State), (s.sch.joined = false ∨ s.sch.frozen = true))
    ∧ (∃ (s : State), s.sch.joined = true ∧ s.sch.frozen = false ∧
      (s.get 0x6F00 0x0C 0 ≠ 1 ∨ s.get 0x6F00 0x0B 0 ≠ (s.sch.epoch + 1).toNat))
    ∧ (∃ (s : State), s.sch.joined = true ∧ s.sch.frozen = false ∧ s.get 0x6F00 0x0C 0 = 1 ∧
      s.get 0x6F00 0x0B 0 = (s.sch.epoch + 1).toNat ∧ switchPasses s = false)
    ∧ (∃ (s : State), s.Inv ∧ s.sch.joined = true ∧ s.sch.frozen = false ∧ s.get 0x6F00 0x0C 0 = 1 ∧
      s.get 0x6F00 0x0B 0 = (s.sch.epoch + 1).toNat ∧ switchPasses s = true)
    ∧ (∃ (s : State), (s.sch.joined = false ∨ s.sch.frozen = false))
    ∧ (∃ (s : State), s.sch.joined = true ∧ s.sch.frozen = true)
    ∧ (∃ (s : State), (s.sch.joined = false ∨ s.sch.frozen = false))
    ∧ (∃ (s : State), s.Inv ∧ s.sch.joined = true ∧ s.sch.frozen = true) :=
  ⟨⟨wUp, by decide +kernel⟩,
   ⟨wDomain id, by decide +kernel⟩,
   ⟨{ ((wDomain fun p => { p with calNew := true }).put 0x6F00 0x0C 0 1).put 0x6F00 0x0B 0 6 with tabs := [(ekey 0x6002 1, [65537, 4095])] },
     by decide +kernel⟩,
   ⟨{ ((wDomain fun p => { p with calNew := true }).put 0x6F00 0x0C 0 1).put 0x6F00 0x0B 0 6 with tabs := [(ekey 0x6002 1, [65537, 600])] },
     inv_of _ (by decide +kernel), by decide +kernel⟩,
   ⟨wDomain id, by decide +kernel⟩,
   ⟨{ wDomain (fun p => { p with cal := [49752] }) with sch := { joined := true, epoch := 5, tn := 4500, frozen := true } },
     by decide +kernel⟩,
   ⟨wDomain id, by decide +kernel⟩,
   ⟨let s := wDomain id; { s with sch := { s.sch with frozen := true } }, inv_of _ (by decide +kernel),
     by decide +kernel⟩⟩

theorem witness_scheduledTraffic :
    (∃ (s : State) (k : Nat), (∀ w ∈ atPlace s (.ifi .sch k), w.step ≠ 0))
    ∧ (∃ (s : State) (k : Nat) (w : Waiting) (q : PortId) (n : Epoch) (r : Nat), s.Inv ∧ atPlace s (.ifi .sch k) = some w ∧
      w.step = 0 ∧ w.cport.toNat = q.val ∧ domainOn s = true ∧ s.sch.joined = true ∧
      lacksFeature (s.port (logical s q)) 8 = false ∧ schUp s q = true ∧
      nextOccurrence s q w.cslot w.at_ = (n, some r) ∧ calKind r = 0 ∧ calTen r = w.txn.ten ∧
      quiesced s w.txn.ten = false ∧ assignedTo s q w.cslot n = none ∧
      ((w.endAt : Int) < acceptCc s n (calStart r) ∨ 0 < epochDist s n))
    ∧ (∃ (s : State) (k : Nat) (w : Waiting) (q : PortId) (n : Epoch) (r : Nat), s.Inv ∧ atPlace s (.ifi .sch k) = some w ∧
      w.step = 0 ∧ w.cport.toNat = q.val ∧ domainOn s = true ∧ s.sch.joined = true ∧
      lacksFeature (s.port (logical s q)) 8 = false ∧ schUp s q = true ∧
      nextOccurrence s q w.cslot w.at_ = (n, some r) ∧ calKind r = 0 ∧ calTen r = w.txn.ten ∧
      quiesced s w.txn.ten = false ∧ assignedTo s q w.cslot n = none ∧ acceptCc s n (calStart r) ≤ (w.endAt : Int) ∧
      epochDist s n ≤ 0)
    ∧ (∃ (s : State) (k : Nat) (w : Waiting), atPlace s (.ifi .sch k) = some w ∧ w.step = 0 ∧ domainOn s = false)
    ∧ (∃ (s : State) (q : PortId) (l : PortId) (slot : SlotId) (r : Nat) (a : Assigned) (x : IngCh × Waiting), s.Inv ∧
      s.elab_.portBuilt q = true ∧ logical s q = l ∧ s.sch.joined = true ∧ calRow s q s.sch.epoch slot = some r ∧
      calKind r = 0 ∧ schUp s q = true ∧ quiesced s (calTen r) = false ∧ assignedTo s q slot s.sch.epoch = some a ∧
      a.cells = [] ∧ s.ingress.find? (fun x => x.1 == IngCh.sch && x.2.seq == a.seq) = some x)
    ∧ (∃ (s : State) (q : PortId) (l : PortId) (p : PortId) (slot : SlotId) (r : Nat) (h : Held), s.Inv ∧
      s.elab_.portBuilt q = true ∧ logical s q = l ∧ s.sch.joined = true ∧ calRow s q s.sch.epoch slot = some r ∧
      calKind r = 2 ∧ handedTo s q slot s.sch.epoch = some (p.val, h))
    ∧ (∃ (s : State) (q : PortId) (slot : SlotId), s.elab_.portBuilt q = true ∧
      (s.sch.joined = false ∨ calRow s q s.sch.epoch slot = none))
    ∧ (∃ (s : State) (q : PortId), s.elab_.portBuilt q = true ∧ (s.port (logical s q)).schedIn = [])
    ∧ (∃ (s : State) (q : PortId) (l : Nat) (x : SchedIn) (xs : List SchedIn), l = logical s q ∧
      s.elab_.portBuilt q = true ∧ (s.port l).schedIn = x :: xs ∧ domainOn s = false)
    ∧ (∃ (s : State) (q : PortId) (l : PortId) (x : SchedIn) (xs : List SchedIn) (n : Epoch) (r : Nat), s.Inv ∧
      s.elab_.portBuilt q = true ∧ logical s q = l ∧ (s.port l).schedIn = x :: xs ∧ domainOn s = true ∧
      x.epoch = some n ∧ (s.port l).cal[x.flit.slot.toNat]? = some r ∧ calSends r = false ∧ onArrival s l = none ∧
      s.sch.joined = true ∧ (x.at_ : Int) + 1 ≤ deadlineOf s l n r ∧ (s.port l).hold.length < holdSize s l)
    ∧ (∃ (s : State) (q : PortId) (l : PortId) (slot : SlotId) (h : Held), s.elab_.portBuilt q = true ∧ logical s q = l ∧
      (s.port l).hold.find? (fun h => h.slot == slot && !h.handed) = some h ∧ calKind h.row = 1 ∧ h.lost = false ∧
      calProxy h.row = false)
    ∧ (∃ (s : State) (q : PortId) (slot : SlotId), s.elab_.portBuilt q = true ∧
      (s.port (logical s q)).hold.find? (fun h => h.slot == slot && !h.handed) = none) :=
  ⟨⟨{ wUp with ingress := [(.sch, { wPay with step := 12 })] }, 0, by decide +kernel⟩,
   ⟨{ (wDomain fun p => { p with cal := [49752] }) with ingress := [(.sch, wPay)] }, 0, wPay, 0, 5, 49752,
     inv_of _ (by decide +kernel), by decide +kernel⟩,
   ⟨{ (wDomain fun p => { p with cal := [49752] }) with ingress := [(.sch, { wPay with endAt := 5100 })], now := 5100 },
     0, { wPay with endAt := 5100 }, 0, 5, 49752, inv_of _ (by decide +kernel), by decide +kernel⟩,
   ⟨{ wActive id with ingress := [(.sch, wPay)] }, 0, wPay, by decide +kernel⟩,
   ⟨{ (wDomain fun p => { p with cal := [49752], assigned := [{ slot := 0, epoch := 5, ten := 3, seq := 9 }] }) with ingress := [(.sch, { wPay with step := 12 })] },
     0, 0, 0, 49752, { slot := 0, epoch := 5, ten := 3, seq := 9 }, (.sch, { wPay with step := 12 }),
     inv_of _ (by decide +kernel), by decide +kernel⟩,
   ⟨(wDomain fun p => { p with cal := [57944] }).modPort 1 fun p => { p with hold := [{ slot := 4, epoch := 5, deadline := 4990, cells := List.replicate 15 7, rpld := false, row := 0, intended := some (0, 0, 5), handed := true }] },
     0, 0, 1, 0, 57944,
     { slot := 4, epoch := 5, deadline := 4990, cells := List.replicate 15 7, rpld := false, row := 0, intended := some (0, 0, 5), handed := true },
     inv_of _ (by decide +kernel), by decide +kernel⟩,
   ⟨wDomain id, 0, 0, by decide +kernel⟩,
   ⟨wUp, 0, by decide +kernel⟩,
   ⟨wActive fun p => { p with schedIn := [{ flit := wFlit 2 0, epoch := some 5, at_ := 4999 }] }, 0, 0,
     { flit := wFlit 2 0, epoch := some 5, at_ := 4999 }, [], by decide +kernel⟩,
   ⟨wDomain fun p => { p with cal := [53848], schedIn := [{ flit := wFlit 2 0, epoch := some 5, at_ := 4999 }] }, 0, 0,
     { flit := wFlit 2 0, epoch := some 5, at_ := 4999 }, [], 5, 53848, inv_of _ (by decide +kernel),
     by decide +kernel⟩,
   ⟨wDomain fun p => { p with hold := [{ slot := 0, epoch := 5, deadline := 5000, cells := List.replicate 15 7, rpld := false, row := 53848 }] },
     0, 0, 0, { slot := 0, epoch := 5, deadline := 5000, cells := List.replicate 15 7, rpld := false, row := 53848 },
     by decide +kernel⟩,
   ⟨wUp, 0, 0, by decide +kernel⟩⟩

theorem witness_scheduledCells :
    (∃ (s : State) (q : PortId) (l : Nat) (c : Instr) (ctype : Nat) (x : CtrlIn),
      (c = .beacon q ∧ ctype = 2 ∨ c = .leapReq q ∧ ctype = 3 ∨ c = .leapNotice q ∧ ctype = 4 ∨ c = .tempo q ∧ ctype = 5 ∨ c = .dfault q ∧ ctype = 6) ∧
      l = logical s q ∧ s.elab_.portBuilt q = true ∧ ctrlHead s l ctype = some x ∧ domainLink s l = false)
    ∧ (∃ (s : State) (q : PortId) (l : PortId) (x : CtrlIn), s.Inv ∧ s.elab_.portBuilt q = true ∧ logical s q = l ∧
      ctrlHead s l 2 = some x ∧ domainLink s l = true ∧ x.live = true ∧ s.sch.joined = false)
    ∧ (∃ (s : State) (q : PortId) (l : PortId) (x : CtrlIn), s.Inv ∧ s.elab_.portBuilt q = true ∧ logical s q = l ∧
      ctrlHead s l 2 = some x ∧ domainLink s l = true ∧ x.live = true ∧ s.sch.joined = true ∧
      impliedStart s l x = startOf s (x.cell.extractLsb' 16 48) ∧ -16 < epochDist s (x.cell.extractLsb' 16 48) ∧
      epochDist s (x.cell.extractLsb' 16 48) ≤ 1 ∧
      (x.cell.extractLsb' 80 8).toNat = leapsOf s (x.cell.extractLsb' 16 48) ∧
      (x.cell.extractLsb' 104 4).toNat = leadOf s ∧ (x.cell.extractLsb' 112 13).toNat = eplen s ∧
      x.cell.extractLsb' 88 16 = 0)
    ∧ (∃ (s : State) (q : PortId) (l : PortId) (c : Instr) (ctype : Nat) (k : Nat) (d : Nat) (x : CtrlIn),
      (c = .leapReq q ∧ ctype = 3 ∨ c = .tempo q ∧ ctype = 5) ∧ s.Inv ∧ s.elab_.portBuilt q = true ∧
      logical s q = l ∧ ctrlHead s l ctype = some x ∧ domainLink s l = true ∧ usesLeaps s l = true ∧
      x.cell.extractLsb' 8 4 = 0 ∧ k = (x.cell.extractLsb' 64 8).toNat ∧ epochDist s (x.cell.extractLsb' 16 48) = d ∧
      2 ≤ d ∧ d ≤ 32 ∧ s.sch.lt.getD (d - 1) 0 < k)
    ∧ (∃ (s : State) (q : PortId) (l : PortId) (c : Instr) (reason : Nat) (x : CtrlIn), s.Inv ∧
      s.elab_.portBuilt q = true ∧ logical s q = l ∧ domainLink s l = true ∧ s.sch.seen.contains x.cell = false ∧
      (c = .leapNotice q ∧ ctrlHead s l 4 = some x ∧ (s.port l).schState ≠ 2 ∧ reason = 1 ∨ c = .dfault q ∧ ctrlHead s l 6 = some x ∧ reason = (x.cell.extractLsb' 8 4).toNat))
    ∧ (∃ (s : State) (q : PortId) (l : Nat) (x : CtrlIn), l = logical s q ∧ s.elab_.portBuilt q = true ∧
      ctrlHead s l 7 = some x ∧ domainOn s = false)
    ∧ (∃ (s : State) (q : PortId) (l : PortId) (x : CtrlIn) (r : Nat), s.Inv ∧ s.elab_.portBuilt q = true ∧
      logical s q = l ∧ ctrlHead s l 7 = some x ∧ domainOn s = true ∧ (s.port l).beaconEpoch ≠ none ∧
      (s.port l).cal[(x.cell.extractLsb' 64 12).toNat]? = some r ∧ calKind r = 1 ∧ calProxy r = false)
    ∧ (∃ (s : State) (q : PortId) (c : Instr) (ctype : Nat),
      (c = .beacon q ∧ ctype = 2 ∨ c = .leapReq q ∧ ctype = 3 ∨ c = .leapNotice q ∧ ctype = 4 ∨ c = .tempo q ∧ ctype = 5 ∨ c = .dfault q ∧ ctype = 6 ∨ c = .voidCell q ∧ ctype = 7) ∧
      s.elab_.portBuilt q = true ∧ ctrlHead s (logical s q) ctype = none) :=
  ⟨⟨wActive fun p => { p with ctrlIn := [wCtrl 6] }, 0, 0, .dfault 0, 6, wCtrl 6, by decide +kernel⟩,
   ⟨let s := wDomain fun p => { p with ctrlIn := [wCtrl (2 + 7 * 2 ^ 16)] }; { s with sch := { s.sch with joined := false } },
     0, 0, wCtrl (2 + 7 * 2 ^ 16), inv_of _ (by decide +kernel), by decide +kernel⟩,
   ⟨wDomain fun p => { p with ctrlIn := [wCtrl wBeacon], desync := 7, schState := 3 }, 0, 0, wCtrl wBeacon,
     inv_of _ (by decide +kernel), by decide +kernel⟩,
   ⟨wDomain fun p => { p with ctrlIn := [wCtrl (3 + 7 * 2 ^ 16 + 4 * 2 ^ 64)] }, 0, 0, .leapReq 0, 3, 4, 2,
     wCtrl (3 + 7 * 2 ^ 16 + 4 * 2 ^ 64), by decide +kernel, inv_of _ (by decide +kernel), by decide +kernel⟩,
   ⟨wDomain fun p => { p with ctrlIn := [wCtrl (6 + 3 * 2 ^ 8)] }, 0, 0, .dfault 0, 3, wCtrl (6 + 3 * 2 ^ 8),
     inv_of _ (by decide +kernel), by decide +kernel⟩,
   ⟨wActive fun p => { p with ctrlIn := [wCtrl 7] }, 0, 0, wCtrl 7, by decide +kernel⟩,
   ⟨wDomain fun p => { p with cal := [53848], beaconEpoch := some 5, ctrlIn := [wCtrl 7] }, 0, 0, wCtrl 7, 53848,
     inv_of _ (by decide +kernel), by decide +kernel⟩,
   ⟨wUp, 0, .beacon 0, 2, by decide +kernel⟩⟩

theorem witness_domainManagement :
    (∃ (s : State), s.Inv ∧ Writable s ∧ domainOn s = false)
    ∧ (∃ (s : State), s.Inv ∧ Writable s ∧ domainOn s = true)
    ∧ (∃ (s : State), s.Inv ∧ Writable s ∧ domainOn s = true)
    ∧ (∃ (s : State), s.Inv ∧ Writable s ∧ domainOn s = true ∧ s.sch.joined = true ∧ 2 ≤ leadOf s ∧ leadOf s ≤ 15)
    ∧ (∃ (s : State) (e : BitVec 64), s.Inv ∧ Writable s ∧ e.toNat < 2 ^ 48 ∧
      switchTooEarly s (BitVec.ofNat 48 e.toNat) = false) :=
  ⟨⟨wUp.put 0x6F00 0x02 0 1, inv_of _ (by decide +kernel), writable_of _ (by decide +kernel), by decide +kernel⟩,
   ⟨wDomain fun p => { p with hold := [{ slot := 0, epoch := 5, deadline := 5000, cells := List.replicate 15 7, rpld := false, row := 53848 }] },
     inv_of _ (by decide +kernel), writable_of _ (by decide +kernel), by decide +kernel⟩,
   ⟨wDomain id, inv_of _ (by decide +kernel), writable_of _ (by decide +kernel), by decide +kernel⟩,
   ⟨wDomain id, inv_of _ (by decide +kernel), writable_of _ (by decide +kernel), by decide +kernel⟩,
   ⟨wDomain id, 7, inv_of _ (by decide +kernel), writable_of _ (by decide +kernel), by decide +kernel⟩⟩

theorem witness_memoryRequests :
    (∃ (s : State) (pl : Place) (w : Waiting) (c : Instr) (opc : Nat) (k : Nat) (st : BitVec 8), (c, opc) ∈ memCmds pl ∧
      pl = .ifi .req k ∧ Waits s pl w opc ∧
      (quiesced s w.txn.ten = true ∧ st = 0x04 ∨ quiesced s w.txn.ten = false ∧ memStatus w.txn = some st ∨ quiesced s w.txn.ten = false ∧ memStatus w.txn = none ∧ heldBack s w = false ∧ (destOf s (withGpa w.txn (rewrite s w.txn.gpa)) = .bad st ∨ destOf s (withGpa w.txn (rewrite s w.txn.gpa)) = .self ∧ st = 0x14)))
    ∧ (∃ (s : State) (pl : Place) (w : Waiting) (c : Instr) (opc : Nat) (k : Nat) (ports : List Nat),
      (c, opc) ∈ memCmds pl ∧ pl = .ifi .req k ∧ Waits s pl w opc ∧ quiesced s w.txn.ten = false ∧
      memStatus w.txn = none ∧ heldBack s w = false ∧ destOf s (withGpa w.txn (rewrite s w.txn.gpa)) = .via ports ∧
      (w.txn.ca = false ∨ waysEnabled s = []))
    ∧ (∃ (s : State) (pl : Place) (w : Waiting) (c : Instr) (opc : Nat) (k : Nat) (ports : List Nat),
      (c, opc) ∈ memCmds pl ∧ pl = .ifi .req k ∧ Waits s pl w opc ∧ quiesced s w.txn.ten = false ∧
      memStatus w.txn = none ∧ heldBack s w = false ∧ destOf s (withGpa w.txn (rewrite s w.txn.gpa)) = .via ports ∧
      w.txn.ca = true ∧ waysEnabled s ≠ [] ∧ behindLine s pl w (lineOf (rewrite s w.txn.gpa)) = false ∧
      useRlc s w.txn (rewrite s w.txn.gpa) = false)
    ∧ (∃ (s : State) (pl : Place) (w : Waiting) (c : Instr) (opc : Nat) (k : Nat), (c, opc) ∈ memCmds pl ∧
      pl = .ifi .req k ∧ Waits s pl w opc ∧ quiesced s w.txn.ten = false ∧ memStatus w.txn = none ∧
      heldBack s w = true)
    ∧ (∃ (s : State) (pl : Place) (w : Waiting) (c : Instr) (opc : Nat), (c, opc) ∈ memCmds pl ∧ placeIsIfi pl = false ∧
      Waits s pl w opc ∧ destOf s w.txn = .self ∧ absentHit s w.txn.gpa w.txn.len = false ∧
      egressRoom s .inb w.txn.size = true)
    ∧ (∃ (s : State) (pl : Place) (w : Waiting) (c : Instr) (opc : Nat), (c, opc) ∈ memCmds pl ∧ placeIsIfi pl = false ∧
      Waits s pl w opc ∧ destOf s w.txn = .self ∧ absentHit s w.txn.gpa w.txn.len = true)
    ∧ (∃ (s : State) (q : PortId) (k : Nat) (w : Waiting) (c : Instr) (opc : Nat) (ports : List Nat),
      (c, opc) ∈ memCmds (.rx q k) ∧ Waits s (.rx q k) w opc ∧ destOf s w.txn = .via ports) :=
  ⟨⟨wDie .req (wTxn 1 (.mem false false 0 0) []), .ifi .req 0, wAsk (wTxn 1 (.mem false false 0 0) []),
     .rd (.ifi .req 0), 1, 0, 1, by decide +kernel, by decide +kernel, waits_of (by decide +kernel),
     by decide +kernel⟩,
   ⟨wDie .req (wTxn 1 (.mem false false 64 (BitVec.ofNat 58 (2 ^ 38))) []), .ifi .req 0,
     wAsk (wTxn 1 (.mem false false 64 (BitVec.ofNat 58 (2 ^ 38))) []), .rd (.ifi .req 0), 1, 0, [0],
     by decide +kernel, by decide +kernel, waits_of (by decide +kernel), by decide +kernel⟩,
   ⟨let s := wDie .req (wCa 1); { s with tabs := s.tabs ++ [(ekey 0x8000 0x05, [2 ^ 17 + 2 ^ 64 + 2 * 2 ^ 82])], ord := [{ seq := 7, ten := 3, opc := 1, key := some (1, 0), fen := false, rqid := 5 }] },
     .ifi .req 0, wAsk (wCa 1), .rd (.ifi .req 0), 1, 0, [0], by decide +kernel, by decide +kernel,
     waits_of (by decide +kernel), by decide +kernel⟩,
   ⟨{ wDie .req (wTxn 1 (.mem false false 64 0) []) with ord := [{ seq := 1, ten := 3, opc := 2, key := some (1, 0), fen := false, rqid := 0 }, { seq := 7, ten := 3, opc := 1, key := some (1, 0), fen := false, rqid := 5 }] },
     .ifi .req 0, wAsk (wTxn 1 (.mem false false 64 0) []), .rd (.ifi .req 0), 1, 0, by decide +kernel,
     by decide +kernel, waits_of (by decide +kernel), by decide +kernel⟩,
   ⟨wWire (wTxn 1 (.mem false false 64 0) []), .rx 0 0, { txn := wTxn 1 (.mem false false 64 0) [] }, .rd (.rx 0 0), 1,
     by decide +kernel, by decide +kernel, waits_of (by decide +kernel), by decide +kernel⟩,
   ⟨let s := wWire (wTxn 1 (.mem false false 64 0) []); { s with tabs := s.tabs ++ [(ekey 0x7000 0x05, [1 * 2 ^ 18])] },
     .rx 0 0, { txn := wTxn 1 (.mem false false 64 0) [] }, .rd (.rx 0 0), 1, by decide +kernel, by decide +kernel,
     waits_of (by decide +kernel), by decide +kernel⟩,
   ⟨wWire (wTxn 1 (.mem false false 64 (BitVec.ofNat 58 (2 ^ 38))) []), 0, 0,
     { txn := wTxn 1 (.mem false false 64 (BitVec.ofNat 58 (2 ^ 38))) [] }, .rd (.rx 0 0), 1, [0], by decide +kernel,
     waits_of (by decide +kernel), by decide +kernel⟩⟩

theorem witness_completions :
    (∃ (s : State) (k : Nat) (i : Nat) (w : Waiting) (x : Txn) (ports : List Nat), atPlace s (.ifi .inr k) = some w ∧
      w.txn.opc = 0x80 ∧ w.step = 0 ∧ findIdx (inrMatch w.txn) s.inbOut = some i ∧ s.inbOut[i]? = some x ∧
      w.txn.status = 0 ∧ w.txn.len = answerLen x ∧ w.txn.ropc = x.opc ∧
      destOf s (mkCpl x 0 0 (cellsToBytes w.txn.len w.txn.data)) = .via ports)
    ∧ (∃ (s : State) (k : Nat) (w : Waiting), s.Inv ∧ atPlace s (.ifi .inr k) = some w ∧ w.txn.opc = 0x80 ∧ w.step = 0 ∧
      findIdx (inrMatch w.txn) s.inbOut = none)
    ∧ (∃ (s : State) (pl : Place) (w : Waiting) (i : TagInfo), s.Inv ∧ placeIsIfi pl = false ∧ Waits s pl w 0x80 ∧
      destOf s w.txn = .self ∧ cplUse s w.txn = some i ∧ i.use_ = .die ∧
      egressRoom s (cplChannel i.opc) w.txn.size = true)
    ∧ (∃ (s : State) (pl : Place) (w : Waiting), placeIsIfi pl = false ∧ Waits s pl w 0x80 ∧ destOf s w.txn = .self ∧
      cplUse s w.txn = none)
    ∧ (∃ (s : State) (k : Nat) (w : Waiting) (st : BitVec 8) (ports : List Nat), s.Inv ∧ Waits s (.ifi .msg k) w 0x21 ∧
      st = (if w.txn.status ∈ [(0 : BitVec 8), 0x05, 0x12] then w.txn.status else 0x18) ∧
      destOf s (withStatus w.txn st) = .via ports)
    ∧ (∃ (s : State) (k : Nat) (w : Waiting), s.ownQ[k]? = some w ∧ w.step = 13) :=
  ⟨⟨{ wDie .inr ({ wTxn 0x80 (.cpl 0 8 1 0) [0] with sdie := 1 }) with inbOut := [{ wTxn 1 (.mem false false 8 0) [] with sdie := 1 }] },
     0, 0, wAsk ({ wTxn 0x80 (.cpl 0 8 1 0) [0] with sdie := 1 }),
     { wTxn 1 (.mem false false 8 0) [] with sdie := 1 }, [0], by decide +kernel⟩,
   ⟨wDie .inr ({ wTxn 0x80 (.cpl 0 8 1 0) [0] with sdie := 1 }), 0,
     wAsk ({ wTxn 0x80 (.cpl 0 8 1 0) [0] with sdie := 1 }), inv_of _ (by decide +kernel), by decide +kernel⟩,
   ⟨(wWire (wTxn 0x80 (.cpl 0 0 2 0) [])).modPort 0 fun p => { p with tags := [(5, { opc := 2, ten := 3, rqid := 9, seq := 7, use_ := .die })] },
     .rx 0 0, { txn := wTxn 0x80 (.cpl 0 0 2 0) [] }, { opc := 2, ten := 3, rqid := 9, seq := 7, use_ := .die },
     inv_of _ (by decide +kernel), by decide +kernel, waits_of (by decide +kernel), by decide +kernel⟩,
   ⟨wWire (wTxn 0x80 (.cpl 0 0 2 0) []), .rx 0 0, { txn := wTxn 0x80 (.cpl 0 0 2 0) [] }, by decide +kernel,
     waits_of (by decide +kernel), by decide +kernel⟩,
   ⟨wDie .msg ({ wTxn 0x21 (.cpl 9 0 0x20 0) [] with sdie := 1 }), 0,
     wAsk ({ wTxn 0x21 (.cpl 9 0 0x20 0) [] with sdie := 1 }), 0x18, [0], inv_of _ (by decide +kernel),
     waits_of (by decide +kernel), by decide +kernel⟩,
   ⟨{ wUp with ownQ := [{ wCpl with step := 13 }] }, 0, { wCpl with step := 13 }, by decide +kernel⟩⟩

theorem witness_fencesAndMessages :
    (∃ (s : State) (k : Nat) (w : Waiting), Waits s (.ifi .req k) w 0x0F ∧ quiesced s w.txn.ten = false ∧
      earlierOpen s w = false)
    ∧ (∃ (s : State) (k : Nat) (w : Waiting), Waits s (.ifi .req k) w 0x0F ∧ quiesced s w.txn.ten = false ∧
      earlierOpen s w = true)
    ∧ (∃ (s : State) (k : Nat) (w : Waiting) (ports : List Nat), Waits s (.ifi .msg k) w 0x20 ∧
      quiesced s w.txn.ten = false ∧ msgLen w.txn ≠ 0 ∧ msgLen w.txn ≤ 240 ∧ heldBack s w = false ∧
      destOf s w.txn = .via ports)
    ∧ (∃ (s : State) (k : Nat) (tag : Nat) (w : Waiting), Waits s (.ifi .msg k) w 0x20 ∧ quiesced s w.txn.ten = false ∧
      msgLen w.txn ≠ 0 ∧ msgLen w.txn ≤ 240 ∧ heldBack s w = false ∧ destOf s w.txn = .self ∧
      nextTag s 15 = some tag ∧ msgCredit s w.txn.size = true)
    ∧ (∃ (s : State) (q : PortId) (k : Nat) (w : Waiting), Waits s (.rx q k) w 0x20 ∧ destOf s w.txn = .self ∧
      msgCredit s w.txn.size = true)
    ∧ (∃ (s : State) (q : PortId) (k : Nat) (w : Waiting) (ports : List Nat), Waits s (.rx q k) w 0x20 ∧
      destOf s w.txn = .via ports)
    ∧ (∃ (s : State) (pl : Place) (w : Waiting), Undecided s pl w ∧ legalAt pl w.txn.opc = false)
    ∧ (∃ (s : State) (k : Nat) (w : Waiting), Undecided s (.ifi .req k) w ∧ legalAt (.ifi .req k) w.txn.opc = false ∧
      w.txn.opc ≠ 0x20)
    ∧ (∃ (s : State) (pkg : BitVec 16), s.Inv ∧ Writable s ∧ pkg.toNat < 4096) :=
  ⟨⟨wDie .req (wTxn 0x0F (.other 0) []), 0, wAsk (wTxn 0x0F (.other 0) []), waits_of (by decide +kernel),
     by decide +kernel⟩,
   ⟨{ wDie .req (wTxn 0x0F (.other 0) []) with ord := [{ seq := 1, ten := 3, opc := 2, key := some (1, 0), fen := false, rqid := 0 }] },
     0, wAsk (wTxn 0x0F (.other 0) []), waits_of (by decide +kernel), by decide +kernel⟩,
   ⟨wDie .msg (wTxn 0x20 (.msg false false 15 0 256) [0]), 0, wAsk (wTxn 0x20 (.msg false false 15 0 256) [0]), [0],
     waits_of (by decide +kernel), by decide +kernel⟩,
   ⟨wDie .msg (wTxn 0x20 (.msg false false 15 0 0) [0]), 0, 0, wAsk (wTxn 0x20 (.msg false false 15 0 0) [0]),
     waits_of (by decide +kernel), by decide +kernel⟩,
   ⟨wWire (wTxn 0x20 (.msg false false 15 0 0) [0]), 0, 0, { txn := wTxn 0x20 (.msg false false 15 0 0) [0] },
     waits_of (by decide +kernel), by decide +kernel⟩,
   ⟨wWire (wTxn 0x20 (.msg false false 15 0 256) [0]), 0, 0, { txn := wTxn 0x20 (.msg false false 15 0 256) [0] }, [0],
     waits_of (by decide +kernel), by decide +kernel⟩,
   ⟨wWire (wTxn 0xFF (.other 0) []), .rx 0 0, { txn := wTxn 0xFF (.other 0) [] }, undecided_of (by decide +kernel),
     by decide +kernel⟩,
   ⟨wDie .req (wTxn 0xFF (.other 0) []), 0, wAsk (wTxn 0xFF (.other 0) []), undecided_of (by decide +kernel),
     by decide +kernel⟩,
   ⟨wUp, 4095, inv_of _ (by decide +kernel), writable_of _ (by decide +kernel), by decide +kernel⟩⟩

theorem witness_semaphores :
    (∃ (s : State) (pl : Place) (w : Waiting), AtHome s pl w 0x30 ∧
      (mget s.sems (syncSid w.txn) = none ∨ ∃ m, mget s.sems (syncSid w.txn) = some m ∧ m.owner = w.txn.ten ∧ m.fifo = []))
    ∧ (∃ (s : State) (pl : Place) (w : Waiting) (m : Sem), AtHome s pl w 0x31 ∧ mget s.sems (syncSid w.txn) = some m ∧
      m.barrier = false ∧ syncArg w.txn ≠ 0 ∧ m.value + syncArg w.txn ≤ 0xFFFFFFFF)
    ∧ (∃ (s : State) (pl : Place) (w : Waiting) (m : Sem) (c : Instr) (opc : Nat),
      (c = .semWait pl ∧ opc = 0x32 ∨ c = .semTry pl ∧ opc = 0x33) ∧ AtHome s pl w opc ∧
      mget s.sems (syncSid w.txn) = some m ∧ m.barrier = false ∧ m.fifo = [] ∧ syncArg w.txn ≠ 0 ∧
      syncArg w.txn ≤ m.value ∧ (m.owner = w.txn.ten ∨ quiesced s m.owner = false))
    ∧ (∃ (s : State) (pl : Place) (w : Waiting) (m : Sem), AtHome s pl w 0x32 ∧ mget s.sems (syncSid w.txn) = some m ∧
      m.barrier = false ∧ syncArg w.txn ≠ 0 ∧ (m.fifo ≠ [] ∨ m.value < syncArg w.txn) ∧
      (m.owner = w.txn.ten ∨ quiesced s m.owner = false) ∧ waitersUsed s < 2 * s.elab_.semHome)
    ∧ (∃ (s : State) (pl : Place) (w : Waiting) (m : Sem), AtHome s pl w 0x33 ∧ mget s.sems (syncSid w.txn) = some m ∧
      m.barrier = false ∧ syncArg w.txn ≠ 0 ∧ (m.fifo ≠ [] ∨ m.value < syncArg w.txn) ∧
      (m.owner = w.txn.ten ∨ quiesced s m.owner = false))
    ∧ (∃ (s : State) (pl : Place) (w : Waiting) (m : Sem), AtHome s pl w 0x34 ∧ mget s.sems (syncSid w.txn) = some m)
    ∧ (∃ (s : State) (pl : Place) (w : Waiting), AtHome s pl w 0x35 ∧
      (mget s.sems (syncSid w.txn) = none ∨ ∃ m, mget s.sems (syncSid w.txn) = some m ∧ m.owner = w.txn.ten ∧ m.fifo = []) ∧
      syncArg w.txn ≠ 0)
    ∧ (∃ (s : State) (pl : Place) (w : Waiting) (m : Sem), AtHome s pl w 0x36 ∧ mget s.sems (syncSid w.txn) = some m ∧
      m.barrier = true ∧ (m.owner = w.txn.ten ∨ quiesced s m.owner = false) ∧ m.arrived + 1 = m.expected)
    ∧ (∃ (s : State) (pl : Place) (w : Waiting) (m : Sem), AtHome s pl w 0x36 ∧ mget s.sems (syncSid w.txn) = some m ∧
      m.barrier = true ∧ (m.owner = w.txn.ten ∨ quiesced s m.owner = false) ∧ m.arrived + 1 ≠ m.expected ∧
      waitersUsed s < 2 * s.elab_.semHome)
    ∧ (∃ (s : State) (pl : Place) (w : Waiting) (m : Sem), AtHome s pl w 0x37 ∧ mget s.sems (syncSid w.txn) = some m ∧
      m.owner = w.txn.ten)
    ∧ (∃ (s : State) (k : Nat) (w : Waiting) (ports : List Nat) (c : Instr) (opc : Nat),
      (c, opc) ∈ [(Instr.semInit (.ifi .req k), 0x30), (.semSignal (.ifi .req k), 0x31), (.semWait (.ifi .req k), 0x32), (.semTry (.ifi .req k), 0x33), (.semRead (.ifi .req k), 0x34), (.barInit (.ifi .req k), 0x35), (.barArrive (.ifi .req k), 0x36), (.semFree (.ifi .req k), 0x37)] ∧
      Waits s (.ifi .req k) w opc ∧ quiesced s w.txn.ten = false ∧ syncArg w.txn ≠ 0 ∧ heldBack s w = false ∧
      destOf s w.txn = .via ports) :=
  ⟨⟨wDie .req (wSync 0x30 9), .ifi .req 0, wAsk (wSync 0x30 9), atHome_of (by decide +kernel), by decide +kernel⟩,
   ⟨wSem { barrier := false, value := 0xFFFFFFFE, owner := 3 } (wSync 0x31 1), .ifi .req 0, wAsk (wSync 0x31 1),
     { barrier := false, value := 0xFFFFFFFE, owner := 3 }, atHome_of (by decide +kernel), by decide +kernel⟩,
   ⟨wSem { barrier := false, value := 4, owner := 3 } (wSync 0x32 4), .ifi .req 0, wAsk (wSync 0x32 4),
     { barrier := false, value := 4, owner := 3 }, .semWait (.ifi .req 0), 0x32, by decide +kernel,
     atHome_of (by decide +kernel), by decide +kernel⟩,
   ⟨wSem { barrier := false, value := 4, owner := 3 } (wSync 0x32 5), .ifi .req 0, wAsk (wSync 0x32 5),
     { barrier := false, value := 4, owner := 3 }, atHome_of (by decide +kernel), by decide +kernel⟩,
   ⟨wSem { barrier := false, value := 4, owner := 3 } (wSync 0x33 5), .ifi .req 0, wAsk (wSync 0x33 5),
     { barrier := false, value := 4, owner := 3 }, atHome_of (by decide +kernel), by decide +kernel⟩,
   ⟨wSem { barrier := false, value := 4, owner := 3 } (wSync 0x34 0), .ifi .req 0, wAsk (wSync 0x34 0),
     { barrier := false, value := 4, owner := 3 }, atHome_of (by decide +kernel), by decide +kernel⟩,
   ⟨wDie .req (wSync 0x35 2), .ifi .req 0, wAsk (wSync 0x35 2), atHome_of (by decide +kernel), by decide +kernel⟩,
   ⟨wSem { barrier := true, owner := 3, expected := 1 } (wSync 0x36 0), .ifi .req 0, wAsk (wSync 0x36 0),
     { barrier := true, owner := 3, expected := 1 }, atHome_of (by decide +kernel), by decide +kernel⟩,
   ⟨wSem { barrier := true, owner := 3, expected := 2 } (wSync 0x36 0), .ifi .req 0, wAsk (wSync 0x36 0),
     { barrier := true, owner := 3, expected := 2 }, atHome_of (by decide +kernel), by decide +kernel⟩,
   ⟨wSem { barrier := false, value := 4, owner := 3 } (wSync 0x37 0), .ifi .req 0, wAsk (wSync 0x37 0),
     { barrier := false, value := 4, owner := 3 }, atHome_of (by decide +kernel), by decide +kernel⟩,
   ⟨wDie .req (wTxn 0x32 (.sync false 0 300 1) []), 0, wAsk (wTxn 0x32 (.sync false 0 300 1) []), [0],
     .semWait (.ifi .req 0), 0x32, by decide +kernel, waits_of (by decide +kernel), by decide +kernel⟩⟩

theorem witness_cacheRequests :
    (∃ (s : State) (k : Nat) (w : Waiting) (c : Instr) (opc : Nat) (ports : List Nat) (t : Txn) (l : RlcLine),
      (c = .rd (.ifi .req k) ∧ opc = 1 ∨ c = .wr (.ifi .req k) ∧ opc = 2 ∨ c = .wrp (.ifi .req k) ∧ opc = 3) ∧
      Waits s (.ifi .req k) w opc ∧ w.txn.ca = true ∧ quiesced s w.txn.ten = false ∧ memStatus w.txn = none ∧
      heldBack s w = false ∧ destOf s (withGpa w.txn (rewrite s w.txn.gpa)) = .via ports ∧
      useRlc s w.txn (rewrite s w.txn.gpa) = true ∧ earlierSameLine s w (lineOf (rewrite s w.txn.gpa)) = false ∧
      s.rlc.victims = [] ∧ outstanding s (lineOf (rewrite s w.txn.gpa)) = false ∧
      rlcLine s (lineOf (rewrite s w.txn.gpa)) = some l ∧
      t = { w.txn with head := .mem w.txn.fen false (BitVec.ofNat 8 w.txn.len) (rewrite s w.txn.gpa) } ∧
      needs t l.st = none)
    ∧ (∃ (s : State) (k : Nat) (w : Waiting) (c : Instr) (opc : Nat) (need : BitVec 8) (ports : List Nat) (t : Txn) (p : PortId),
      (c = .rd (.ifi .req k) ∧ opc = 1 ∨ c = .wr (.ifi .req k) ∧ opc = 2 ∨ c = .wrp (.ifi .req k) ∧ opc = 3) ∧
      Waits s (.ifi .req k) w opc ∧ w.txn.ca = true ∧ quiesced s w.txn.ten = false ∧ memStatus w.txn = none ∧
      heldBack s w = false ∧ destOf s (withGpa w.txn (rewrite s w.txn.gpa)) = .via ports ∧
      useRlc s w.txn (rewrite s w.txn.gpa) = true ∧ earlierSameLine s w (lineOf (rewrite s w.txn.gpa)) = false ∧
      s.rlc.victims = [] ∧ s.rlc.miss = [] ∧ s.Inv ∧ logical s (ports.headD 0) = p ∧
      t = { w.txn with head := .mem w.txn.fen false (BitVec.ofNat 8 w.txn.len) (rewrite s w.txn.gpa) } ∧
      needs t (((rlcLine s (lineOf (rewrite s w.txn.gpa))).map (·.st)).getD .i) = some need)
    ∧ (∃ (s : State) (q : PortId) (k : Nat) (w : Waiting) (c : Instr) (opc : Nat) (m : Miss) (m' : Miss),
      (c = .gnt (.rx q k) ∧ opc = 0x48 ∧ m' = { m with gnt := some (lineSt w.txn.cst, w.txn.ackcnt), data := if w.txn.cdata ∧ m.data = none then some (cellsToLine w.txn.data) else m.data } ∨ c = .fwd (.rx q k) ∧ opc = 0x5C ∧ m' = { m with fwd := some (lineSt w.txn.cst), data := some (cellsToLine w.txn.data), dirty := w.txn.dty } ∨ c = .iack (.rx q k) ∧ opc = 0x5D ∧ m' = { m with acks := m.acks + 1 }) ∧
      Waits s (.rx q k) w opc ∧ destOf s w.txn = .self ∧ cohTagOk s w.txn = true ∧ s.rlc.miss = [m] ∧
      m.la = w.txn.la ∧ m.evict = none ∧ missReady s m' = false)
    ∧ (∃ (s : State) (q : PortId) (k : Nat) (way : Nat) (w : Waiting) (m : Miss) (p : PortId), s.Inv ∧
      Waits s (.rx q k) w 0x48 ∧ destOf s w.txn = .self ∧ cohTagOk s w.txn = true ∧ s.rlc.miss = [m] ∧
      m.la = w.txn.la ∧ m.evict = none ∧ m.port = some p.val ∧ m.lost = none ∧ m.fwd = none ∧ m.data = none ∧
      m.waiting = [] ∧ w.txn.cdata = true ∧ w.txn.ackcnt ≤ m.acks ∧ rlcLine s m.la = none ∧
      fillWay s (rlcSet s m.la) = .free way)
    ∧ (∃ (s : State) (q : PortId) (k : Nat) (w : Waiting) (c : Instr) (opc : Nat),
      (c = .gnt (.rx q k) ∧ opc = 0x48 ∨ c = .fwd (.rx q k) ∧ opc = 0x5C ∨ c = .iack (.rx q k) ∧ opc = 0x5D) ∧
      Waits s (.rx q k) w opc ∧ destOf s w.txn = .self ∧ cohTagOk s w.txn = false)
    ∧ (∃ (s : State) (q : PortId) (p : PortId) (k : Nat) (w : Waiting) (i : TagInfo), s.Inv ∧ Waits s (.rx q k) w 0x49 ∧
      destOf s w.txn = .self ∧ w.txn.sport.toNat = p.val ∧ mget (s.port p).tags w.txn.tag.toNat = some i ∧
      i.use_ = .victim w.txn.la ∧ s.rlc.miss = []) :=
  ⟨⟨{ wDie .req (wCa 2) with rlc := { lines := [(wLa.toNat, wLine .m)] } }, 0, wAsk (wCa 2), .wr (.ifi .req 0), 2, [0],
     { wCa 2 with head := .mem false false 8 (BitVec.ofNat 58 (2 ^ 38)) }, wLine .m, by decide +kernel,
     waits_of (by decide +kernel), by decide +kernel⟩,
   ⟨wDie .req (wCa 1), 0, wAsk (wCa 1), .rd (.ifi .req 0), 1, 0x40, [0],
     { wCa 1 with head := .mem false false 8 (BitVec.ofNat 58 (2 ^ 38)) }, 0, by decide +kernel,
     waits_of (by decide +kernel), by decide +kernel, by decide +kernel, by decide +kernel, by decide +kernel,
     (by decide +kernel), by decide +kernel, by decide +kernel, by decide +kernel, by decide +kernel,
     inv_of _ (by decide +kernel), by decide +kernel⟩,
   ⟨wMissing wMiss (wAnswer 0x48 1 1), 0, 0, { txn := wAnswer 0x48 1 1 }, .gnt (.rx 0 0), 0x48, wMiss,
     { wMiss with gnt := some (.s, 1), data := some 0 }, by decide +kernel, waits_of (by decide +kernel),
     by decide +kernel⟩,
   ⟨wMissing wMiss (wAnswer 0x48 2 0), 0, 0, 0, { txn := wAnswer 0x48 2 0 }, wMiss, 0, inv_of _ (by decide +kernel),
     waits_of (by decide +kernel), by decide +kernel⟩,
   ⟨wWire (wAnswer 0x48 2 0), 0, 0, { txn := wAnswer 0x48 2 0 }, .gnt (.rx 0 0), 0x48, by decide +kernel,
     waits_of (by decide +kernel), by decide +kernel⟩,
   ⟨{ (wNet fun p => { p with rx := [{ txn := wAnswer 0x49 0 0 }], tags := [(4, { opc := 0x44, ten := 3, rqid := 0, seq := 0, use_ := .victim wLa })] }) with rlc := { victims := [{ la := wLa, st := .m, dirty := true, data := 5, port := some 0, tag := 4, flush := false }] } },
     0, 0, 0, { txn := wAnswer 0x49 0 0 }, { opc := 0x44, ten := 3, rqid := 0, seq := 0, use_ := .victim wLa },
     inv_of _ (by decide +kernel), waits_of (by decide +kernel), by decide +kernel⟩⟩

theorem witness_snoops :
    (∃ (s : State) (q : PortId) (k : Nat) (w : Waiting) (l : RlcLine), s.Inv ∧ Waits s (.rx q k) w 0x50 ∧
      destOf s w.txn = .self ∧ s.rlc.victims = [] ∧ rlcLine s w.txn.la = some l ∧ l.st ≠ .i)
    ∧ (∃ (s : State) (q : PortId) (k : Nat) (w : Waiting) (l : RlcLine) (c : Instr) (opc : Nat), s.Inv ∧
      (c = .snpx (.rx q k) ∧ opc = 0x51 ∨ c = .snpi (.rx q k) ∧ opc = 0x52 ∨ c = .snpf (.rx q k) ∧ opc = 0x53) ∧
      Waits s (.rx q k) w opc ∧ destOf s w.txn = .self ∧ s.rlc.victims = [] ∧ rlcLine s w.txn.la = some l)
    ∧ (∃ (s : State) (q : PortId) (k : Nat) (w : Waiting) (c : Instr) (opc : Nat), s.Inv ∧
      (c = .snps (.rx q k) ∧ opc = 0x50 ∨ c = .snpx (.rx q k) ∧ opc = 0x51 ∨ c = .snpi (.rx q k) ∧ opc = 0x52 ∨ c = .snpf (.rx q k) ∧ opc = 0x53) ∧
      Waits s (.rx q k) w opc ∧ destOf s w.txn = .self ∧ s.rlc.victims = [] ∧ s.rlc.miss = [] ∧
      rlcLine s w.txn.la = none)
    ∧ (∃ (s : State) (q : PortId) (k : Nat) (w : Waiting), s.Inv ∧ Waits s (.rx q k) w 0x54 ∧ destOf s w.txn = .self ∧
      s.rlc.victims = [] ∧ (∀ m ∈ s.rlc.miss, m.evict = none)) :=
  ⟨⟨{ wWire (wTxn 0x50 (.coh 0 false false false false 0 wLa) [0]) with rlc := { lines := [(wLa.toNat, wLine .m)] } },
     0, 0, { txn := (wTxn 0x50 (.coh 0 false false false false 0 wLa) [0]) }, wLine .m, inv_of _ (by decide +kernel),
     waits_of (by decide +kernel), by decide +kernel⟩,
   ⟨{ wWire (wTxn 0x53 (.coh 0 false false false false 0 wLa) [0]) with rlc := { lines := [(wLa.toNat, wLine .m)] } },
     0, 0, { txn := (wTxn 0x53 (.coh 0 false false false false 0 wLa) [0]) }, wLine .m, .snpf (.rx 0 0), 0x53,
     inv_of _ (by decide +kernel), by decide +kernel, waits_of (by decide +kernel), by decide +kernel⟩,
   ⟨wWire (wTxn 0x53 (.coh 0 false false false false 0 wLa) [0]), 0, 0,
     { txn := (wTxn 0x53 (.coh 0 false false false false 0 wLa) [0]) }, .snpf (.rx 0 0), 0x53,
     inv_of _ (by decide +kernel), by decide +kernel, waits_of (by decide +kernel), by decide +kernel⟩,
   ⟨{ wWire (wTxn 0x54 (.coh 0 false false false false 0 wLa) [0]) with rlc := { lines := [(wLa.toNat, wLine .s)] } },
     0, 0, { txn := (wTxn 0x54 (.coh 0 false false false false 0 wLa) [0]) }, inv_of _ (by decide +kernel),
     waits_of (by decide +kernel), by decide +kernel⟩⟩

theorem witness_cacheManagement :
    (∃ (s : State), s.Inv ∧ Writable s ∧ s.rlc.busy = false)
    ∧ (∃ (s : State), s.Inv ∧ Writable s ∧ s.rlc.busy = false)
    ∧ (∃ (s : State) (mask : BitVec 16), s.Inv ∧ Writable s ∧ s.rlc.busy = false ∧ mask.toNat &&& waysRemoved s = 0)
    ∧ (∃ (s : State), s.Inv ∧ Writable s ∧ s.rlc.busy = false)
    ∧ (∃ (s : State) (la : LineAddr) (l : RlcLine), s.rlc.victims.length < 32 ∧
      (∀ x ∈ s.rlc.owed, (rlcLine s x).isSome = true) ∧ s.rlc.owed.find? (fun la => !outstanding s la) = some la ∧
      rlcLine s la = some l)
    ∧ (∃ (s : State), s.rlc.owed = [] ∧ s.rlc.busy = false)
    ∧ (∃ (s : State) (rows : List (BitVec 64)) (rs : List Nat), s.Inv ∧ Writable s ∧ supReady s = true ∧
      rs = rowsOf 0x7000 0x05 (packBytes 8 ((List.range 64).map fun i => (rows.getD i 0).toNat)) ∧
      absentOk rs = true ∧ s.home.filter = [] ∧ s.home.track = []) :=
  ⟨⟨{ wUp with rlc := { lines := [(wLa.toNat, wLine .s)] } }, inv_of _ (by decide +kernel),
     writable_of _ (by decide +kernel), by decide +kernel⟩,
   ⟨wUp, inv_of _ (by decide +kernel), writable_of _ (by decide +kernel), by decide +kernel⟩,
   ⟨{ wUp with rlc := { lines := [(wLa.toNat, wLine .s)] } }, 0xFFFE, inv_of _ (by decide +kernel),
     writable_of _ (by decide +kernel), by decide +kernel⟩,
   ⟨{ wUp with rlc := { lines := [(wLa.toNat, wLine .s)] } }, inv_of _ (by decide +kernel),
     writable_of _ (by decide +kernel), by decide +kernel⟩,
   ⟨{ wUp with rlc := { lines := [(wLa.toNat, wLine .o)], owed := [wLa] } }, wLa, wLine .o, by decide +kernel,
     List.forall_mem_singleton.2 (by decide +kernel), by decide +kernel⟩,
   ⟨wUp, by decide +kernel⟩,
   ⟨wUp, [], rowsOf 0x7000 0x05 (packBytes 8 ((List.range 64).map fun i => (([] : List (BitVec 64)).getD i 0).toNat)),
     inv_of _ (by decide +kernel), writable_of _ (by decide +kernel), by decide +kernel⟩⟩

theorem witness_homeRequests :
    (∃ (s : State) (pl : Place) (w : Waiting) (c : Instr) (opc : Nat),
      (c, opc) ∈ [(.crd pl, 0x40), (.crdx pl, 0x41), (.cupg pl, 0x42), (.cwrl pl, 0x43)] ∧ Waits s pl w opc ∧
      destOf s w.txn = .self ∧ absentHit s (lineGpa w.txn.la) 128 = false ∧ s.home.track = [] ∧ s.home.filter = [] ∧
      filterWays s ≠ 0)
    ∧ (∃ (s : State) (pl : Place) (w : Waiting) (c : Instr) (opc : Nat) (e : FilterEntry) (h : Holder),
      (c, opc) ∈ [(.crd pl, 0x40), (.crdx pl, 0x41), (.cupg pl, 0x42), (.cwrl pl, 0x43)] ∧ Waits s pl w opc ∧
      destOf s w.txn = .self ∧ absentHit s (lineGpa w.txn.la) 128 = false ∧ s.home.track = [] ∧ s.home.filter = [e] ∧
      e.region = false ∧ e.la = w.txn.la ∧ e.owner = some h ∧ h ≠ holderOf w.txn ∧ e.holders = [h])
    ∧ (∃ (s : State) (pl : Place) (w : Waiting) (c : Instr) (opc : Nat) (ports : List Nat) (l : PortId), s.Inv ∧
      (c, opc) ∈ [(.crd pl, 0x40), (.crdx pl, 0x41), (.cupg pl, 0x42), (.cwrl pl, 0x43)] ∧ Waits s pl w opc ∧
      destOf s w.txn = .self ∧ absentHit s (lineGpa w.txn.la) 128 = true ∧ placeIsIfi pl = false ∧
      destOf s (mkCpl w.txn 0x11 0 []) = .via ports ∧ logical s (ports.headD 0) = l)
    ∧ (∃ (s : State) (pl : Place) (w : Waiting) (c : Instr) (opc : Nat), s.Inv ∧
      (c, opc) ∈ [(.cwb pl, 0x44), (.cevc pl, 0x45)] ∧ Waits s pl w opc ∧ destOf s w.txn = .self ∧
      s.home.track = [] ∧ s.home.filter = [])
    ∧ (∃ (s : State) (pl : Place) (w : Waiting) (c : Instr) (opc : Nat) (e : FilterEntry),
      (c, opc) ∈ [(.cwb pl, 0x44), (.cevc pl, 0x45)] ∧ Waits s pl w opc ∧ destOf s w.txn = .self ∧
      s.home.track = [] ∧ s.home.filter = [e] ∧ e.region = false ∧ e.la = w.txn.la ∧ e.holders = [holderOf w.txn])
    ∧ (∃ (s : State) (k : Nat) (w : Waiting), atPlace s (.ifi .snp k) = some w ∧ (w.txn.opc = 0x50 ∨ w.txn.opc = 0x53) ∧
      s.home.track = [] ∧ s.home.filter = [])
    ∧ (∃ (s : State) (k : Nat) (w : Waiting) (e : FilterEntry) (h : Holder), s.Inv ∧ atPlace s (.ifi .snp k) = some w ∧
      w.txn.opc = 0x50 ∧ s.home.track = [] ∧ s.home.filter = [e] ∧ e.region = false ∧ e.la = w.txn.la ∧
      e.owner = some h) :=
  ⟨⟨wWire (wCoh 0x42 0 []), .rx 0 0, { txn := wCoh 0x42 0 [] }, .cupg (.rx 0 0), 0x42, by decide +kernel,
     waits_of (by decide +kernel), by decide +kernel⟩,
   ⟨{ wWire (wCoh 0x40 0 []) with home := { filter := [{ region := false, la := 7, owner := some ⟨0, 2⟩, owned := false, holders := [⟨0, 2⟩], used := 0 }] } },
     .rx 0 0, { txn := wCoh 0x40 0 [] }, .crd (.rx 0 0), 0x40,
     { region := false, la := 7, owner := some ⟨0, 2⟩, owned := false, holders := [⟨0, 2⟩], used := 0 }, ⟨0, 2⟩,
     by decide +kernel, waits_of (by decide +kernel), by decide +kernel⟩,
   ⟨let s := wWire (wCoh 0x40 0 []); { s with tabs := s.tabs ++ [(ekey 0x7000 0x05, [1 * 2 ^ 18])] }, .rx 0 0,
     { txn := wCoh 0x40 0 [] }, .crd (.rx 0 0), 0x40, [0], 0, inv_of _ (by decide +kernel), by decide +kernel,
     waits_of (by decide +kernel), by decide +kernel⟩,
   ⟨wWire (wCoh 0x45 0 []), .rx 0 0, { txn := wCoh 0x45 0 [] }, .cevc (.rx 0 0), 0x45, inv_of _ (by decide +kernel),
     by decide +kernel, waits_of (by decide +kernel), by decide +kernel⟩,
   ⟨{ wWire (wCoh 0x44 0 []) with home := { filter := [{ region := false, la := 7, owner := some ⟨0, 1⟩, owned := false, holders := [⟨0, 1⟩], used := 0 }] } },
     .rx 0 0, { txn := wCoh 0x44 0 [] }, .cwb (.rx 0 0), 0x44,
     { region := false, la := 7, owner := some ⟨0, 1⟩, owned := false, holders := [⟨0, 1⟩], used := 0 },
     by decide +kernel, waits_of (by decide +kernel), by decide +kernel⟩,
   ⟨wDie .snp (wCoh 0x53 0 [0]), 0, wAsk (wCoh 0x53 0 [0]), by decide +kernel⟩,
   ⟨{ wDie .snp (wTxn 0x50 (.coh 0 false false false false 0 7) []) with home := { filter := [{ region := false, la := 7, owner := some ⟨0, 2⟩, owned := false, holders := [⟨0, 2⟩], used := 0 }] } },
     0, wAsk (wTxn 0x50 (.coh 0 false false false false 0 7) []),
     { region := false, la := 7, owner := some ⟨0, 2⟩, owned := false, holders := [⟨0, 2⟩], used := 0 }, ⟨0, 2⟩,
     inv_of _ (by decide +kernel), by decide +kernel⟩⟩

theorem witness_homeAnswers :
    (∃ (s : State) (k : Nat) (w : Waiting) (tr : Track), s.Inv ∧ Waits s (.ifi .inr k) w 0x48 ∧
      s.inbOut.any (inbMatch w.txn) = true ∧ s.home.track = [tr] ∧ busyTrack s .request w.txn = some tr ∧
      tr.presented = true ∧ tr.inrDone = false ∧ tr.ackDone = false ∧ s.home.filter = [] ∧ tr.txn.opc = 0x40 ∧
      (lineSt w.txn.cst = .e ∨ lineSt w.txn.cst = .s))
    ∧ (∃ (s : State) (k : Nat) (w : Waiting) (tr : Track), s.Inv ∧ Waits s (.ifi .inr k) w 0x49 ∧
      s.inbOut.any (inbMatch w.txn) = true ∧ s.home.track = [tr] ∧ busyTrack s .writeback w.txn = some tr ∧
      tr.presented = true)
    ∧ (∃ (s : State) (la : LineAddr) (tr : Track), s.home.track = [tr] ∧ tr.busy = true ∧ tr.la = la ∧ tr.needFetch = true)
    ∧ (∃ (s : State) (la : LineAddr), (s.home.track.any fun t => t.busy && t.la == la && t.needFetch) = false)
    ∧ (∃ (s : State) (pl : Place) (w : Waiting) (x : Track), Waits s pl w 0x58 ∧ destOf s w.txn = .self ∧
      s.home.track = [x] ∧ awaitingTrack s w.txn (targetHolder w.txn) = some x ∧ x.recalling = false ∧
      x.kind = .request ∧ x.target ≠ some (targetHolder w.txn) ∧ w.txn.cdata = false ∧ x.ackDone = false)
    ∧ (∃ (s : State) (pl : Place) (w : Waiting) (x : Track), Waits s pl w 0x59 ∧ destOf s w.txn = .self ∧
      s.home.track = [x] ∧ awaitingTrack s w.txn (targetHolder w.txn) = some x ∧ x.recalling = true ∧
      x.region = true ∧ x.awaiting.filter (· != targetHolder w.txn) ≠ [])
    ∧ (∃ (s : State) (pl : Place) (w : Waiting) (x : Track), Waits s pl w 0x46 ∧ destOf s w.txn = .self ∧
      s.home.track = [x] ∧ busyTrack s .request w.txn = some x ∧ x.inrDone = true ∧ w.txn.stale = false ∧
      w.txn.cdata = false ∧ x.needFetch = false ∧ x.fetching = false ∧ x.awaiting = [] ∧
      (x.staleAck = false ∨ x.dirtyFwd = false ∨ x.dataAck = true)) :=
  ⟨⟨wInr wTrack (wCoh 0x48 2 []), 0, wAsk (wCoh 0x48 2 []), wTrack, inv_of _ (by decide +kernel),
     waits_of (by decide +kernel), by decide +kernel⟩,
   ⟨wInr { wTrack with kind := .writeback } (wCoh 0x49 0 []), 0, wAsk (wCoh 0x49 0 []),
     { wTrack with kind := .writeback }, inv_of _ (by decide +kernel), waits_of (by decide +kernel),
     by decide +kernel⟩,
   ⟨{ wUp with home := { track := [{ wTrack with needFetch := true }] } }, 7, { wTrack with needFetch := true },
     by decide +kernel⟩,
   ⟨{ wUp with home := { track := [wTrack] } }, 7, by decide +kernel⟩,
   ⟨wHome { wTrack with awaiting := [⟨9, 9⟩] } (wCoh 0x58 0 [9 + 9 * 2 ^ 12]), .rx 0 0,
     { txn := wCoh 0x58 0 [9 + 9 * 2 ^ 12] }, { wTrack with awaiting := [⟨9, 9⟩] }, waits_of (by decide +kernel),
     by decide +kernel⟩,
   ⟨wHome { wTrack with awaiting := [⟨9, 9⟩, ⟨8, 8⟩], recalling := true, region := true } (wCoh 0x59 0 [9 + 9 * 2 ^ 12]),
     .rx 0 0, { txn := wCoh 0x59 0 [9 + 9 * 2 ^ 12] },
     { wTrack with awaiting := [⟨9, 9⟩, ⟨8, 8⟩], recalling := true, region := true }, waits_of (by decide +kernel),
     by decide +kernel⟩,
   ⟨wHome { wTrack with inrDone := true } (wCoh 0x46 0 []), .rx 0 0, { txn := wCoh 0x46 0 [] },
     { wTrack with inrDone := true }, waits_of (by decide +kernel), by decide +kernel⟩⟩

theorem witness_reductionControl :
    (∃ (s : State) (k : Nat) (w : Waiting) (d : Desc), atPlace s (.ifi .red k) = some w ∧ w.txn.opc = 0x62 ∧
      d = parseDesc w.txn.data ∧ openStatus s w.txn.ten d = 0 ∧ s.ifr.orphans = [])
    ∧ (∃ (s : State) (k : Nat) (src : Nat) (w : Waiting) (d : Desc) (o : Orphan), atPlace s (.ifi .red k) = some w ∧
      w.txn.opc = 0x62 ∧ d = parseDesc w.txn.data ∧ openStatus s w.txn.ten d = 0 ∧ s.ifr.orphans = [o] ∧
      o.rid = d.rid ∧ o.blk < ifrWindow s ∧ o.blk < d.nblk ∧ o.res = false ∧ sourceOf d o.holder = some src ∧
      src ≠ 0 ∧ o.fmt.toNat = carryCode d.cfmt)
    ∧ (∃ (s : State) (k : Nat) (w : Waiting) (st : BitVec 8), atPlace s (.ifi .red k) = some w ∧ w.txn.opc = 0x62 ∧
      openStatus s w.txn.ten (parseDesc w.txn.data) = st ∧ st ≠ 0)
    ∧ (∃ (s : State) (k : Nat) (w : Waiting) (r : RidState), atPlace s (.ifi .red k) = some w ∧ w.txn.opc = 0x65 ∧
      w.step ≠ 8 ∧ w.taken = 0 ∧ contStatus s w.txn = 0 ∧ (blkHead w.txn).nb = 1 ∧
      ridOf s (blkHead w.txn).rid = some r ∧ (blkHead w.txn).blk < r.klo + r.window)
    ∧ (∃ (s : State) (k : Nat) (w : Waiting) (r : RidState), atPlace s (.ifi .red k) = some w ∧ w.txn.opc = 0x65 ∧
      w.step ≠ 8 ∧ w.taken = 0 ∧ contStatus s w.txn = 0 ∧ (blkHead w.txn).nb = 1 ∧
      ridOf s (blkHead w.txn).rid = some r ∧ r.klo + r.window ≤ (blkHead w.txn).blk ∧ orphanRoom s = true)
    ∧ (∃ (s : State) (k : Nat) (w : Waiting) (r : RidState), atPlace s (.ifi .red k) = some w ∧ w.txn.opc = 0x65 ∧
      w.step ≠ 8 ∧ w.taken = 0 ∧ contStatus s w.txn = 0 ∧ (blkHead w.txn).nb = 1 ∧
      ridOf s (blkHead w.txn).rid = some r ∧ r.klo + r.window ≤ (blkHead w.txn).blk ∧ orphanRoom s = false)
    ∧ (∃ (s : State) (k : Nat) (eng : Nat) (w : Waiting) (st : BitVec 8), atPlace s (.ifi .red k) = some w ∧
      w.txn.opc = 0x65 ∧ w.step ≠ 8 ∧ contStatus s w.txn = st ∧ st ≠ 0 ∧
      eng = ((ridOf s (blkHead w.txn).rid).map fun r => if r.aborted then 0 else r.eng).getD 0)
    ∧ (∃ (s : State) (k : Nat) (w : Waiting) (rid : Rid), atPlace s (.ifi .red k) = some w ∧ w.txn.opc = 0x63 ∧
      w.txn.head = .rabort rid)
    ∧ (∃ (s : State) (v : BitVec 16) (rid : Rid), s.Inv ∧ Writable s ∧ rid = v.setWidth 12)
    ∧ (∃ (s : State) (k : Nat) (c : Instr) (opc : BitVec 8),
      (c, opc) ∈ [(Instr.ropen k, 0x62), (.rcont k, 0x65), (.rabort k, 0x63)] ∧
      (∀ w ∈ atPlace s (.ifi .red k), w.txn.opc ≠ opc))
    ∧ (∃ (s : State) (mask : BitVec 8), s.Inv ∧ Writable s ∧ enginesMaskBad s mask.toNat = false)
    ∧ (∃ (s : State) (mask : BitVec 8), s.Inv ∧ Writable s ∧ enginesMaskBad s mask.toNat = true)
    ∧ (∃ (s : State) (e : EngineId), s.Inv ∧ e.val < s.elab_.ifr ∧ s.ifr.failed.contains e.val = false)
    ∧ (∃ (s : State) (e : EngineId), e.val < s.elab_.ifr ∧ s.ifr.failed.contains e.val = true)
    ∧ (∃ (s : State) (rid : Rid) (r : RidState), ridOf s rid = some r ∧ mustMove s r = true ∧ r.moving = none)
    ∧ (∃ (s : State) (rid : Rid), (∀ r ∈ ridOf s rid, mustMove s r = false ∨ r.moving.isSome = true))
    ∧ (∃ (s : State) (rid : Rid) (r : RidState) (e : Nat), ridOf s rid = some r ∧ r.moving ≠ none ∧ leastLoaded s = some e)
    ∧ (∃ (s : State) (rid : Rid), (leastLoaded s = none ∨ (∀ r ∈ ridOf s rid, r.moving = none))) :=
  ⟨⟨wDie .red wOpen, 0, wAsk wOpen, wDesc, by decide +kernel⟩,
   ⟨{ wDie .red wOpen with ifr := { orphans := [{ rid := 5, blk := 0, res := false, holder := some ⟨0, 1⟩, fmt := 12, bytes := [], flags := {} }] } },
     0, 1, wAsk wOpen, parseDesc wOpen.data,
     { rid := 5, blk := 0, res := false, holder := some ⟨0, 1⟩, fmt := 12, bytes := [], flags := {} },
     by decide +kernel⟩,
   ⟨wDie .red { wOpen with data := [] }, 0, wAsk { wOpen with data := [] }, 1, by decide +kernel⟩,
   ⟨wRed (wRid id) (wDie .red (wBlk 0x65 8 0)), 0, wAsk (wBlk 0x65 8 0), wRid id, by decide +kernel⟩,
   ⟨wRed (wRid fun r => { r with desc := { wDesc with nblk := 40 } }) (wDie .red (wBlkAt 0x65 8 0 20)), 0,
     wAsk (wBlkAt 0x65 8 0 20), wRid fun r => { r with desc := { wDesc with nblk := 40 } }, by decide +kernel⟩,
   ⟨let s := wRed (wRid fun r => { r with desc := { wDesc with nblk := 40 } }) (wDie .red (wBlkAt 0x65 8 0 20)); { s with ifr := { s.ifr with orphans := List.replicate 256 { rid := 5, blk := 0, res := false, holder := some ⟨0, 1⟩, fmt := 12, bytes := [], flags := {} } } },
     0, wAsk (wBlkAt 0x65 8 0 20), wRid fun r => { r with desc := { wDesc with nblk := 40 } }, by decide +kernel⟩,
   ⟨wDie .red (wBlk 0x65 8 0), 0, 0, wAsk (wBlk 0x65 8 0), 0x14, by decide +kernel⟩,
   ⟨wRed (wRid id) (wDie .red (wTxn 0x63 (.rabort 5) [])), 0, wAsk (wTxn 0x63 (.rabort 5) []), 5, by decide +kernel⟩,
   ⟨wRed (wRid id) wUp, 5, 5, inv_of _ (by decide +kernel), writable_of _ (by decide +kernel), by decide +kernel⟩,
   ⟨wDie .red wOpen, 0, .rabort 0, 0x63, by decide +kernel⟩,
   ⟨wUp, 1, inv_of _ (by decide +kernel), writable_of _ (by decide +kernel), by decide +kernel⟩,
   ⟨wUp.put 0xB200 0x06 0 1, 1, inv_of _ (by decide +kernel), writable_of _ (by decide +kernel), by decide +kernel⟩,
   ⟨wUp, 0, inv_of _ (by decide +kernel), by decide +kernel⟩,
   ⟨{ wUp with ifr := { failed := [0] } }, 0, by decide +kernel⟩,
   ⟨wRed (wRid fun r => { r with eng := 7 }) (wUp.put 0x9000 0x02 0xFF 1), 5, wRid fun r => { r with eng := 7 },
     by decide +kernel⟩,
   ⟨wRed (wRid id) wUp, 5, by decide +kernel⟩,
   ⟨wRed (wRid fun r => { r with eng := 7, moving := some 4000 }) (wUp.put 0x9000 0x02 0xFF 1), 5,
     wRid fun r => { r with eng := 7, moving := some 4000 }, 0, by decide +kernel⟩,
   ⟨wRed (wRid id) wUp, 5, by decide +kernel⟩⟩

theorem witness_reductionBlocks :
    (∃ (s : State) (q : PortId) (k : Nat) (w : Waiting), Waits s (.rx q k) w 0x60 ∧ destOf s w.txn = .self ∧
      ridOf s (blkHead w.txn).rid = none ∧ (blkHead w.txn).nb = 1 ∧ w.taken = 0 ∧ orphanRoom s = true)
    ∧ (∃ (s : State) (q : PortId) (k : Nat) (w : Waiting), s.Inv ∧ Waits s (.rx q k) w 0x60 ∧ destOf s w.txn = .self ∧
      ridOf s (blkHead w.txn).rid = none ∧ (blkHead w.txn).nb = 1 ∧ w.taken = 0 ∧ orphanRoom s = false)
    ∧ (∃ (s : State) (q : PortId) (k : Nat) (src : Nat) (w : Waiting) (r : RidState), Waits s (.rx q k) w 0x60 ∧
      destOf s w.txn = .self ∧ ridOf s (blkHead w.txn).rid = some r ∧ r.aborted = false ∧ w.step ≠ 8 ∧ w.taken = 0 ∧
      rblkBad s w.txn r = none ∧ (blkHead w.txn).nb = 1 ∧ (blkHead w.txn).blk < r.klo + r.window ∧
      sourceOf r.desc (some ⟨w.txn.spkg, w.txn.sdie⟩) = some src)
    ∧ (∃ (s : State) (q : PortId) (k : Nat) (bad : Nat) (w : Waiting) (r : RidState), Waits s (.rx q k) w 0x60 ∧
      destOf s w.txn = .self ∧ ridOf s (blkHead w.txn).rid = some r ∧ r.aborted = false ∧ w.step ≠ 8 ∧
      rblkBad s w.txn r = some bad)
    ∧ (∃ (s : State) (q : PortId) (k : Nat) (bad : Nat) (w : Waiting) (r : RidState), Waits s (.rx q k) w 0x61 ∧
      destOf s w.txn = .self ∧ ridOf s (blkHead w.txn).rid = some r ∧ r.aborted = false ∧ rresBad w.txn r = some bad)
    ∧ (∃ (s : State) (q : PortId) (k : Nat) (w : Waiting) (c : Instr) (opc : Nat) (r : RidState),
      (c = .rblk (.rx q k) ∧ opc = 0x60 ∨ c = .rres (.rx q k) ∧ opc = 0x61) ∧ Waits s (.rx q k) w opc ∧
      destOf s w.txn = .self ∧ ridOf s (blkHead w.txn).rid = some r ∧ r.aborted = true ∧ w.taken = 0)
    ∧ (∃ (s : State) (q : PortId) (k : Nat) (w : Waiting) (r : RidState), Waits s (.rx q k) w 0x61 ∧
      destOf s w.txn = .self ∧ ridOf s (blkHead w.txn).rid = some r ∧ r.aborted = false ∧ rresBad w.txn r = none ∧
      (blkHead w.txn).blk + (blkHead w.txn).nb ≠ r.desc.nblk)
    ∧ (∃ (s : State) (q : PortId) (k : Nat) (w : Waiting) (r : RidState), Waits s (.rx q k) w 0x61 ∧
      destOf s w.txn = .self ∧ ridOf s (blkHead w.txn).rid = some r ∧ r.aborted = false ∧ rresBad w.txn r = none ∧
      (blkHead w.txn).blk + (blkHead w.txn).nb = r.desc.nblk)
    ∧ (∃ (s : State) (q : PortId) (k : Nat) (w : Waiting), Waits s (.rx q k) w 0x61 ∧ destOf s w.txn = .self ∧
      ridOf s (blkHead w.txn).rid = none ∧ s.ifr.orphans.length + (blkHead w.txn).nb ≤ 256)
    ∧ (∃ (s : State) (rid : Rid) (r : RidState) (n : Nat), ridOf s rid = some r ∧ r.aborted = false ∧ r.moving = none ∧
      (inService s).contains r.eng = true ∧ n = groupSize s r ∧ n ≠ 0 ∧ r.klo + n < r.desc.nblk ∧ s.ifr.orphans = [])
    ∧ (∃ (s : State) (rid : Rid),
      (∀ r ∈ ridOf s rid, r.aborted = true ∨ r.moving ≠ none ∨ (inService s).contains r.eng = false ∨ groupSize s r = 0))
    ∧ (∃ (s : State) (w : Waiting) (r : RidState), (∀ p ∈ s.ports, p.rx = []) ∧ s.ingress = [(.red, w)] ∧ w.step = 8 ∧
      w.txn.opc = 0x65 ∧ (blkHead w.txn).nb = w.taken + 1 ∧ ridOf s (blkHead w.txn).rid = some r ∧
      r.aborted = false ∧ r.desc.local_ = true ∧ (blkHead w.txn).blk + w.taken < r.klo + r.window) :=
  ⟨⟨wWire (wBlk 0x60 12 1), 0, 0, { txn := wBlk 0x60 12 1 }, waits_of (by decide +kernel), by decide +kernel⟩,
   ⟨{ wWire (wBlk 0x60 12 1) with ifr := { orphans := List.replicate 256 { rid := 5, blk := 0, res := false, holder := some ⟨0, 1⟩, fmt := 12, bytes := [], flags := {} } } },
     0, 0, { txn := wBlk 0x60 12 1 }, inv_of _ (by decide +kernel), waits_of (by decide +kernel), by decide +kernel⟩,
   ⟨wRed (wRid id) (wWire (wBlk 0x60 12 1)), 0, 0, 1, { txn := wBlk 0x60 12 1 }, wRid id, waits_of (by decide +kernel),
     by decide +kernel⟩,
   ⟨wRed (wRid id) (wWire (wBlk 0x60 11 1)), 0, 0, 0, { txn := wBlk 0x60 11 1 }, wRid id, waits_of (by decide +kernel),
     by decide +kernel⟩,
   ⟨wRed (wRid id) (wWire (wBlk 0x61 8 1)), 0, 0, 0, { txn := wBlk 0x61 8 1 }, wRid id, waits_of (by decide +kernel),
     by decide +kernel⟩,
   ⟨wRed (wRid fun r => { r with aborted := true }) (wWire (wBlk 0x61 8 1)), 0, 0, { txn := wBlk 0x61 8 1 },
     .rres (.rx 0 0), 0x61, wRid fun r => { r with aborted := true }, by decide +kernel,
     waits_of (by decide +kernel), by decide +kernel⟩,
   ⟨wRed (wRid fun r => { r with desc := { wDesc with root := false, allred := true, pdie := 1 } }) (wWire (wBlk 0x61 8 1)),
     0, 0, { txn := wBlk 0x61 8 1 },
     wRid fun r => { r with desc := { wDesc with root := false, allred := true, pdie := 1 } },
     waits_of (by decide +kernel), by decide +kernel⟩,
   ⟨wRed (wRid fun r => { r with desc := { wDesc with root := false, allred := true, pdie := 1 } }) (wWire (wBlkAt 0x61 8 1 2)),
     0, 0, { txn := wBlkAt 0x61 8 1 2 },
     wRid fun r => { r with desc := { wDesc with root := false, allred := true, pdie := 1 } },
     waits_of (by decide +kernel), by decide +kernel⟩,
   ⟨wWire (wBlk 0x61 12 1), 0, 0, { txn := wBlk 0x61 12 1 }, waits_of (by decide +kernel), by decide +kernel⟩,
   ⟨wRed (wRid fun r => { r with staged := [⟨0, 0, .nan, {}⟩, ⟨0, 1, .nan, {}⟩] }) wUp, 5,
     wRid fun r => { r with staged := [⟨0, 0, .nan, {}⟩, ⟨0, 1, .nan, {}⟩] }, 1, by decide +kernel⟩,
   ⟨wRed (wRid id) wUp, 5, by decide +kernel⟩,
   ⟨wRed (wRid id) { wUp with ingress := [(.red, { wAsk (wBlk 0x65 8 0) with step := 8 })] },
     { wAsk (wBlk 0x65 8 0) with step := 8 }, wRid id, by decide +kernel⟩⟩

theorem witness_twinPairs :
    (∃ (s : State) (q : PortId) (l : PortId) (k : Nat) (v : Nat) (rc : Nat) (n : Nat) (c : CtrlIn) (a : Nat) (b : Nat) (e : Nat),
      s.Inv ∧ s.elab_.portBuilt q = true ∧ logical s q = l ∧ ctrlHead s l 8 = some c ∧ pairOf s l = some k ∧
      tcreditEntries c.cell = [(v, rc), (0, a), (0, b), (0, e)] ∧ v ≠ 0 ∧
      n = (rc + 65536 - (s.twins.getD k {}).av.getD v 0) % 65536 ∧ 1 ≤ n ∧ n ≤ 32767)
    ∧ (∃ (s : State) (q : PortId) (l : PortId) (k : Nat) (v : Nat) (rc : Nat) (c : CtrlIn) (a : Nat) (b : Nat) (e : Nat),
      s.Inv ∧ s.elab_.portBuilt q = true ∧ logical s q = l ∧ ctrlHead s l 8 = some c ∧ pairOf s l = some k ∧
      tcreditEntries c.cell = [(v, rc), (0, a), (0, b), (0, e)] ∧ v ≠ 0 ∧
      (rc + 65536 - (s.twins.getD k {}).av.getD v 0) % 65536 = 0)
    ∧ (∃ (s : State) (q : PortId) (l : Nat) (c : Instr) (ctype : Nat) (x : CtrlIn),
      (c = .tcredit q ∧ ctype = 8 ∨ c = .tout q ∧ ctype = 9) ∧ l = logical s q ∧ s.elab_.portBuilt q = true ∧
      ctrlHead s l ctype = some x ∧ pairOf s l = none)
    ∧ (∃ (s : State) (q : PortId) (c : Instr) (ctype : Nat), (c = .tcredit q ∧ ctype = 8 ∨ c = .tout q ∧ ctype = 9) ∧
      s.elab_.portBuilt q = true ∧ ctrlHead s (logical s q) ctype = none)
    ∧ (∃ (s : State) (q : PortId) (l : PortId) (u : PortId) (k : Nat) (c : CtrlIn), s.Inv ∧ s.elab_.portBuilt q = true ∧
      logical s q = l ∧ ctrlHead s l 9 = some c ∧ pairOf s l = some k ∧ pairOf s u = some k ∧
      (c.cell.extractLsb' 8 4).toNat = u.val ∧ (roleOf s k u).merged = true ∧ siblingMerged s u = true)
    ∧ (∃ (s : State) (q : PortId) (l : PortId) (u : Nat) (k : Nat) (c : CtrlIn), s.Inv ∧ s.elab_.portBuilt q = true ∧
      logical s q = l ∧ ctrlHead s l 9 = some c ∧ pairOf s l = some k ∧ (c.cell.extractLsb' 8 4).toNat = u ∧
      ((pairOf s u = some k ∧ roleOf s k u = .out) ∨ (u ≠ pairA s k ∧ u ≠ pairB s k)))
    ∧ (∃ (s : State) (q : PortId) (k : Nat), s.Inv ∧ s.elab_.portBuilt q = true ∧ (s.port q).state = .active ∧
      pairOf s q = some k ∧ siblingMerged s q = true ∧ outranked s q 5 = false ∧ (s.port q).pllPark = false)
    ∧ (∃ (s : State) (k : PairId) (unitB : Bool), s.Inv ∧ s.elab_.twin = true ∧ pairValid s k = true ∧
      roleOf s k (unitPort s k unitB) = .out ∧ s.get (0xB300 + 16 * k) 0x09 10000000 ≠ 0)
    ∧ (∃ (s : State) (k : PairId) (unitB : Bool), s.elab_.twin = true ∧
      (roleOf s k (unitPort s k unitB) ≠ .out ∨ s.get (0xB300 + 16 * k) 0x09 10000000 = 0))
    ∧ (∃ (s : State) (k : PairId) (unitB : Bool), s.elab_.twin = true ∧ pairValid s k = true ∧
      roleOf s k (unitPort s k unitB) = .catchup)
    ∧ (∃ (s : State) (k : PairId) (unitB : Bool), s.Inv ∧ s.elab_.twin = true ∧ pairValid s k = true ∧
      roleOf s k (unitPort s k unitB) = .catchup ∧ pairOf s (unitPort s k unitB) = some k.val ∧
      (svcSlot s.svc).isSome = true)
    ∧ (∃ (s : State) (k : PairId) (unitB : Bool), s.Inv ∧ s.elab_.twin = true ∧ pairValid s k = true ∧
      roleOf s k (unitPort s k unitB) = .catchup ∧ copyReady s k unitB = true ∧
      siblingMerged s (unitPort s k unitB) = true ∧ pairOf s (unitPort s k unitB) = some k.val)
    ∧ (∃ (s : State) (k : PairId) (unitB : Bool), s.elab_.twin = true ∧ pairValid s k = true ∧
      roleOf s k (unitPort s k unitB) = .catchup ∧ copyReady s k unitB = true ∧
      siblingMerged s (unitPort s k unitB) = false)
    ∧ (∃ (s : State) (k : PairId), s.elab_.twin = true ∧ pairValid s k = true ∧ (s.twins.getD k {}).window ≠ none)
    ∧ (∃ (s : State) (k : PairId) (unitB : Bool) (aligned : Bool) (c : Instr), s.elab_.twin = true ∧
      (pairValid s k = false ∨ roleOf s k (unitPort s k unitB) ≠ .catchup ∧ (s.twins.getD k {}).window = none) ∧
      c ∈ [Instr.bulkCopyDone k unitB aligned, .twinJoin k unitB, .dualActionEnd k])
    ∧ (∃ (s : State) (q : PortId) (k : Nat) (m : ParamMsg), s.Inv ∧ s.elab_.portBuilt q = true ∧
      (s.port q).state = .param ∧ (s.port q).pllPark = false ∧ (s.port q).param.partner = some m ∧
      (s.port q).param.commitAt ≠ none ∧ (s.port q).param.commitRcvd = true ∧ pairOf s q = some k ∧
      siblingMerged s q = true ∧ activeUnit s q ≠ q) :=
  ⟨⟨wTwin { roleA := .active, roleB := .standby } fun p => { p with uv := List.replicate 16 9, ctrlIn := [wCtrl (8 + 1 * 2 ^ 16 + 3 * 2 ^ 24)] },
     0, 0, 0, 1, 3, 3, wCtrl (8 + 1 * 2 ^ 16 + 3 * 2 ^ 24), 0, 0, 0, inv_of _ (by decide +kernel), by decide +kernel⟩,
   ⟨wTwin { roleA := .active, roleB := .standby } fun p => { p with ctrlIn := [wCtrl (8 + 1 * 2 ^ 16)] }, 0, 0, 0, 1, 0,
     wCtrl (8 + 1 * 2 ^ 16), 0, 0, 0, inv_of _ (by decide +kernel), by decide +kernel⟩,
   ⟨wActive fun p => { p with ctrlIn := [wCtrl 9] }, 0, 0, .tout 0, 9, wCtrl 9, by decide +kernel⟩,
   ⟨wUp, 0, .tout 0, 9, by decide +kernel⟩,
   ⟨wTwin { roleA := .active, roleB := .standby } fun p => { p with ctrlIn := [wCtrl (9 + 1 * 2 ^ 8)] }, 0, 0, 1, 0,
     wCtrl (9 + 1 * 2 ^ 8), inv_of _ (by decide +kernel), by decide +kernel⟩,
   ⟨wTwin { roleA := .active, roleB := .standby } fun p => { p with ctrlIn := [wCtrl (9 + 7 * 2 ^ 8)] }, 0, 0, 7, 0,
     wCtrl (9 + 7 * 2 ^ 8), inv_of _ (by decide +kernel), by decide +kernel⟩,
   ⟨wTwin { roleA := .active, roleB := .standby } id, 1, 0, inv_of _ (by decide +kernel), by decide +kernel⟩,
   ⟨wTwin { roleA := .active } id, 0, true, inv_of _ (by decide +kernel), by decide +kernel⟩,
   ⟨wTwin { roleA := .active, roleB := .standby } id, 0, true, by decide +kernel⟩,
   ⟨wTwin { roleA := .active, roleB := .catchup, readyB := true } id, 0, true, by decide +kernel⟩,
   ⟨wTwin { roleA := .active, roleB := .catchup, readyB := true } id, 0, true, inv_of _ (by decide +kernel),
     by decide +kernel⟩,
   ⟨wTwin { roleA := .active, roleB := .catchup, readyB := true } id, 0, true, inv_of _ (by decide +kernel),
     by decide +kernel⟩,
   ⟨wTwin { roleA := .catchup, roleB := .catchup, readyB := true } id, 0, true, by decide +kernel⟩,
   ⟨wTwin { roleA := .active, roleB := .standby, window := some 5000 } id, 0, by decide +kernel⟩,
   ⟨wTwin { roleA := .active, roleB := .standby } id, 0, true, true, .twinJoin 0 true, by decide +kernel⟩,
   ⟨(wTwin { roleA := .active, roleB := .standby } id).modPort 1 fun p => { p with state := .param, param := { partner := some {}, commitAt := some 4990, commitRcvd := true, mask := 0xF } },
     1, 0, {}, inv_of _ (by decide +kernel), by decide +kernel⟩⟩

theorem witness_fieldRepair :
    (∃ (s : State) (st : Structure) (unit : Nat), s.Inv ∧ unitExists s st unit = true ∧
      mgetD s.repair.used (repairKey (structCode st) unit) 0 < spareRows st)
    ∧ (∃ (s : State) (st : Structure) (unit : Nat), s.Inv ∧ unitExists s st unit = true ∧
      spareRows st ≤ mgetD s.repair.used (repairKey (structCode st) unit) 0 ∧
      (st = .replay ∨ st = .hold ∨ st = .calendar ∨ st = .staging))
    ∧ (∃ (s : State) (q : PortId), s.Inv ∧ s.elab_.portBuilt q = true ∧ pairOf s q = none ∧
      spareRows .receive ≤ mgetD s.repair.used (repairKey 2 q) 0 ∧ (s.port q).state = .active ∧
      outranked s q 4 = false ∧ (s.port q).pllPark = false)
    ∧ (∃ (s : State) (unit : Nat), s.Inv ∧ unitExists s .rlc unit = true ∧
      spareRows .rlc ≤ mgetD s.repair.used (repairKey 4 unit) 0)
    ∧ (∃ (s : State) (e : FilterEntry) (h : Holder), s.Inv ∧ spareRows .filter ≤ mgetD s.repair.used (repairKey 5 0) 0 ∧
      filterWays s = 1 ∧ s.home.track = [] ∧ s.home.filter = [e] ∧ e.holders = [h])
    ∧ (∃ (s : State) (q : PortId) (i : Nat) (f : Flit), s.Inv ∧ s.elab_.portBuilt q = true ∧ pairOf s q = none ∧
      (s.port q).replay[i]? = some f)
    ∧ (∃ (s : State) (q : PortId) (k : Nat), s.elab_.portBuilt q = true ∧ pairOf s q = some k ∧
      (roleOf s k (pairA s k)).merged = true ∧ (roleOf s k (pairB s k)).merged = true)
    ∧ (∃ (s : State) (q : PortId) (l : PortId) (i : Nat) (w : Waiting), s.Inv ∧ s.elab_.portBuilt q = true ∧
      logical s q = l ∧ atPlace s (.rx q i) = some w ∧ w.txn.opc = 0x80)
    ∧ (∃ (s : State) (q : PortId) (l : PortId) (h : PortId) (i : Nat) (w : Waiting) (ports : List Nat), s.Inv ∧
      s.elab_.portBuilt q = true ∧ logical s q = l ∧ atPlace s (.rx q i) = some w ∧ isMem w.txn.opc = true ∧
      destOf s (mkCpl w.txn 0x18 0 []) = .via ports ∧ logical s (ports.headD 0) = h)
    ∧ (∃ (s : State) (q : PortId) (l : PortId) (i : Nat) (w : Waiting), s.Inv ∧ s.elab_.portBuilt q = true ∧
      logical s q = l ∧ atPlace s (.rx q i) = some w ∧ w.txn.opc = 0x44 ∧ w.txn.cdata = true ∧ destOf s w.txn ≠ .self)
    ∧ (∃ (s : State) (q : PortId) (l : PortId) (i : Nat) (w : Waiting), s.Inv ∧ s.elab_.portBuilt q = true ∧
      logical s q = l ∧ atPlace s (.rx q i) = some w ∧ isRed w.txn.opc = true)
    ∧ (∃ (s : State) (q : PortId) (l : PortId) (i : Nat) (h : Held), s.Inv ∧ s.elab_.portBuilt q = true ∧ logical s q = l ∧
      (s.port l).hold[i]? = some h ∧ h.handed = false)
    ∧ (∃ (s : State) (la : LineAddr) (ln : RlcLine) (waiting : Bool), s.elab_.rlcKib ≠ 0 ∧ rlcLine s la = some ln ∧
      outstanding s la = false ∧ (waiting = false ∨ ln.st.dirty = false))
    ∧ (∃ (s : State) (la : LineAddr) (ln : RlcLine) (k : Nat) (w : Waiting), s.elab_.rlcKib ≠ 0 ∧ rlcLine s la = some ln ∧
      outstanding s la = false ∧ ln.st.dirty = true ∧ readerOf s la = some k ∧ atPlace s (.ifi .req k) = some w)
    ∧ (∃ (s : State) (la : LineAddr), s.Inv ∧ s.home.track = [] ∧ lostTargets s (filterSet s la) ≠ [])
    ∧ (∃ (s : State) (q : PortId) (l : PortId) (slot : SlotId) (r : Nat), s.Inv ∧ s.elab_.portBuilt q = true ∧
      logical s q = l ∧ (s.port l).cal[slot.toNat]? = some r ∧
      (calKind r = 0 ∧ assignedTo s l slot s.sch.epoch = none ∨ calKind r ≠ 0 ∧ handedTo s l slot s.sch.epoch = none))
    ∧ (∃ (s : State), s.elab_.ifr ≠ 0) :=
  ⟨⟨wUp, .replay, 0, inv_of _ (by decide +kernel), by decide +kernel⟩,
   ⟨{ wUp with repair := { used := [(repairKey 7 0, 8)] } }, .staging, 0, inv_of _ (by decide +kernel),
     by decide +kernel⟩,
   ⟨{ (wPort 0 fun p => { p with state := .active }) with repair := { used := [(repairKey 2 0, 8)] } }, 0,
     inv_of _ (by decide +kernel), by decide +kernel⟩,
   ⟨{ wUp with repair := { used := [(repairKey 4 15, 4)] }, rlc := { lines := [(wLa.toNat, { wLine .s with way := 15 })] } },
     15, inv_of _ (by decide +kernel), by decide +kernel⟩,
   ⟨{ wUp with repair := { used := [(repairKey 5 0, 8)], banks := [(repairKey 5 0, 15)] }, home := { filter := [{ region := false, la := 7, owner := some ⟨0, 2⟩, owned := false, holders := [⟨0, 2⟩], used := 0 }] } },
     { region := false, la := 7, owner := some ⟨0, 2⟩, owned := false, holders := [⟨0, 2⟩], used := 0 }, ⟨0, 2⟩,
     inv_of _ (by decide +kernel), by decide +kernel⟩,
   ⟨wActive fun p => { p with replay := [wFlit 1 0] }, 0, 0, wFlit 1 0, inv_of _ (by decide +kernel), by decide +kernel⟩,
   ⟨wTwin { roleA := .active, roleB := .standby } id, 0, 0, by decide +kernel⟩,
   ⟨wWire (wTxn 0x80 (.cpl 0 0 2 0) []), 0, 0, 0, { txn := wTxn 0x80 (.cpl 0 0 2 0) [] }, inv_of _ (by decide +kernel),
     by decide +kernel⟩,
   ⟨wWire ({ wTxn 1 (.mem false false 64 0) [] with sdie := 1 }), 0, 0, 0, 0,
     { txn := { wTxn 1 (.mem false false 64 0) [] with sdie := 1 } }, [0], inv_of _ (by decide +kernel),
     by decide +kernel⟩,
   ⟨wWire ({ wTxn 0x44 (.coh 0 true false false false 0 wLa) (List.replicate 8 0) with sdie := 1 }), 0, 0, 0,
     { txn := { wTxn 0x44 (.coh 0 true false false false 0 wLa) (List.replicate 8 0) with sdie := 1 } },
     inv_of _ (by decide +kernel), by decide +kernel⟩,
   ⟨wWire (wBlk 0x60 12 1), 0, 0, 0, { txn := wBlk 0x60 12 1 }, inv_of _ (by decide +kernel), by decide +kernel⟩,
   ⟨wActive fun p => { p with hold := [{ slot := 0, epoch := 5, deadline := 5000, cells := List.replicate 15 7, rpld := false, row := 53848 }] },
     0, 0, 0, { slot := 0, epoch := 5, deadline := 5000, cells := List.replicate 15 7, rpld := false, row := 53848 },
     inv_of _ (by decide +kernel), by decide +kernel⟩,
   ⟨{ wUp with rlc := { lines := [(wLa.toNat, wLine .s)] } }, wLa, wLine .s, true, by decide +kernel⟩,
   ⟨{ wDie .req (wCa 1) with rlc := { lines := [(wLa.toNat, wLine .m)] } }, wLa, wLine .m, 0, wAsk (wCa 1),
     by decide +kernel⟩,
   ⟨wNet id, 7, inv_of _ (by decide +kernel), by decide +kernel⟩,
   ⟨wDomain fun p => { p with cal := [49752] }, 0, 0, 0, 49752, inv_of _ (by decide +kernel), by decide +kernel⟩,
   ⟨wRed (wRid id) wUp, by decide +kernel⟩⟩

theorem witness_aliasAndRecords :
    (∃ (s : State) (i : Fin 16) (v : BitVec 64), Writable s ∧ aliasBad s i v.toNat = false)
    ∧ (∃ (s : State) (i : Fin 16) (v : BitVec 64), s.Inv ∧ Writable s ∧
      ((mget s.fuses.alias_ i).isSome = true ∨ 3 < (v.extractLsb' 0 3).toNat ∨ v.extractLsb' 16 3 ≠ 4 ∨ (∃ j : Fin 16, j < i ∧ bitAt (mgetD s.fuses.alias_ j 0) 40 = true ∧ bitsOf (mgetD s.fuses.alias_ j 0) 16 3 = (v.extractLsb' 16 3).toNat ∧ bitsOf (mgetD s.fuses.alias_ j 0) 24 6 = (v.extractLsb' 24 6).toNat)))
    ∧ (∃ (s : State) (v : BitVec 8), Writable s ∧ v.toNat < 32)
    ∧ (∃ (s : State), Writable s)
    ∧ (∃ (s : State) (v : BitVec 8), s.Inv ∧ Writable s ∧ 32 ≤ v.toNat ∧ v ≠ 0xFF) :=
  ⟨⟨wUp, 15, 1 + 4 * 2 ^ 16 + 9 * 2 ^ 24 + 2 ^ 40, writable_of _ (by decide +kernel), by decide +kernel⟩,
   ⟨let s := wUp; { s with fuses := { s.fuses with alias_ := [(2, 2 ^ 18)] } }, 2, 2 ^ 18, inv_of _ (by decide +kernel),
     writable_of _ (by decide +kernel), by decide +kernel⟩,
   ⟨wUp, 31, writable_of _ (by decide +kernel), by decide +kernel⟩,
   ⟨wUp, writable_of _ (by decide +kernel)⟩,
   ⟨wUp, 40, inv_of _ (by decide +kernel), writable_of _ (by decide +kernel), by decide +kernel⟩⟩

theorem witness_firewallPorts :
    (∃ (s : State) (q : PortId) (mode : BitVec 8), s.Inv ∧ Writable s ∧ q.val < 8 ∧ s.elab_.portBuilt q = true ∧
      (s.port q).state = .off ∧ mode.toNat ≤ 2 ∧ modeBad s q mode.toNat = false)
    ∧ (∃ (s : State) (q : PortId) (mode : BitVec 8), s.Inv ∧ Writable s ∧
      (8 ≤ q.val ∨ s.elab_.portBuilt q = false ∨ (s.port q).state ≠ .off ∨ 2 < mode.toNat ∨ modeBad s q mode.toNat = true))
    ∧ (∃ (s : State) (level : BitVec 8), s.Inv ∧ Writable s ∧ 0x40 ≤ level.toNat ∧ level.toNat ≤ 0x42)
    ∧ (∃ (s : State) (level : BitVec 8), s.Inv ∧ Writable s ∧ (level.toNat < 0x40 ∨ 0x42 < level.toNat))
    ∧ (∃ (s : State) (q : PortId) (l : PortId) (k : Nat) (i : Nat) (left : Nat) (r : Nat) (w : Waiting) (ports : List Nat) (c : Instr) (opc : Nat),
      s.Inv ∧ (c, opc) ∈ memCmds (.rx q k) ∧ logical s q = l ∧ atPlace s (.rx q k) = some w ∧ w.txn.opc.toNat = opc ∧
      w.step = 0 ∧ inTurn s (.rx q k) w = true ∧ isFwPort s q = true ∧ behindBucket s q k w.vc = false ∧
      fwRule s q w.txn = some (i, r) ∧ fwCheck s q w.txn = .pass i left ∧ bitAt r 3 = false ∧
      destOf s w.txn = .via ports)
    ∧ (∃ (s : State) (q : PortId) (l : PortId) (k : Nat) (i : Nat) (j : Nat) (w : Waiting) (r : Nat) (c : Instr) (opc : Nat),
      s.Inv ∧ (c, opc) ∈ memCmds (.rx q k) ∧ logical s q = l ∧ atPlace s (.rx q k) = some w ∧ w.txn.opc.toNat = opc ∧
      w.step = 0 ∧ inTurn s (.rx q k) w = true ∧ isFwPort s q = true ∧ behindBucket s q k w.vc = false ∧
      fwRule s q w.txn = some (i, r) ∧ fwCheck s q w.txn = .wait j)
    ∧ (∃ (s : State) (q : PortId) (l : PortId) (k : Nat) (w : Waiting) (st : BitVec 8) (c : Instr) (opc : Nat) (ports : List Nat),
      s.Inv ∧ (c, opc) ∈ memCmds (.rx q k) ∧ atPlace s (.rx q k) = some w ∧ w.txn.opc.toNat = opc ∧ w.step = 0 ∧
      inTurn s (.rx q k) w = true ∧ isFwPort s q = true ∧ behindBucket s q k w.vc = false ∧
      fwCheck s q w.txn = .deny st ∧ destOf s (mkCpl w.txn st 0 []) = .via ports ∧ logical s (ports.headD 0) = l)
    ∧ (∃ (s : State) (q : PortId) (k : Nat) (w : Waiting) (c : Instr) (opc : Nat), (c, opc) ∈ memCmds (.rx q k) ∧
      atPlace s (.rx q k) = some w ∧ w.txn.opc.toNat = opc ∧ w.step = 0 ∧ isFwPort s q = true ∧
      behindBucket s q k w.vc = true)
    ∧ (∃ (s : State) (q : PortId) (l : PortId) (k : Nat) (i : Nat) (left : Nat) (w : Waiting), s.Inv ∧
      s.elab_.portBuilt q = true ∧ logical s q = l ∧ atPlace s (.rx q k) = some w ∧ w.step = 10 ∧
      behindBucket s q k w.vc = false ∧ fwCheck s q w.txn = .pass i left)
    ∧ (∃ (s : State) (q : PortId) (l : PortId) (k : Nat) (w : Waiting) (st : BitVec 8) (ports : List Nat), s.Inv ∧
      s.elab_.portBuilt q = true ∧ atPlace s (.rx q k) = some w ∧ w.step = 10 ∧ behindBucket s q k w.vc = false ∧
      fwCheck s q w.txn = .deny st ∧ isPosted w.txn.opc = false ∧ destOf s (mkCpl w.txn st 0 []) = .via ports ∧
      logical s (ports.headD 0) = l)
    ∧ (∃ (s : State) (q : PortId) (k : Nat), s.elab_.portBuilt q = true ∧
      (∀ w ∈ atPlace s (.rx q k), w.step ≠ 10 ∨ behindBucket s q k w.vc = true ∨ ∃ i, fwCheck s q w.txn = .wait i))
    ∧ (∃ (s : State) (q : PortId) (c : Instr), s.Inv ∧ (c = .ucieSidebandLoss q ∨ c = .ucieLinkerror q) ∧
      s.elab_.portBuilt q = true ∧ ucieMode s q = true ∧ (s.port q).state = .active ∧ pairOf s q = none)
    ∧ (∃ (s : State) (q : PortId) (c : Instr), (c = .ucieSidebandLoss q ∨ c = .ucieLinkerror q) ∧
      s.elab_.portBuilt q = true ∧ ucieMode s q = false) :=
  ⟨⟨{ wUp with strapRole := 3 }, 0, 2, inv_of _ (by decide +kernel), writable_of _ (by decide +kernel),
     by decide +kernel⟩,
   ⟨wUp, 8, 0, inv_of _ (by decide +kernel), writable_of _ (by decide +kernel), by decide +kernel⟩,
   ⟨wUp, 0x40, inv_of _ (by decide +kernel), writable_of _ (by decide +kernel), by decide +kernel⟩,
   ⟨wUp, 0x3F, inv_of _ (by decide +kernel), writable_of _ (by decide +kernel), by decide +kernel⟩,
   ⟨wFwT (wTxn 1 (.mem false false 8 (BitVec.ofNat 58 (2 ^ 38))) []) 0 wRule, 0, 0, 0, 0, 64 * 1024 - 1024, wRule,
     { txn := wTxn 1 (.mem false false 8 (BitVec.ofNat 58 (2 ^ 38))) [] }, [0], .rd (.rx 0 0), 1,
     inv_of _ (by decide +kernel), by decide +kernel⟩,
   ⟨let s := wFw 0 wRule; { s with fw := { s.fw with bucket := [(0, 0)] } }, 0, 0, 0, 0, 0,
     { txn := wTxn 1 (.mem false false 8 0) [] }, wRule, .rd (.rx 0 0), 1, inv_of _ (by decide +kernel),
     by decide +kernel⟩,
   ⟨wFwT ({ wTxn 1 (.mem false false 8 0) [] with sdie := 1 }) 0 0, 0, 0, 0,
     { txn := { wTxn 1 (.mem false false 8 0) [] with sdie := 1 } }, 0x16, .rd (.rx 0 0), 1, [0],
     inv_of _ (by decide +kernel), by decide +kernel⟩,
   ⟨(wFw 10 wRule).modPort 0 fun p => { p with rx := p.rx ++ [{ txn := wTxn 1 (.mem false false 8 0) [] }] }, 0, 1,
     { txn := wTxn 1 (.mem false false 8 0) [] }, .rd (.rx 0 1), 1, by decide +kernel⟩,
   ⟨wFw 10 wRule, 0, 0, 0, 0, 64 * 1024 - 1024, { txn := wTxn 1 (.mem false false 8 0) [], step := 10 },
     inv_of _ (by decide +kernel), by decide +kernel⟩,
   ⟨wFwT ({ wTxn 1 (.mem false false 8 0) [] with sdie := 1 }) 10 0, 0, 0, 0,
     { txn := { wTxn 1 (.mem false false 8 0) [] with sdie := 1 }, step := 10 }, 0x16, [0],
     inv_of _ (by decide +kernel), by decide +kernel⟩,
   ⟨wUp, 0, 0, by decide +kernel, fun w hw => nomatch (show w ∈ (none : Option Waiting) from hw)⟩,
   ⟨(wActive id).put 0xC200 0x01 0 2, 0, .ucieLinkerror 0, inv_of _ (by decide +kernel), by decide +kernel⟩,
   ⟨wActive id, 0, .ucieLinkerror 0, by decide +kernel⟩⟩

theorem witness_cfgWindow :
    (∃ (s : State), inReset s = false)
    ∧ (∃ (s : State), inReset s = true ∧ s.held.porst = false ∧ s.held.aonLost = false)
    ∧ (∃ (s : State), s.held.porst = false ∧ s.held.aonLost = false ∧ s.cfg.busy = false)
    ∧ (∃ (s : State) (word : BitVec 4), s.held.porst = false ∧ s.held.aonLost = false ∧ s.cfg.busy = false ∧ 8 ≤ word.toNat)
    ∧ (∃ (s : State) (word : BitVec 4), s.held.porst = false ∧ s.held.aonLost = false ∧
      (s.cfg.busy = true ∨ word ∈ [0, 2, 4, 5, 6, 7]))
    ∧ (∃ (s : State) (e : Entry) (w : Nat), Writable s ∧ s.cfg.busy = false ∧
      entryAt s s.cfg.index.toNat s.cfg.sub.toNat = some e ∧ e.ty.width = some w ∧ w ≤ 32 ∧ e.acc ≠ .wo ∧
      s.cfg.index.toNat < 0xF000)
    ∧ (∃ (s : State) (e : Entry) (v : List Byte), Writable s ∧ s.cfg.busy = false ∧ supReady s = true ∧
      entryAt s s.cfg.index.toNat s.cfg.sub.toNat = some e ∧ e.ty = .table ∧ e.acc ≠ .wo ∧
      s.cfg.index.toNat < 0xF000 ∧ s.cfg.segoff = 0 ∧ s.cfg.seglen = 32 ∧
      v = tableBytes s (locate s.cfg.index.toNat) s.cfg.sub.toNat ∧ 32 < v.length)
    ∧ (∃ (s : State) (e : Entry) (x : Transfer) (n : Nat), inReset s = false ∧ s.cfg.busy = false ∧ supReady s = true ∧
      entryAt s s.cfg.index.toNat s.cfg.sub.toNat = some e ∧ e.ty = .table ∧ e.acc ≠ .wo ∧
      s.cfg.index.toNat < 0xF000 ∧ s.xfers = [(Path.cfg, x)] ∧ x.write = false ∧
      x.key = ekey s.cfg.index.toNat s.cfg.sub.toNat ∧ n = s.cfg.segoff.toNat ∧ 0 < n ∧ s.cfg.seglen = 32 ∧
      32 * n < x.bytes.length)
    ∧ (∃ (s : State) (e : Entry) (b : List Byte), Writable s ∧ s.cfg.busy = false ∧ supReady s = true ∧
      entryAt s s.cfg.index.toNat s.cfg.sub.toNat = some e ∧ e.ty = .table ∧
      writeRefused s (some .cfg) s.cfg.index.toNat s.cfg.sub.toNat = none ∧ s.cfg.segoff = 0 ∧ s.cfg.seglen = 32 ∧
      b = cfgBytes s.cfg ∧ b.length = 32 ∧ 32 < writeSize s e s.cfg.index.toNat s.cfg.sub.toNat b)
    ∧ (∃ (s : State) (x : Transfer), s.Inv ∧ inReset s = false ∧ s.cfg.busy = false ∧ transferOf s .cfg = some x)
    ∧ (∃ (s : State), inReset s = false ∧ s.cfg.busy = false ∧ transferOf s .cfg = none)
    ∧ (∃ (s : State) (c : Instr), c ∈ [Instr.cfgRead, .cfgWrite, .cfgReadSeg, .cfgWriteSeg] ∧ s.Inv ∧ inReset s = false ∧
      s.cfg.busy = false ∧ entryAt s s.cfg.index.toNat s.cfg.sub.toNat = none)
    ∧ (∃ (s : State) (c : Instr), c ∈ [Instr.cfgRead, .cfgWrite, .cfgReadSeg, .cfgWriteSeg] ∧ s.Inv ∧ inReset s = true ∧
      s.held.porst = false ∧ s.held.aonLost = false)
    ∧ (∃ (s : State) (c : Instr) (op : Nat),
      (c, op) ∈ [(Instr.cfgRead, 1), (.cfgWrite, 2), (.cfgReadSeg, 3), (.cfgWriteSeg, 4)] ∧ inReset s = false ∧
      s.cfg.busy = false ∧ s.core = .running ∧ supReady s = false ∧
      needsSup s op s.cfg.index.toNat s.cfg.sub.toNat = true) :=
  ⟨⟨wUp, by decide +kernel⟩,
   ⟨{ wUp with held := { wrst := true } }, by decide +kernel⟩,
   ⟨wUp, by decide +kernel⟩,
   ⟨wUp, 15, by decide +kernel⟩,
   ⟨wUp, 4, by decide +kernel⟩,
   ⟨wCfg 0x3000 7 0 0, wScalar, 1, writable_of _ (by decide +kernel), by decide +kernel⟩,
   ⟨wCfg 0x7000 2 32 0, wTable, tableBytes (wCfg 0x7000 2 32 0) (locate 0x7000) 0x02, writable_of _ (by decide +kernel),
     by decide +kernel⟩,
   ⟨let s := wCfg 0x7000 2 32 0; { s with cfg := { s.cfg with segoff := 1 }, xfers := [(.cfg, { wOpenWrite with write := false, bytes := List.replicate 100 3 })] },
     wTable, { wOpenWrite with write := false, bytes := List.replicate 100 3 }, 1, by decide +kernel⟩,
   ⟨wCfg 0x7000 2 32 0, wTable, cfgBytes (wCfg 0x7000 2 32 0).cfg, writable_of _ (by decide +kernel), by decide +kernel⟩,
   ⟨{ wUp with xfers := [(.cfg, wOpenWrite)] }, wOpenWrite, inv_of _ (by decide +kernel), by decide +kernel⟩,
   ⟨wUp, by decide +kernel⟩,
   ⟨wCfg 0xEFFF 0xFF 0 0, .cfgRead, by decide +kernel, inv_of _ (by decide +kernel), by decide +kernel⟩,
   ⟨{ wUp with held := { wrst := true } }, .cfgWriteSeg, by decide +kernel, inv_of _ (by decide +kernel),
     by decide +kernel⟩,
   ⟨{ wCfg 0x7000 2 32 0 with sup := { state := 3 } }, .cfgReadSeg, 3, by decide +kernel⟩⟩

theorem witness_almanacWrites :
    (∃ (s : State) (e : Entry) (idx : BitVec 16) (sub : BitVec 8) (bytes : List Byte), s.Inv ∧ Writable s ∧
      PlainWrite s none e idx.toNat sub.toNat bytes)
    ∧ (∃ (s : State) (e : Entry), s.Inv ∧ Writable s ∧ s.cfg.busy = false ∧ s.cfg.seglen.toNat ≤ 32 ∧
      PlainWrite s (some .cfg) e s.cfg.index.toNat s.cfg.sub.toNat ((cfgBytes s.cfg).take s.cfg.seglen.toNat))
    ∧ (∃ (s : State) (e : Entry) (idx : BitVec 16) (sub : BitVec 8), s.Inv ∧ Writable s ∧
      entryAt s idx.toNat sub.toNat = some e ∧ e.ty.width ≠ none ∧ e.acc = .ro)
    ∧ (∃ (s : State) (idx : BitVec 16) (sub : BitVec 8), s.Inv ∧ Writable s ∧ entryAt s idx.toNat sub.toNat = none)
    ∧ (∃ (s : State) (e : Entry) (idx : BitVec 16) (sub : BitVec 8) (bytes : List Byte) (n : Nat), s.Inv ∧ Writable s ∧
      entryAt s idx.toNat sub.toNat = some e ∧ e.ty.width = some n ∧ writeRefused s none idx.toNat sub.toNat = none ∧
      bytes ≠ [] ∧
      (bytes.length ≠ n ∨ inLegal e (ofBytes bytes) = false ∨ ownerRefuses s idx.toNat sub.toNat (ofBytes bytes) = true))
    ∧ (∃ (s : State) (e : Entry) (idx : BitVec 16) (sub : BitVec 8), Writable s ∧ entryAt s idx.toNat sub.toNat = some e ∧
      e.ty.width ≠ none ∧ writeRefused s none idx.toNat sub.toNat = none)
    ∧ (∃ (s : State), s.Inv ∧ inReset s = true ∧ aonStopped s = false)
    ∧ (∃ (s : State) (idx : BitVec 16) (sub : BitVec 8), inReset s = false ∧ needsSup s 2 idx.toNat sub.toNat = true ∧
      supReady s = false) :=
  ⟨⟨wUp, wScalar, 0x3000, 7, [40], inv_of _ (by decide +kernel), writable_of _ (by decide +kernel),
     plainWrite_of (by decide +kernel)⟩,
   ⟨wCfg 0x3000 7 1 20, wScalar, inv_of _ (by decide +kernel), writable_of _ (by decide +kernel), by decide +kernel,
     by decide +kernel, plainWrite_of (by decide +kernel)⟩,
   ⟨wUp, ⟨0x5001, 0x04, 0x04, .port, .u64, .ro, .d, 0, []⟩, 0x5001, 4, inv_of _ (by decide +kernel),
     writable_of _ (by decide +kernel), by decide +kernel⟩,
   ⟨wUp, 0xEFFF, 0xFF, inv_of _ (by decide +kernel), writable_of _ (by decide +kernel), by decide +kernel⟩,
   ⟨wUp, wScalar, 0x3000, 7, [200], 1, inv_of _ (by decide +kernel), writable_of _ (by decide +kernel),
     by decide +kernel⟩,
   ⟨wUp, wScalar, 0x3000, 7, writable_of _ (by decide +kernel), by decide +kernel⟩,
   ⟨{ wUp with held := { wrst := true } }, inv_of _ (by decide +kernel), by decide +kernel⟩,
   ⟨{ wUp with sup := {} }, 0x7000, 2, by decide +kernel⟩⟩

theorem witness_ringFrames :
    (∃ (s : State) (frame : List Byte), ringOn s = true ∧ frameGood frame = true ∧ frameTtl frame ≠ 0 ∧
      (frameForMe s (frameOf frame) = false ∨ (frameOf frame).fkind ∈ [1, 2, 3, 4, 5, 8, 9]))
    ∧ (∃ (s : State) (frame : List Byte), s.Inv ∧ ringOn s = true ∧ frameGood frame = true ∧ frameTtl frame = 0 ∧
      (frameForMe s (frameOf frame) = false ∨ (frameOf frame).fkind ∈ [1, 2, 3, 4, 5, 8, 9]))
    ∧ (∃ (s : State) (frame : List Byte), s.Inv ∧ ringOn s = true ∧ frameGood frame = false ∧ frameTtl frame ≠ 0)
    ∧ (∃ (s : State) (frame : List Byte), s.Inv ∧ ringOn s = true ∧ frameGood frame = false ∧ frameTtl frame = 0)
    ∧ (∃ (s : State) (frame : List Byte), s.Inv ∧ ringOn s = true ∧ frameGood frame = true ∧ frameTtl frame ≠ 0 ∧
      frameForMe s (frameOf frame) = true ∧ (frameOf frame).fkind ∈ [0, 6, 7, 10, 11, 12, 13, 14, 15])
    ∧ (∃ (s : State), ringOn s = false)
    ∧ (∃ (s : State), s.held.porst = false ∧ s.held.aonLost = false)
    ∧ (∃ (s : State), (s.held.porst = true ∨ s.held.aonLost = true))
    ∧ (∃ (s : State), s.ring.noticeOwed = true ∧ ringOn s = true ∧
      (s.ring.noticeAt = none ∨ ∃ c, s.ring.noticeAt = some c ∧ c + 1000000 ≤ s.now))
    ∧ (∃ (s : State),
      (s.ring.noticeOwed = false ∨ ringOn s = false ∨ (∃ c, s.ring.noticeAt = some c ∧ s.now < c + 1000000))) :=
  ⟨⟨{ wRing with strapPos := 1 }, wFrame 1 0 0x3000 7 [], by decide +kernel⟩,
   ⟨{ wRing with strapPos := 1 },
     mkFrame { fkind := 1, txid := 1, dst := 0, src := 3, len := 0, index := 0, sub := 0, segoff := 0 } 0 [],
     inv_of _ (by decide +kernel), by decide +kernel⟩,
   ⟨wRing, wFrame 1 0 0x3000 7 [1], inv_of _ (by decide +kernel), by decide +kernel⟩,
   ⟨wRing,
     mkFrame { fkind := 1, txid := 1, dst := 0, src := 3, len := 0, index := 0, sub := 0, segoff := 0 } 0 [] ++ [1],
     inv_of _ (by decide +kernel), by decide +kernel⟩,
   ⟨wRing, wFrame 10 0 0x3000 7 [], inv_of _ (by decide +kernel), by decide +kernel⟩,
   ⟨{ wRing with held := { porst := true } }, by decide +kernel⟩,
   ⟨wUp, by decide +kernel⟩,
   ⟨{ wUp with held := { porst := true } }, by decide +kernel⟩,
   ⟨{ wRing with ring := { joined := true, noticeOwed := true } }, by decide +kernel, by decide +kernel, Or.inl rfl⟩,
   ⟨wRing, Or.inl rfl⟩⟩

theorem witness_ringRequests :
    (∃ (s : State) (frame : List Byte) (f : Frame) (e : Entry) (w : Nat) (resp : List Byte), s.Inv ∧ Writable s ∧
      FreshRequest s frame 1 ∧ f = frameOf frame ∧ entryAt s f.index f.sub = some e ∧ e.ty.width = some w ∧
      e.acc ≠ .wo ∧ f.index < 0xF000 ∧
      resp = respFrame s f { status := 0, size := some w, bytes := toBytes w (scalarValue s e f.index f.sub) })
    ∧ (∃ (s : State) (frame : List Byte) (f : Frame) (e : Entry), s.Inv ∧ Writable s ∧ FreshRequest s frame 2 ∧
      f = frameOf frame ∧ f.len ≤ 32 ∧ PlainWrite s (some .ring) e f.index f.sub ((framePayload frame).take f.len))
    ∧ (∃ (s : State) (frame : List Byte) (f : Frame) (e : Entry) (v : List Byte), s.Inv ∧ Writable s ∧
      FreshRequest s frame 3 ∧ supReady s = true ∧ f = frameOf frame ∧ entryAt s f.index f.sub = some e ∧
      e.ty = .table ∧ e.acc ≠ .wo ∧ f.index < 0xF000 ∧ f.segoff = 0 ∧ f.len = 32 ∧
      v = tableBytes s (locate f.index) f.sub ∧ 32 < v.length)
    ∧ (∃ (s : State) (frame : List Byte) (f : Frame) (e : Entry), s.Inv ∧ Writable s ∧ FreshRequest s frame 4 ∧
      supReady s = true ∧ f = frameOf frame ∧ entryAt s f.index f.sub = some e ∧ e.ty = .table ∧
      writeRefused s (some .ring) f.index f.sub = none ∧ f.segoff = 0 ∧ f.len = 32 ∧
      32 < writeSize s e f.index f.sub (framePayload frame))
    ∧ (∃ (s : State) (frame : List Byte) (x : Transfer), s.Inv ∧ FreshRequest s frame 5 ∧ transferOf s .ring = some x)
    ∧ (∃ (s : State) (frame : List Byte) (c : Instr) (k : RingKept),
      (c, (frameOf frame).fkind) ∈ [(Instr.ringRead frame, 1), (.ringWrite frame, 2), (.ringReadSeg frame, 3), (.ringWriteSeg frame, 4), (.ringAbort frame, 5)] ∧
      ringOn s = true ∧ s.held.refLost = false ∧ frameGood frame = true ∧ frameForMe s (frameOf frame) = true ∧
      (3 ≤ (frameOf frame).fkind → (frameOf frame).dst ≠ 0x1FF) ∧
      s.ring.kept.find? (fun k => k.src == (frameOf frame).src && k.request == requestKey frame && decide (s.now < k.at_ + 1000000)) = some k ∧
      k.response ≠ [] ∧ s.ring.waiting.length < 4)
    ∧ (∃ (s : State) (frame : List Byte) (c : Instr) (k : RingKept),
      (c, (frameOf frame).fkind) ∈ [(Instr.ringRead frame, 1), (.ringWrite frame, 2), (.ringReadSeg frame, 3), (.ringWriteSeg frame, 4), (.ringAbort frame, 5)] ∧
      ringOn s = true ∧ s.held.refLost = false ∧ frameGood frame = true ∧ frameForMe s (frameOf frame) = true ∧
      (3 ≤ (frameOf frame).fkind → (frameOf frame).dst ≠ 0x1FF) ∧
      s.ring.kept.find? (fun k => k.src == (frameOf frame).src && k.request == requestKey frame && decide (s.now < k.at_ + 1000000)) = some k)
    ∧ (∃ (s : State) (frame : List Byte) (c : Instr) (n : Nat),
      (c, n) ∈ [(Instr.ringRead frame, 1), (.ringWrite frame, 2), (.ringReadSeg frame, 3), (.ringWriteSeg frame, 4), (.ringAbort frame, 5)] ∧
      (ringOn s = false ∨ s.held.refLost = true ∨ frameGood frame = false ∨ (frameOf frame).fkind ≠ n ∨ frameForMe s (frameOf frame) = false))
    ∧ (∃ (s : State) (frame : List Byte) (c : Instr), s.Inv ∧
      (c, (frameOf frame).fkind) ∈ [(Instr.ringReadSeg frame, 3), (.ringWriteSeg frame, 4), (.ringAbort frame, 5)] ∧
      ringOn s = true ∧ s.held.refLost = false ∧ frameGood frame = true ∧ (frameOf frame).dst = 0x1FF)
    ∧ (∃ (s : State) (frame : List Byte) (c : Instr) (n : Nat),
      (c, n) ∈ [(Instr.ringRead frame, 1), (.ringWrite frame, 2), (.ringReadSeg frame, 3), (.ringWriteSeg frame, 4)] ∧
      FreshRequest s frame n ∧ needsSup s n (frameOf frame).index (frameOf frame).sub = true ∧ supReady s = false)
    ∧ (∃ (s : State) (frame : List Byte) (c : Instr) (n : Nat), s.Inv ∧
      (c, n) ∈ [(Instr.ringRead frame, 1), (.ringWrite frame, 2), (.ringReadSeg frame, 3), (.ringWriteSeg frame, 4), (.ringAbort frame, 5)] ∧
      ringOn s = true ∧ inReset s = true ∧ s.held.refLost = false ∧ frameGood frame = true ∧
      (frameOf frame).fkind = n ∧ frameForMe s (frameOf frame) = true ∧ (3 ≤ n → (frameOf frame).dst ≠ 0x1FF) ∧
      s.ring.kept.find? (fun k => k.src == (frameOf frame).src && k.request == requestKey frame && decide (s.now < k.at_ + 1000000)) = none ∧
      s.ring.waiting.length < 4) :=
  ⟨⟨wRing, wFrame 1 0 0x3000 7 [], frameOf (wFrame 1 0 0x3000 7 []), wScalar, 1,
     respFrame wRing (frameOf (wFrame 1 0 0x3000 7 [])) { status := 0, size := some 1, bytes := toBytes 1 (scalarValue wRing wScalar 0x3000 7) },
     inv_of _ (by decide +kernel), writable_of _ (by decide +kernel), freshRequest_of (by decide +kernel),
     by decide +kernel⟩,
   ⟨wRing, wFrame 2 1 0x3000 7 [40], frameOf (wFrame 2 1 0x3000 7 [40]), wScalar, inv_of _ (by decide +kernel),
     writable_of _ (by decide +kernel), freshRequest_of (by decide +kernel), by decide +kernel, by decide +kernel,
     plainWrite_of (by decide +kernel)⟩,
   ⟨wRing, wFrame 3 32 0x7000 2 [], frameOf (wFrame 3 32 0x7000 2 []), wTable, tableBytes wRing (locate 0x7000) 2,
     inv_of _ (by decide +kernel), writable_of _ (by decide +kernel), freshRequest_of (by decide +kernel),
     by decide +kernel⟩,
   ⟨wRing, wFrame 4 32 0x7000 2 (List.replicate 32 1), frameOf (wFrame 4 32 0x7000 2 (List.replicate 32 1)), wTable,
     inv_of _ (by decide +kernel), writable_of _ (by decide +kernel), freshRequest_of (by decide +kernel),
     by decide +kernel⟩,
   ⟨{ wRing with xfers := [(.ring, wOpenWrite)] }, wFrame 5 0 0 0 [], wOpenWrite, inv_of _ (by decide +kernel),
     freshRequest_of (by decide +kernel), by decide +kernel⟩,
   ⟨{ wRing with ring := { joined := true, kept := [{ src := 3, request := requestKey (wFrame 5 0 0 0 []), response := [7], at_ := 4999 }] } },
     wFrame 5 0 0 0 [], .ringAbort (wFrame 5 0 0 0 []),
     { src := 3, request := requestKey (wFrame 5 0 0 0 []), response := [7], at_ := 4999 }, by decide +kernel⟩,
   ⟨{ wRing with ring := { joined := true, kept := [{ src := 3, request := requestKey (wFrame 5 0 0 0 []), response := [7], at_ := 4999 }] } },
     wFrame 5 0 0 0 [], .ringAbort (wFrame 5 0 0 0 []),
     { src := 3, request := requestKey (wFrame 5 0 0 0 []), response := [7], at_ := 4999 }, by decide +kernel⟩,
   ⟨wUp, [], .ringRead [], 1, by decide +kernel⟩,
   ⟨wRing, mkFrame { fkind := 5, txid := 1, dst := 0x1FF, src := 3, len := 0, index := 0, sub := 0, segoff := 0 } 9 [],
     .ringAbort (mkFrame { fkind := 5, txid := 1, dst := 0x1FF, src := 3, len := 0, index := 0, sub := 0, segoff := 0 } 9 []),
     inv_of _ (by decide +kernel), by decide +kernel⟩,
   ⟨{ wRing with sup := {} }, wFrame 3 32 0x7000 2 [], .ringReadSeg (wFrame 3 32 0x7000 2 []), 3, by decide +kernel,
     freshRequest_of (by decide +kernel), by decide +kernel⟩,
   ⟨{ wRing with held := { wrst := true } }, wFrame 1 0 0x3000 7 [], .ringRead (wFrame 1 0 0x3000 7 []), 1,
     inv_of _ (by decide +kernel), by decide +kernel⟩⟩

theorem witness_management :
    (∃ (s : State) (k : Nat) (w : Waiting) (e : Entry) (n : Nat) (i : Nat) (j : Nat) (a : Nat) (m : Nat), s.Inv ∧
      Writable s ∧ AtHome s (.ifi .req k) w 0x70 ∧ remoteDenied s 1 = false ∧ mgmtFields w.txn = (i, j, a, m) ∧
      entryAt s i j = some e ∧ e.ty.width = some n ∧ e.acc ≠ .wo ∧ i < 0xF000)
    ∧ (∃ (s : State) (k : Nat) (w : Waiting) (e : Entry) (i : Nat) (j : Nat) (a : Nat) (m : Nat), s.Inv ∧ Writable s ∧
      AtHome s (.ifi .req k) w 0x71 ∧ remoteDenied s 2 = false ∧ mgmtFields w.txn = (i, j, a, m) ∧ a ≤ 32 ∧
      PlainWrite s (some .mgmt) e i j ((cellsToBytes a w.txn.data).take a))
    ∧ (∃ (s : State) (k : Nat) (w : Waiting) (e : Entry) (v : List Byte) (i : Nat) (j : Nat), s.Inv ∧ Writable s ∧
      AtHome s (.ifi .req k) w 0x72 ∧ remoteDenied s 3 = false ∧ supReady s = true ∧
      mgmtFields w.txn = (i, j, 32, 0) ∧ entryAt s i j = some e ∧ e.ty = .table ∧ e.acc ≠ .wo ∧ i < 0xF000 ∧
      v = tableBytes s (locate i) j ∧ 32 < v.length)
    ∧ (∃ (s : State) (k : Nat) (w : Waiting) (e : Entry) (b : List Byte) (i : Nat) (j : Nat), s.Inv ∧ Writable s ∧
      AtHome s (.ifi .req k) w 0x73 ∧ remoteDenied s 4 = false ∧ supReady s = true ∧
      mgmtFields w.txn = (i, j, 32, 0) ∧ entryAt s i j = some e ∧ e.ty = .table ∧
      writeRefused s (some .mgmt) i j = none ∧ b = cellsToBytes 32 w.txn.data ∧ b.length = 32 ∧
      32 < writeSize s e i j b)
    ∧ (∃ (s : State) (k : Nat) (w : Waiting) (x : Transfer), s.Inv ∧ AtHome s (.ifi .req k) w 0x74 ∧
      remoteDenied s 5 = false ∧ transferOf s .mgmt = some x)
    ∧ (∃ (s : State) (k : Nat) (w : Waiting) (c : Instr) (op : Nat), s.Inv ∧
      (c, op) ∈ [(Instr.mrd (.ifi .req k), 1), (.mwr (.ifi .req k), 2), (.mrds (.ifi .req k), 3), (.mwrs (.ifi .req k), 4), (.mabt (.ifi .req k), 5)] ∧
      AtHome s (.ifi .req k) w (op + 0x6F) ∧ remoteDenied s op = true ∧ supReady s = true)
    ∧ (∃ (s : State) (k : Nat) (w : Waiting) (c : Instr) (op : Nat) (i : Nat) (j : Nat) (a : Nat) (m : Nat),
      (c, op) ∈ [(Instr.mrd (.ifi .req k), 1), (.mwr (.ifi .req k), 2), (.mrds (.ifi .req k), 3), (.mwrs (.ifi .req k), 4)] ∧
      AtHome s (.ifi .req k) w (op + 0x6F) ∧ mgmtFields w.txn = (i, j, a, m) ∧ needsSup s op i j = true ∧
      supReady s = false)
    ∧ (∃ (s : State) (k : Nat) (w : Waiting) (c : Instr) (op : Nat) (ports : List Nat),
      (c, op) ∈ [(Instr.mrd (.ifi .req k), 1), (.mwr (.ifi .req k), 2), (.mrds (.ifi .req k), 3), (.mwrs (.ifi .req k), 4), (.mabt (.ifi .req k), 5)] ∧
      Waits s (.ifi .req k) w (op + 0x6F) ∧ quiesced s w.txn.ten = false ∧ heldBack s w = false ∧
      destOf s w.txn = .via ports)
    ∧ (∃ (s : State) (k : Nat) (w : Waiting) (c : Instr) (op : Nat) (st : BitVec 8),
      (c, op) ∈ [(Instr.mrd (.ifi .req k), 1), (.mwr (.ifi .req k), 2), (.mrds (.ifi .req k), 3), (.mwrs (.ifi .req k), 4), (.mabt (.ifi .req k), 5)] ∧
      Waits s (.ifi .req k) w (op + 0x6F) ∧
      (quiesced s w.txn.ten = true ∧ st = 4 ∨ quiesced s w.txn.ten = false ∧ heldBack s w = false ∧ destOf s w.txn = .bad st))
    ∧ (∃ (s : State) (q : PortId) (k : Nat) (w : Waiting) (c : Instr) (op : Nat) (ports : List Nat),
      (c, op) ∈ [(Instr.mrd (.rx q k), 1), (.mwr (.rx q k), 2), (.mrds (.rx q k), 3), (.mwrs (.rx q k), 4), (.mabt (.rx q k), 5)] ∧
      Waits s (.rx q k) w (op + 0x6F) ∧ destOf s w.txn = .via ports)
    ∧ (∃ (s : State) (q : PortId) (l : PortId) (k : Nat) (w : Waiting) (c : Instr) (op : Nat) (ports : List Nat) (x : Txn),
      s.Inv ∧
      (c, op) ∈ [(Instr.mrd (.rx q k), 1), (.mwr (.rx q k), 2), (.mrds (.rx q k), 3), (.mwrs (.rx q k), 4), (.mabt (.rx q k), 5)] ∧
      Waits s (.rx q k) w (op + 0x6F) ∧ destOf s w.txn = .self ∧ remoteDenied s op = true ∧ supReady s = true ∧
      x = mkCpl w.txn 0 0 (statusCell s.now { status := 9 }) ∧ destOf s x = .via ports ∧
      logical s (ports.headD 0) = l) :=
  ⟨⟨wDie .req (wMgmt 0x70 0x3000 7 0 []), 0, wAsk (wMgmt 0x70 0x3000 7 0 []), wScalar, 1, 0x3000, 7, 0, 0,
     inv_of _ (by decide +kernel), writable_of _ (by decide +kernel), atHome_of (by decide +kernel),
     by decide +kernel⟩,
   ⟨(wDie .req (wMgmt 0x71 0x3000 7 1 [40])).put 0x1000 0x04 0 1, 0, wAsk (wMgmt 0x71 0x3000 7 1 [40]), wScalar, 0x3000,
     7, 1, 0, inv_of _ (by decide +kernel), writable_of _ (by decide +kernel), atHome_of (by decide +kernel),
     by decide +kernel, by decide +kernel, by decide +kernel, plainWrite_of (by decide +kernel)⟩,
   ⟨wDie .req (wMgmt 0x72 0x7000 2 32 []), 0, wAsk (wMgmt 0x72 0x7000 2 32 []), wTable,
     tableBytes (wDie .req (wMgmt 0x72 0x7000 2 32 [])) (locate 0x7000) 2, 0x7000, 2, inv_of _ (by decide +kernel),
     writable_of _ (by decide +kernel), atHome_of (by decide +kernel), by decide +kernel⟩,
   ⟨(wDie .req (wMgmt 0x73 0x7000 2 32 [1, 2])).put 0x1000 0x04 0 1, 0, wAsk (wMgmt 0x73 0x7000 2 32 [1, 2]), wTable,
     cellsToBytes 32 [1, 2], 0x7000, 2, inv_of _ (by decide +kernel), writable_of _ (by decide +kernel),
     atHome_of (by decide +kernel), by decide +kernel⟩,
   ⟨{ (wDie .req (wMgmt 0x74 0 0 0 [])).put 0x1000 0x04 0 1 with xfers := [(.mgmt, wOpenWrite)] }, 0,
     wAsk (wMgmt 0x74 0 0 0 []), wOpenWrite, inv_of _ (by decide +kernel), atHome_of (by decide +kernel),
     by decide +kernel⟩,
   ⟨wDie .req (wMgmt 0x74 0 0 0 []), 0, wAsk (wMgmt 0x74 0 0 0 []), .mabt (.ifi .req 0), 5,
     inv_of _ (by decide +kernel), by decide +kernel, atHome_of (by decide +kernel), by decide +kernel⟩,
   ⟨{ wDie .req (wMgmt 0x72 0x7000 2 32 []) with sup := {} }, 0, wAsk (wMgmt 0x72 0x7000 2 32 []), .mrds (.ifi .req 0),
     3, 0x7000, 2, 32, 0, by decide +kernel, atHome_of (by decide +kernel), by decide +kernel⟩,
   ⟨wDie .req (wTxn 0x70 (.mgmt false 0 1 0x3000 7 0 0) []), 0, wAsk (wTxn 0x70 (.mgmt false 0 1 0x3000 7 0 0) []),
     .mrd (.ifi .req 0), 1, [0], by decide +kernel, waits_of (by decide +kernel), by decide +kernel⟩,
   ⟨{ wDie .req (wTxn 0x70 (.mgmt false 0 1 0x3000 7 0 0) []) with ten := { st := [(3, 2)] } }, 0,
     wAsk (wTxn 0x70 (.mgmt false 0 1 0x3000 7 0 0) []), .mrd (.ifi .req 0), 1, 4, by decide +kernel,
     waits_of (by decide +kernel), by decide +kernel⟩,
   ⟨wWire (wTxn 0x70 (.mgmt false 0 1 0x3000 7 0 0) []), 0, 0, { txn := wTxn 0x70 (.mgmt false 0 1 0x3000 7 0 0) [] },
     .mrd (.rx 0 0), 1, [0], by decide +kernel, waits_of (by decide +kernel), by decide +kernel⟩,
   ⟨wWire ({ wMgmt 0x71 0x3000 7 1 [40] with sdie := 1 }), 0, 0, 0,
     { txn := { wMgmt 0x71 0x3000 7 1 [40] with sdie := 1 } }, .mwr (.rx 0 0), 2, [0],
     mkCpl ({ wMgmt 0x71 0x3000 7 1 [40] with sdie := 1 }) 0 0 (statusCell 5000 { status := 9 }),
     inv_of _ (by decide +kernel), by decide +kernel, waits_of (by decide +kernel), by decide +kernel,
     by decide +kernel, by decide +kernel, rfl, by decide +kernel⟩⟩

theorem witness_supervisorControl :
    (∃ (s : State), s.Inv ∧ Writable s)
    ∧ (∃ (s : State), s.Inv ∧ supReady s = true)
    ∧ (∃ (s : State), supReady s = false)
    ∧ (∃ (s : State), s.Inv ∧ s.core = .running ∧ inReset s = false ∧ supRuns s = false ∧ s.sup.bank = none ∧
      s.cfg.busy = false ∧ s.ring.later = [])
    ∧ (∃ (s : State) (rev : Nat) (image : List Byte), s.Inv ∧ s.core = .running ∧ inReset s = false ∧ supRuns s = false ∧
      s.sup.bank = some (rev, image) ∧ s.cfg.busy = false ∧ s.ring.later = [])
    ∧ (∃ (s : State) (q : PortId), s.Inv ∧ s.core = .running ∧ inReset s = false ∧ supRuns s = false ∧ s.cfg.busy = false ∧
      s.ring.later = [] ∧ (s.port q).state ∈ [.train, .align, .param])
    ∧ (∃ (s : State) (u : State), s.Inv ∧ s.core = .running ∧ inReset s = false ∧ supRuns s = false ∧ s.sup.bank = none ∧
      s.cfg.busy = true ∧ s.ring.later = [] ∧ (∀ p ∈ s.ports, p.state = .active) ∧
      u = { s with sup := { s.sup with state := 1, rev := 0, boot := false } })
    ∧ (∃ (s : State), (supRuns s = true ∨ inReset s = true ∨ s.core ≠ .running)) :=
  ⟨⟨wUp, inv_of _ (by decide +kernel), writable_of _ (by decide +kernel)⟩,
   ⟨wUp, inv_of _ (by decide +kernel), by decide +kernel⟩,
   ⟨{ wUp with sup := { state := 3 } }, by decide +kernel⟩,
   ⟨{ wUp with sup := { state := 3 } }, inv_of _ (by decide +kernel), by decide +kernel⟩,
   ⟨{ wUp with sup := { state := 3, bank := some (9, []) } }, 9, [], inv_of _ (by decide +kernel), by decide +kernel⟩,
   ⟨{ (wTrain 0 .align .a1 false) with sup := { state := 3 } }, 0, inv_of _ (by decide +kernel), by decide +kernel⟩,
   ⟨{ wUp with ports := List.replicate 10 { state := .active }, cfg := { busy := true, op := 1, index := 0x3000, sub := 7 }, sup := { state := 3 } },
     { wUp with ports := List.replicate 10 { state := .active }, cfg := { busy := true, op := 1, index := 0x3000, sub := 7 }, sup := { state := 1, rev := 0, boot := false } },
     inv_of _ (by decide +kernel), by decide +kernel⟩,
   ⟨wUp, by decide +kernel⟩⟩

theorem witness_interruptClear : ∃ (s : State), s.Inv ∧ Writable s :=
  ⟨wUp.irq 8, inv_of _ (by decide +kernel), writable_of _ (by decide +kernel)⟩

theorem witness_testAccess :
    (∃ (s : State) (c : Instr), s.Inv ∧
      (c = .idcode ∨ c = .teststat ∨ c = .testLogicReset ∨ (∃ b, c = .bypass b) ∨ (∃ v, c = .stackcfg v) ∨ (∃ v, c = .mbist v ∧ s.core ≠ .stopped) ∨ (∃ d e, c = .samplePreload d e)) ∧
      (∀ p ∈ s.ports, p.testHeld = false))
    ∧ (∃ (s : State) (c : Instr), s.Inv ∧
      (c = .idcode ∨ c = .teststat ∨ c = .testLogicReset ∨ (∃ b, c = .bypass b) ∨ (∃ v, c = .stackcfg v) ∨ (∃ v, c = .mbist v) ∨ (∃ d e, c = .samplePreload d e)))
    ∧ (∃ (s : State), s.held.porst = false ∧ s.held.drst = true)
    ∧ (∃ (s : State), (s.held.porst = true ∨ s.held.drst = false))
    ∧ (∃ (s : State) (failing : List (BitVec 8)) (bad : List (BitVec 8)), bitAt s.tap.stat 2 = true ∧
      bad = failing.filter (fun c => c != 0 && decide (c.toNat < 8) && s.tap.mbist.getLsbD c.toNat))
    ∧ (∃ (s : State), bitAt s.tap.stat 2 = false) :=
  ⟨⟨wUp, .idcode, inv_of _ (by decide +kernel), Or.inl rfl, by decide +kernel⟩,
   ⟨wPort 0 fun p => { p with testHeld := true }, .idcode, inv_of _ (by decide +kernel), Or.inl rfl⟩,
   ⟨{ wUp with held := { drst := true } }, by decide +kernel⟩,
   ⟨wUp, by decide +kernel⟩,
   ⟨{ wUp with tap := { wUp.tap with instr := 9, mbist := 0xFE, stat := 4 } }, [7], [7], by decide +kernel⟩,
   ⟨wUp, by decide +kernel⟩⟩

theorem witness_loopbackTest :
    (∃ (s : State) (q : PortId), s.Inv ∧ q.val < 8 ∧ s.elab_.portBuilt q = true ∧ (s.port q).testHeld = false)
    ∧ (∃ (s : State) (control : BitVec 16) (q : PortId), s.Inv ∧ s.elab_.portBuilt q = true ∧ control.getLsbD q = true ∧
      (s.port q).testHeld = false)
    ∧ (∃ (s : State) (control : BitVec 16), (∀ q : PortId, control.getLsbD q = true → s.elab_.portBuilt q = false))
    ∧ (∃ (s : State), bitAt s.tap.stat 0 = true)
    ∧ (∃ (s : State), bitAt s.tap.stat 0 = false)
    ∧ (∃ (s : State) (w : WireObs) (row : List (BitVec 16)), s.Inv ∧ bitAt s.tap.stat 0 = true ∧ w.q.val ∈ ixPorts s ∧
      w.q.val < 8 ∧ w.b.val < s.elab_.units w.q ∧ w.wire < 72 ∧ w.b.val < (s.port w.q).bundles.length ∧
      row = (if ((s.port w.q).bundles.getD w.b {}).ixt.isEmpty then List.replicate 72 0 else ((s.port w.q).bundles.getD w.b {}).ixt))
    ∧ (∃ (s : State) (l : LaneObs), s.Inv ∧ bitAt s.tap.stat 0 = true ∧ l.q.val ∈ ixPorts s ∧ 8 ≤ l.q.val ∧
      l.l.val < s.elab_.units l.q ∧ l.l.val < (s.port l.q).lanes.length)
    ∧ (∃ (w : WireObs), w.inL2 = false)
    ∧ (∃ (w : WireObs), w.inL2 = true ∧ w.ownL3 = true ∧ w.inL1 = false ∧ w.ownL4 = false ∧ w.otherL3 = false ∧
      w.otherL4 = true ∧ w.parityL5 = false)
    ∧ (∃ (s : State) (q : PortId) (b : BundleId) (v : BitVec 32), Writable s ∧ q.val < 8 ∧ s.elab_.portBuilt q = true ∧
      b.val < s.elab_.units q ∧ (s.port q).state = .off ∧ fuseBad s q b v.toNat = false)
    ∧ (∃ (s : State) (q : PortId) (b : BundleId) (v : BitVec 32), s.Inv ∧ Writable s ∧ q.val < 8 ∧
      ((s.port q).state ≠ .off ∨ fuseBad s q b v.toNat = true)) :=
  ⟨⟨wActive id, 0, inv_of _ (by decide +kernel), by decide +kernel⟩,
   ⟨wActive id, 0x3FF, 9, inv_of _ (by decide +kernel), by decide +kernel⟩,
   ⟨wUp, 0, by decide +kernel⟩,
   ⟨wIx, by decide +kernel⟩,
   ⟨wUp, by decide +kernel⟩,
   ⟨wIx, wObs, List.replicate 72 0, inv_of _ (by decide +kernel), by decide +kernel⟩,
   ⟨{ wUp with tap := { wUp.tap with instr := 8, ixMask := 0x100, stat := 1 } }, { q := 8, l := 0, errors := 2000 },
     inv_of _ (by decide +kernel), by decide +kernel⟩,
   ⟨{ wObs with inL2 := false }, by decide +kernel⟩,
   ⟨wObs, by decide +kernel⟩,
   ⟨wUp.modPort 0 fun p => { p with bundles := p.bundles.map fun b => { b with t3full := [3] } }, 0, 0, 16 + 3,
     writable_of _ (by decide +kernel), by decide +kernel⟩,
   ⟨wActive id, 0, 0, 0, inv_of _ (by decide +kernel), writable_of _ (by decide +kernel), by decide +kernel⟩⟩

theorem witness_traceControl :
    (∃ (s : State), Writable s ∧ traceMode s ≠ 0)
    ∧ (∃ (s : State), Writable s ∧ traceMode s = 0)
    ∧ (∃ (s : State), Writable s)
    ∧ (∃ (s : State), Writable s ∧ (s.trace.state = 1 ∨ s.trace.state = 2 ∨ s.trace.state = 4) ∧ s.core = .running)
    ∧ (∃ (s : State), Writable s ∧ (s.trace.state = 0 ∨ s.trace.state = 3 ∨ s.core ≠ .running))
    ∧ (∃ (s : State), (s.trace.state = 1 ∨ s.trace.state = 2 ∨ s.trace.state = 4) ∧ s.core = .running)
    ∧ (∃ (s : State), (s.trace.state = 0 ∨ s.trace.state = 3 ∨ s.core ≠ .running)) :=
  ⟨⟨wUp.put 0xE400 0x01 0 1, writable_of _ (by decide +kernel), by decide +kernel⟩,
   ⟨wUp, writable_of _ (by decide +kernel), by decide +kernel⟩,
   ⟨wTrace 1 0 [] 0, writable_of _ (by decide +kernel)⟩,
   ⟨wTrace 1 0 [] 0, writable_of _ (by decide +kernel), by decide +kernel⟩,
   ⟨wUp, writable_of _ (by decide +kernel), by decide +kernel⟩,
   ⟨wTrace 1 0 [] 0, by decide +kernel⟩,
   ⟨wUp, by decide +kernel⟩⟩

theorem witness_traceDrain :
    (∃ (s : State) (r : BitVec 128) (rest : List (BitVec 128)), s.core = .running ∧ traceMode s = 1 ∧
      s.trace.queue = r :: rest ∧ s.trace.lostOwed = 0)
    ∧ (∃ (s : State) (r : BitVec 128) (rest : List (BitVec 128)), s.core = .running ∧ traceMode s = 2 ∧
      s.trace.queue = r :: rest ∧ s.trace.count < 4095 ∧ s.trace.lostOwed = 0)
    ∧ (∃ (s : State) (r : BitVec 128) (rest : List (BitVec 128)), s.core = .running ∧ traceMode s = 2 ∧
      s.trace.queue = r :: rest ∧ s.trace.count = 4095)
    ∧ (∃ (s : State) (r : BitVec 128) (rest : List (BitVec 128)), s.core = .running ∧ traceMode s = 3 ∧
      s.trace.queue = r :: rest ∧ s.trace.count < 4096 ∧ s.now < s.trace.streamAt ∧ s.trace.lostOwed = 0)
    ∧ (∃ (s : State) (r : BitVec 128) (rest : List (BitVec 128)), s.Inv ∧ s.core = .running ∧ traceMode s = 3 ∧
      s.trace.queue = r :: rest ∧ s.trace.count = 4096 ∧ s.now < s.trace.streamAt ∧ 64 ≤ rest.length)
    ∧ (∃ (s : State), s.core = .running ∧ traceMode s = 3 ∧ s.trace.queue = [] ∧ s.trace.count ≠ 0 ∧
      s.trace.streamAt ≤ s.now ∧ s.trace.lostOwed = 0)
    ∧ (∃ (s : State), s.core = .running ∧ traceMode s ≠ 3 ∧ s.trace.queue = [] ∧ s.trace.lostOwed ≠ 0 ∧ s.trace.state ≠ 4 ∧
      s.trace.post = none)
    ∧ (∃ (s : State),
      (s.core ≠ .running ∨ s.trace.queue = [] ∧ s.trace.lostOwed = 0 ∧ (traceMode s ≠ 3 ∨ s.trace.count = 0 ∨ s.now < s.trace.streamAt))) :=
  ⟨⟨wTrace 1 4096 [7] 0, 7, [], by decide +kernel⟩,
   ⟨wTrace 2 5 [7] 0, 7, [], by decide +kernel⟩,
   ⟨wTrace 2 4095 [7] 0, 7, [], by decide +kernel⟩,
   ⟨let s := wTrace 3 5 [7] 0; { s with trace := { s.trace with streamAt := 6000 } }, 7, [], by decide +kernel⟩,
   ⟨let s := wTrace 3 4096 (List.replicate 65 7) 0; { s with trace := { s.trace with streamAt := 6000 } }, 7,
     List.replicate 64 7, inv_of _ (by decide +kernel), by decide +kernel⟩,
   ⟨wTrace 3 4096 [] 0, by decide +kernel⟩,
   ⟨wTrace 1 0 [] 3, by decide +kernel⟩,
   ⟨State.reset, by decide +kernel⟩⟩

theorem witness_resetAssertion :
    (∃ (s : State) (input : ResetInput), input ≠ .porst ∧ s.cfg.busy = true)
    ∧ (∃ (s : State) (input : ResetInput) (at_ : Nat) (frame : List Byte), s.Inv ∧ input ≠ .porst ∧
      s.ring.later = [(at_, frame)] ∧ s.ring.waiting = [])
    ∧ (∃ (s : State), s.held.refLost = false)
    ∧ (∃ (s : State), s.held.refLost = true)
    ∧ (∃ (s : State), HeldOnlyBy s false false false)
    ∧ (∃ (s : State), (s.held.porst = true ∨ s.held.wrst = true ∨ s.held.drst = true)) :=
  ⟨⟨{ wUp with cfg := { busy := true, op := 3 } }, .wrst, by decide +kernel⟩,
   ⟨{ wRing with ring := { joined := true, later := [(4000, wFrame 3 32 0x7000 2 [])] } }, .wrst, 4000,
     wFrame 3 32 0x7000 2 [], inv_of _ (by decide +kernel), by decide +kernel⟩,
   ⟨wUp, by decide +kernel⟩,
   ⟨{ wUp with held := { refLost := true } }, by decide +kernel⟩,
   ⟨wUp, heldOnlyBy_of (by decide +kernel)⟩,
   ⟨{ wUp with held := { wrst := true } }, by decide +kernel⟩⟩

theorem witness_resetRelease :
    (∃ (s : State) (r : BitVec 3), s.Inv ∧ s.held.wrst = false ∧ s.held.drst = false ∧
      (s.held.porst = true → s.held.worst = 3) ∧ r.toNat < 6 ∧ aliasRows s = [])
    ∧ (∃ (s : State) (r : BitVec 3) (p : BitVec 6) (x : Nat), s.Inv ∧ s.held.wrst = false ∧ s.held.drst = false ∧
      (s.held.porst = true → s.held.worst = 3) ∧ r.toNat < 6 ∧ aliasRows s = [x] ∧ aliasFailed x = (r.toNat, p.toNat))
    ∧ (∃ (s : State) (r : BitVec 3) (p : BitVec 6) (x : Nat), s.Inv ∧ s.held.wrst = false ∧ s.held.drst = false ∧
      (s.held.porst = true → s.held.worst = 3) ∧ r.toNat < 6 ∧ aliasRows s = [x] ∧
      aliasFailed x ≠ (r.toNat, p.toNat) ∧ aliasSpare x = (r.toNat, p.toNat))
    ∧ (∃ (s : State) (r : BitVec 3), s.Inv ∧ s.held.wrst = false ∧ s.held.drst = false ∧
      (s.held.porst = true → s.held.worst = 3) ∧ 6 ≤ r.toNat)
    ∧ (∃ (s : State) (b : Bool), s.Inv ∧ HeldOnlyBy s b false false ∧ s.held.worst = (if b then 2 else 0))
    ∧ (∃ (s : State) (b : Bool), s.Inv ∧ HeldOnlyBy s false b false ∧ s.held.worst = (if b then 1 else 0))
    ∧ (∃ (s : State), HeldOnlyBy s true true false)
    ∧ (∃ (s : State), s.Inv ∧ HeldOnlyBy s false true false ∧ s.held.worst = 2)
    ∧ (∃ (s : State), s.Inv ∧ HeldOnlyBy s false false true ∧ s.held.worst = 0)
    ∧ (∃ (s : State), s.held.vddLost = false)
    ∧ (∃ (s : State) (seen : Bool), s.Inv ∧ s.held = { refLost := true, refSeen := seen })
    ∧ (∃ (s : State), s.held.refLost = false)
    ∧ (∃ (s : State), s.Inv) :=
  ⟨⟨{ wUp with held := { porst := true, worst := 3 } }, 5, inv_of _ (by decide +kernel), by decide +kernel⟩,
   ⟨{ wUp with fuses := { wUp.fuses with alias_ := [(0, 2 + 5 * 2 ^ 8 + 4 * 2 ^ 16 + 9 * 2 ^ 24 + 2 ^ 40)] }, held := { porst := true, worst := 3 } },
     2, 5, 2 + 5 * 2 ^ 8 + 4 * 2 ^ 16 + 9 * 2 ^ 24 + 2 ^ 40, inv_of _ (by decide +kernel), by decide +kernel⟩,
   ⟨{ wUp with fuses := { wUp.fuses with alias_ := [(0, 2 + 5 * 2 ^ 8 + 4 * 2 ^ 16 + 9 * 2 ^ 24 + 2 ^ 40)] }, held := { porst := true, worst := 3 } },
     4, 9, 2 + 5 * 2 ^ 8 + 4 * 2 ^ 16 + 9 * 2 ^ 24 + 2 ^ 40, inv_of _ (by decide +kernel), by decide +kernel⟩,
   ⟨wUp, 7, inv_of _ (by decide +kernel), by decide +kernel⟩,
   ⟨{ wUp with held := { wrst := true, worst := 2 } }, true, inv_of _ (by decide +kernel),
     heldOnlyBy_of (by decide +kernel), by decide +kernel⟩,
   ⟨{ wUp with held := { drst := true, worst := 1 } }, true, inv_of _ (by decide +kernel),
     heldOnlyBy_of (by decide +kernel), by decide +kernel⟩,
   ⟨{ wUp with held := { wrst := true, drst := true, worst := 2 } }, heldOnlyBy_of (by decide +kernel)⟩,
   ⟨{ wUp with held := { drst := true, worst := 2 } }, inv_of _ (by decide +kernel), heldOnlyBy_of (by decide +kernel),
     by decide +kernel⟩,
   ⟨{ wUp with held := { vddLost := true } }, inv_of _ (by decide +kernel), heldOnlyBy_of (by decide +kernel),
     by decide +kernel⟩,
   ⟨{ wUp with held := { refLost := true } }, by decide +kernel⟩,
   ⟨{ wUp with held := { refLost := true, refSeen := true } }, true, inv_of _ (by decide +kernel), by decide +kernel⟩,
   ⟨wUp, by decide +kernel⟩,
   ⟨wUp, inv_of _ (by decide +kernel)⟩⟩

theorem witness_thermal :
    (∃ (s : State) (a : BitVec 8) (a' : BitVec 8) (b : BitVec 8) (b' : BitVec 8) (l : Nat) (r : Nat), s.Inv ∧
      l = (if a = a' then a.toNat else s.get 0x2102 0x01 0) ∧ r = (if b = b' then b.toNat else s.get 0x2102 0x02 0))
    ∧ (∃ (s : State) (a : BitVec 8) (b : BitVec 8) (b' : BitVec 8), s.Inv ∧ a = 0xFF ∧ s.get 0x2102 0x01 0 ≠ 0xFF ∧
      b ≠ b' ∧ (svcSlot s.svc).isSome = true)
    ∧ (∃ (s : State) (below : Bool) (v : Nat) (old : Nat), 0 < v ∧ v < 0xFF ∧
      (∀ i, 1 ≤ i → i ≤ 4 → 0 < thermThr s below i) ∧ thermThr s below 4 ≤ v ∧ old ≤ 4)
    ∧ (∃ (s : State) (below : Bool) (v : Nat) (old : Nat), 0 < v ∧ v < 0xFF ∧ old ≤ 4 ∧
      topLevel s below (fun t => decide (t ≤ v)) < old ∧ thermThr s below old ≠ 0 ∧
      thermThr s below old ≤ v + s.get 0x6F01 0x11 3)
    ∧ (∃ (s : State), s.Inv ∧ tempoMax s < s.therm.demand ∧ s.therm.tripped = false)
    ∧ (∃ (s : State), (s.therm.demand ≤ tempoMax s ∨ s.therm.tripped = true)) :=
  ⟨⟨wUp, 160, 160, 165, 165, 160, 165, inv_of _ (by decide +kernel), by decide +kernel⟩,
   ⟨wUp, 0xFF, 1, 2, inv_of _ (by decide +kernel), by decide +kernel⟩,
   ⟨wUp, true, 180, 0, by decide +kernel⟩,
   ⟨wUp, true, 158, 1, by decide +kernel⟩,
   ⟨{ wUp with therm := { wUp.therm with demand := 200 } }, inv_of _ (by decide +kernel), by decide +kernel⟩,
   ⟨wUp, by decide +kernel⟩⟩

theorem witness_coreClock :
    (∃ (s : State), s.Inv ∧ s.core = .starting ∧ inReset s = false ∧
      (s.sup.boot = true ∨ (∀ p ∈ s.ports, p.state ≠ .off) ∧ s.cfg.busy = false ∧ s.ring.later = []))
    ∧ (∃ (s : State), s.Inv ∧ s.core = .starting ∧ inReset s = false ∧ supRuns s = true ∧ s.cfg.busy = true ∧
      s.ring.later = [] ∧ (∀ p ∈ s.ports, p.state ≠ .off))
    ∧ (∃ (s : State), s.Inv ∧ s.core = .starting ∧ inReset s = true)
    ∧ (∃ (s : State), s.core ≠ .starting)
    ∧ (∃ (s : State), s.Inv ∧ s.core = .running ∧ inReset s = false ∧ mayStop s = true)
    ∧ (∃ (s : State), (s.core ≠ .running ∨ inReset s = true ∨ mayStop s = false)) :=
  ⟨⟨State.reset, inv_of _ (by decide +kernel), by decide +kernel⟩,
   ⟨{ wUp with core := .starting, cfg := { busy := true, op := 1, index := 0x3000, sub := 7 }, ports := List.replicate 10 { state := .active } },
     inv_of _ (by decide +kernel), by decide +kernel⟩,
   ⟨{ State.reset with held := { drst := true } }, inv_of _ (by decide +kernel), by decide +kernel⟩,
   ⟨wUp, by decide +kernel⟩,
   ⟨wUp, inv_of _ (by decide +kernel), by decide +kernel⟩,
   ⟨{ wUp with egress := [(.rsp, wCpl)] }, by decide +kernel⟩⟩

theorem witness_idleStep : ∃ (s : State), s.pending = [] :=
  ⟨wUp, by decide +kernel⟩

theorem witness_stepKeepsForm : ∃ (s : State) (t : State), s.Inv ∧ step s = .next t :=
  ⟨{ wUp with pending := [.ifiEgressFill] }, wUp, inv_of _ (by decide +kernel), rfl⟩

theorem witness_commandsKeepElaboration : ∃ (c : Instr) (s : State) (t : State), exec c s = .next t :=
  ⟨.ifiEgressFill, wUp, wUp, rfl⟩

theorem witness_transactionRoundTrip : ∃ (t : Txn), t.head.kind = kindOf t.opc :=
  ⟨wTxn 1 (.mem false false 64 0) [], by decide +kernel⟩

theorem witness_identificationRegister : ∃ (s : State), s.Inv :=
  ⟨wUp, inv_of _ (by decide +kernel)⟩

theorem witness_missingEntries :
    (∃ (s : State) (idx : Nat) (sub : Nat) (e : Entry), entryAt s idx sub = some e)
    ∧ (∃ (s : State) (op : Nat) (idx : Nat) (sub : Nat), op ∈ [1, 2, 3, 4] ∧ (entryAt s idx sub = none ∨ 0xF000 ≤ idx))
    ∧ (∃ (s : State) (c : Instr), c ∈ [Instr.cfgRead, .cfgWrite, .cfgReadSeg, .cfgWriteSeg] ∧ s.Inv ∧ inReset s = false ∧
      s.cfg.busy = false ∧ entryAt s s.cfg.index.toNat s.cfg.sub.toNat = none) :=
  ⟨⟨wUp, 0x3000, 7, wScalar, by decide +kernel⟩,
   ⟨wUp, 4, 0xEFFF, 0xFF, by decide +kernel⟩,
   ⟨wCfg 0xEFFF 0xFF 1 0, .cfgWriteSeg, by decide +kernel, inv_of _ (by decide +kernel), by decide +kernel⟩⟩

theorem witness_generationChoice : ∃ (next : Nat → Nat), (∀ g, next g = if g + 1 = 16 then 1 else g + 1) :=
  ⟨fun g => if g + 1 = 16 then 1 else g + 1, fun _ => rfl⟩

end Sys2Proof.Tests
end

namespace Sys2Proof.Machine
open Sys2Proof

/-!
The choice of GEN at COMMIT (R159). The larger offer is one of the two, and neither the value after it nor the one after
that is the larger offer again; these two values differ, so the other offer shuts out at most one of them. The choice
therefore ends after one or two steps, and the third value that `newGen` names is never taken.
-/

/-- The generation that R159 counts after `g`: 15 is followed by 1. -/
def genAfter (g : Nat) : Nat := if g = 15 then 1 else g + 1

theorem genAfter_pos (g : Nat) : 0 < genAfter g := by
  unfold genAfter; split <;> omega

theorem genAfter_lt {g : Nat} (hg : g < 16) : genAfter g < 16 := by
  unfold genAfter; split <;> omega

theorem genAfter_ne_self (g : Nat) : genAfter g ≠ g := by
  unfold genAfter; split <;> omega

theorem genAfter_genAfter_ne_self (g : Nat) : genAfter (genAfter g) ≠ g := by
  unfold genAfter; split <;> split <;> omega

/-- The larger of the two offers, from which R159 counts. -/
def largerGen (ga gb : Gen) : Nat := max ga.toNat gb.toNat

theorem largerGen_comm (ga gb : Gen) : largerGen ga gb = largerGen gb ga := Nat.max_comm ..

theorem largerGen_lt (ga gb : Gen) : largerGen ga gb < 16 := max_lt ga.isLt gb.isLt

/-- `g` is neither side's generation. -/
def GenFree (ga gb : Gen) (g : Nat) : Prop := g ≠ ga.toNat ∧ g ≠ gb.toNat

theorem genFree_comm {ga gb : Gen} {g : Nat} : GenFree ga gb g ↔ GenFree gb ga g := and_comm

theorem not_genFree {ga gb : Gen} {g : Nat} : ¬ GenFree ga gb g ↔ g = ga.toNat ∨ g = gb.toNat := by
  unfold GenFree; omega

/-- The two offers cannot shut out both values after the larger one. -/
theorem genFree_second {ga gb : Gen} (h : ¬ GenFree ga gb (genAfter (largerGen ga gb))) :
    GenFree ga gb (genAfter (genAfter (largerGen ga gb))) := by
  have hfirst := genAfter_ne_self (largerGen ga gb)
  have hsecond := genAfter_genAfter_ne_self (largerGen ga gb)
  have hapart := genAfter_ne_self (genAfter (largerGen ga gb))
  have hone : largerGen ga gb = ga.toNat ∨ largerGen ga gb = gb.toNat := max_choice ..
  rw [not_genFree] at h
  unfold GenFree
  omega

theorem newGen_toNat_of_free {ga gb : Gen} (h : GenFree ga gb (genAfter (largerGen ga gb))) :
    (newGen ga gb).toNat = genAfter (largerGen ga gb) := by
  have hlt := genAfter_lt (largerGen_lt ga gb)
  unfold GenFree genAfter largerGen at *
  simp [newGen, h, Nat.mod_eq_of_lt hlt]

theorem newGen_toNat_of_not_free {ga gb : Gen} (h : ¬ GenFree ga gb (genAfter (largerGen ga gb))) :
    (newGen ga gb).toNat = genAfter (genAfter (largerGen ga gb)) := by
  have hlt := genAfter_lt (genAfter_lt (largerGen_lt ga gb))
  have hfree := genFree_second h
  unfold GenFree genAfter largerGen at *
  simp [newGen, h, hfree, Nat.mod_eq_of_lt hlt]

theorem newGen_comm (ga gb : Gen) : newGen ga gb = newGen gb ga := by
  apply BitVec.eq_of_toNat_eq
  by_cases h : GenFree ga gb (genAfter (largerGen ga gb))
  · rw [newGen_toNat_of_free h, largerGen_comm,
      newGen_toNat_of_free (by rwa [genFree_comm, largerGen_comm])]
  · rw [newGen_toNat_of_not_free h, largerGen_comm,
      newGen_toNat_of_not_free (by rwa [genFree_comm, largerGen_comm])]

theorem newGen_ne_zero (ga gb : Gen) : newGen ga gb ≠ 0 := by
  apply BitVec.toNat_ne.mpr
  by_cases h : GenFree ga gb (genAfter (largerGen ga gb))
  · rw [newGen_toNat_of_free h]
    exact (genAfter_pos _).ne'
  · rw [newGen_toNat_of_not_free h]
    exact (genAfter_pos _).ne'

theorem newGen_free (ga gb : Gen) : GenFree ga gb (newGen ga gb).toNat := by
  by_cases h : GenFree ga gb (genAfter (largerGen ga gb))
  · rwa [newGen_toNat_of_free h]
  · rw [newGen_toNat_of_not_free h]
    exact genFree_second h

theorem newGen_first_free (ga gb : Gen) :
    ∃ n, 1 ≤ n ∧ (newGen ga gb).toNat = genAfter^[n] (largerGen ga gb)
      ∧ ∀ m, 1 ≤ m → m < n → ¬ GenFree ga gb (genAfter^[m] (largerGen ga gb)) := by
  by_cases h : GenFree ga gb (genAfter (largerGen ga gb))
  · exact ⟨1, le_rfl, newGen_toNat_of_free h, by omega⟩
  · refine ⟨2, one_le_two, newGen_toNat_of_not_free h, fun m hm1 hm2 => ?_⟩
    obtain rfl : m = 1 := by omega
    exact h

/-- Settles O60: of the two values after the larger offer one is always free. -/
theorem generationChoice : Obligations.GenerationChoice := by
  intro ga gb next hnext
  obtain rfl : next = genAfter := funext fun g => by simp [hnext, genAfter]
  obtain ⟨hga, hgb⟩ := newGen_free ga gb
  obtain ⟨n, hn, heq, hleast⟩ := newGen_first_free ga gb
  exact ⟨newGen_comm ga gb, newGen_ne_zero ga gb, BitVec.toNat_ne.mpr hga, BitVec.toNat_ne.mpr hgb,
    n, hn, heq, fun m h1 h2 => not_genFree.mp (hleast m h1 h2)⟩

end Sys2Proof.Machine

namespace Sys2Proof.Machine
open Sys2Proof

/-!
Missing entries (R362). An entry that does not exist, or an index from 0xF000 on, fails the first check of reads and of
writes; a command that fails these checks answers with their status and leaves the state; the CFG window sends no such
command to the supervisor, so it runs at once.
-/

theorem entryAt_mem_catalog {s : State} {idx sub : Nat} {e : Entry} (h : entryAt s idx sub = some e) :
    e ∈ catalog :=
  List.mem_of_find?_eq_some (Option.filter_eq_some_iff.1 h).1

theorem entryAt_unitBuilt {s : State} {idx sub : Nat} {e : Entry} (h : entryAt s idx sub = some e) :
    unitBuilt s e (locate idx) = true :=
  (Option.filter_eq_some_iff.1 h).2

/-! ### The checks -/

/-- The two ways in which an index:sub does not exist for a command. -/
def MissingAt (s : State) (idx sub : Nat) : Prop := entryAt s idx sub = none ∨ 0xF000 ≤ idx

theorem MissingAt.filter_eq_none {s : State} {idx sub : Nat} (h : MissingAt s idx sub) :
    ((entryAt s idx sub).filter fun _ => decide (idx < 0xF000)) = none := by
  rcases h with hnone | hidx
  · rw [hnone, Option.filter_none]
  · exact Option.filter_eq_none_iff.2 fun e _ => by simpa using hidx

theorem MissingAt.readRefused {s : State} {idx sub : Nat} (h : MissingAt s idx sub) (path : Option Path) :
    readRefused s path idx sub = some stNoEntry := by
  rw [Machine.readRefused, h.filter_eq_none]

theorem MissingAt.writeRefused {s : State} {idx sub : Nat} (h : MissingAt s idx sub) (path : Option Path) :
    writeRefused s path idx sub = some stNoEntry := by
  rw [Machine.writeRefused, h.filter_eq_none]

/-! ### Refused commands -/

section
variable {s : State} {path : Path} {idx sub st : Nat}

theorem doReadCmd_of_readRefused (h : readRefused s (some path) idx sub = some st) :
    doReadCmd s path idx sub = (s, { status := st }) := by
  rw [doReadCmd, h]

theorem doReadSeg_of_readRefused (h : readRefused s (some path) idx sub = some st) (segoff seglen : Nat) :
    doReadSeg s path idx sub segoff seglen = (s, { status := st }) := by
  rw [doReadSeg, h]

theorem doWriteCmd_of_writeRefused (h : writeRefused s (some path) idx sub = some st) (bytes : List Byte) :
    doWriteCmd s path idx sub bytes = (s, { status := st }) := by
  rw [doWriteCmd, h]

theorem doWriteSeg_of_writeRefused (h : writeRefused s (some path) idx sub = some st) (segoff : Nat)
    (bytes : List Byte) : doWriteSeg s path idx sub segoff bytes = (s, { status := st }) := by
  rw [doWriteSeg, h]

end

theorem countRefusal_noEntry (s : State) : countRefusal s stNoEntry = s.bump 0x1000 0x05 1 := rfl

theorem runCommand_missing {s : State} {idx sub : Nat} (h : MissingAt s idx sub) {op : Nat} (hop : op ∈ [1, 2, 3, 4])
    (path : Path) (segoff seglen : Nat) (data : List Byte) :
    runCommand s path op idx sub segoff seglen data = (s.bump 0x1000 0x05 1, { status := stNoEntry }) := by
  have hread := h.readRefused (some path)
  have hwrite := h.writeRefused (some path)
  simp only [List.mem_cons, List.not_mem_nil, or_false] at hop
  rcases hop with rfl | rfl | rfl | rfl
  · simp [runCommand, doReadCmd_of_readRefused hread, countRefusal_noEntry]
  · simp [runCommand, hwrite, doWriteCmd_of_writeRefused hwrite, countRefusal_noEntry]
  · simp [runCommand, doReadSeg_of_readRefused hread, countRefusal_noEntry]
  · simp [runCommand, hwrite, doWriteSeg_of_writeRefused hwrite, countRefusal_noEntry]

/-! ### The CFG window -/

theorem needsSup_of_entryAt_none {s : State} {idx sub : Nat} (h : entryAt s idx sub = none) (op : Nat) :
    needsSup s op idx sub = false := by
  simp [needsSup, h]

/-- Outside reset, with no command under way, a command that does not need the supervisor runs at once. -/
theorem cfgStart_eq_cfgRun {s : State} {op : Nat} (hreset : inReset s = false) (hbusy : s.cfg.busy = false)
    (hsup : needsSup s op s.cfg.index.toNat s.cfg.sub.toNat = false) : cfgStart s op = cfgRun s op := by
  have hheld := hreset
  simp only [inReset, Bool.or_eq_false_iff] at hheld
  simp [cfgStart, hheld, hreset, hbusy, hsup]

theorem cfgStart_missing {s : State} {op : Nat} (hop : op ∈ [1, 2, 3, 4]) (hreset : inReset s = false)
    (hbusy : s.cfg.busy = false) (h : entryAt s s.cfg.index.toNat s.cfg.sub.toNat = none) :
    cfgStart s op = cfgEnd (s.bump 0x1000 0x05 1) { status := stNoEntry } := by
  rw [cfgStart_eq_cfgRun hreset hbusy (needsSup_of_entryAt_none h op), cfgRun, runCommand_missing (.inl h) hop]

/-- The acknowledgement of an access acts on the CFG window alone. -/
theorem cfgAccess_frame (s : State) (wroteOp : Bool) :
    ∃ acks, cfgAccess s wroteOp = s.modCfg fun c => { c with acks := acks } := by
  unfold cfgAccess
  split
  · exact ⟨s.cfg.acks, rfl⟩
  · exact ⟨_, rfl⟩

theorem exec_cfgCommand {s : State} {c : Instr} (hc : c ∈ [Instr.cfgRead, .cfgWrite, .cfgReadSeg, .cfgWriteSeg]) :
    ∃ op ∈ [1, 2, 3, 4], exec c s = .next (cfgAccess (cfgStart s op) true) := by
  simp only [List.mem_cons, List.not_mem_nil, or_false] at hc
  rcases hc with rfl | rfl | rfl | rfl
  · exact ⟨1, by decide, rfl⟩
  · exact ⟨2, by decide, rfl⟩
  · exact ⟨3, by decide, rfl⟩
  · exact ⟨4, by decide, rfl⟩

/-- Settles O59: the existence check stands first in the checks of reads and of writes. -/
theorem missingEntries : Obligations.MissingEntries := by
  refine ⟨fun s idx sub e h => ⟨entryAt_mem_catalog h, entryAt_unitBuilt h⟩,
    fun s path op idx sub segoff seglen data hop h => runCommand_missing h hop path segoff seglen data, ?_⟩
  intro s c hc hinv hreset hbusy hnone
  obtain ⟨op, hop, hexec⟩ := exec_cfgCommand (s := s) hc
  obtain ⟨acks, hacks⟩ := cfgAccess_frame (cfgStart s op) true
  rw [hacks, cfgStart_missing hop hreset hbusy hnone] at hexec
  exact ⟨_, hexec, rfl, rfl, State.get_bump_same hinv.alm _ _ _, rfl⟩

end Sys2Proof.Machine

namespace Sys2Proof.Machine
open Sys2Proof

/-!
The identification register (R410). Its fields stand apart, because a legal member code is at most 3 and the part number
so stays within its 16 bits; it follows from the fuses and the elaboration alone, which the selection of IDCODE leaves as
they are: that selection only lets ports leave OFF (R412).
-/

/-! ### What a change of link state leaves alone -/

/-- `t` with the fields of `s` that a change of link state acts on: the ports, the pairs, the scalar entries, the events
that wait and the trace. -/
def restoreLink (s t : State) : State :=
  { t with alm := s.alm, evtOut := s.evtOut, twins := s.twins, trace := s.trace, ports := s.ports }

/-- From `s` to `t` nothing has changed but the fields that a change of link state acts on. -/
def LinkOnly (s t : State) : Prop := restoreLink s t = s

section
variable {s t u : State}

theorem LinkOnly.refl (s : State) : LinkOnly s s := rfl

theorem LinkOnly.trans (hst : LinkOnly s t) (htu : LinkOnly t u) : LinkOnly s u :=
  (congrArg (restoreLink s) htu).trans hst

theorem LinkOnly.elab_ (h : LinkOnly s t) : t.elab_ = s.elab_ :=
  show (restoreLink s t).elab_ = s.elab_ by rw [h]

theorem LinkOnly.fuses (h : LinkOnly s t) : t.fuses = s.fuses :=
  show (restoreLink s t).fuses = s.fuses by rw [h]

theorem LinkOnly.tap (h : LinkOnly s t) : t.tap = s.tap :=
  show (restoreLink s t).tap = s.tap by rw [h]

/-- What stands before a change of the access port is found again by giving the access port back as well. -/
theorem LinkOnly.frame_of_modTap {f : Tap → Tap} (h : LinkOnly (s.modTap f) t) :
    { t with alm := s.alm, evtOut := s.evtOut, twins := s.twins, tap := s.tap, trace := s.trace, ports := s.ports } = s :=
  congrArg (fun x : State => { x with tap := s.tap }) h

theorem LinkOnly.ite {p : Prop} [Decidable p] (ht : LinkOnly s t) (hu : LinkOnly s u) :
    LinkOnly s (if p then t else u) := by
  split
  · exact ht
  · exact hu

theorem LinkOnly.foldl {α : Type} {f : State → α → State} (hf : ∀ s x, LinkOnly s (f s x)) (xs : List α) (s : State) :
    LinkOnly s (xs.foldl f s) := by
  induction xs generalizing s with
  | nil => exact .refl s
  | cons x xs ih => exact (hf s x).trans (ih (f s x))

end

theorem linkOnly_modPort (s : State) (q : Nat) (f : Port → Port) : LinkOnly s (s.modPort q f) := rfl

theorem linkOnly_modPair (s : State) (k : Nat) (f : Pair → Pair) : LinkOnly s (s.modPair k f) := rfl

theorem linkOnly_put (s : State) (i j d v : Nat) : LinkOnly s (s.put i j d v) := rfl

theorem linkOnly_bump (s : State) (i j n : Nat) : LinkOnly s (s.bump i j n) := rfl

theorem linkOnly_evt (s : State) (code : BitVec 8) (ten : Ten) (arg : BitVec 32) : LinkOnly s (s.evt code ten arg) := rfl

theorem linkOnly_clearV (s : State) (q : Nat) : LinkOnly s (s.clearV q) := rfl

theorem linkOnly_setRole (s : State) (k q : Nat) (r : Role) : LinkOnly s (setRole s k q r) := rfl

theorem linkOnly_tev (s : State) (kind port sub : Nat) (bad : Bool) (data : BitVec 64) :
    LinkOnly s (s.tev kind port sub bad data) := by
  unfold State.tev
  exact .ite rfl (.refl s)

theorem linkOnly_goto (s : State) (q : Nat) (st : LinkState) : LinkOnly s (s.goto q st) := by
  unfold State.goto
  dsimp only
  have hmoved {arg data} : LinkOnly s
      (((s.modPort q fun p => enterState p st s.now).evt 0x85 0 arg).tev 6 q 0 false data) :=
    ((linkOnly_modPort ..).trans (linkOnly_evt ..)).trans (linkOnly_tev ..)
  split
  · exact hmoved.trans (linkOnly_bump ..)
  · exact hmoved.trans (linkOnly_bump ..)
  · exact .ite (hmoved.trans (linkOnly_put ..)) hmoved
  · exact hmoved

theorem linkOnly_leavePair (s : State) (q : Nat) : LinkOnly s (leavePair s q) := by
  unfold leavePair
  split
  · have hout {k r f} : LinkOnly s ((setRole s k q r).modPair k f) := (linkOnly_setRole ..).trans (linkOnly_modPair ..)
    exact .ite ((hout.trans (linkOnly_setRole ..)).trans (linkOnly_bump ..)) hout
  · exact .refl s

theorem linkOnly_stopWith (f : Port → Port) (s : State) (q : Nat) : LinkOnly s (stopWith f s q) := by
  unfold stopWith
  exact .ite (linkOnly_modPort ..) (.ite (linkOnly_modPort ..) ((linkOnly_modPort ..).trans (linkOnly_modPort ..)))

theorem linkOnly_enterDetect (s : State) (q : Nat) : LinkOnly s (enterDetect s q) :=
  ((linkOnly_stopWith stopFields s q).trans (linkOnly_modPort ..)).trans (linkOnly_goto ..)

theorem linkOnly_enterOff (s : State) (q : Nat) : LinkOnly s (enterOff s q) :=
  (((linkOnly_leavePair s q).trans (linkOnly_stopWith haltFields _ q)).trans (linkOnly_clearV _ q)).trans
    ((linkOnly_modPort ..).trans (linkOnly_goto ..))

theorem linkOnly_leaveOff (s : State) (q : Nat) : LinkOnly s (leaveOff s q) := by
  unfold leaveOff
  exact .ite (linkOnly_enterDetect s q) (.refl s)

theorem linkOnly_holdPort (s : State) (q : Nat) : LinkOnly s (holdPort s q) := by
  unfold holdPort
  have hheld {f} : LinkOnly s (s.modPort q f) := linkOnly_modPort ..
  exact .ite (.refl s) (.ite (hheld.trans (linkOnly_leaveOff ..)) (.ite hheld (hheld.trans (linkOnly_enterOff ..))))

/-! ### The selection of an instruction -/

/-- The access port itself as an instruction becomes current, before the ports follow it. -/
def selectInstr (code : BitVec 8) (mask : BitVec 16) (t : Tap) : Tap :=
  { t with instr := code, ixMask := mask, stat := if code = 0x08 then t.stat else statBit t.stat 0 false }

theorem linkOnly_setInstr (s : State) (code : BitVec 8) (mask : BitVec 16) :
    LinkOnly (s.modTap (selectInstr code mask)) (setInstr s code mask) :=
  LinkOnly.foldl linkOnly_holdPort (List.range 10) (s.modTap (selectInstr code mask))

theorem setInstr_instr (s : State) (code : BitVec 8) (mask : BitVec 16) : (setInstr s code mask).tap.instr = code :=
  congrArg Tap.instr (linkOnly_setInstr s code mask).tap

/-- Besides the access port only link state changes. -/
theorem setInstr_frame (s : State) (code : BitVec 8) (mask : BitVec 16) :
    { setInstr s code mask with alm := s.alm, evtOut := s.evtOut, twins := s.twins, tap := s.tap, trace := s.trace,
                                ports := s.ports } = s :=
  (linkOnly_setInstr s code mask).frame_of_modTap

theorem idcodeOf_congr {s t : State} (hfuses : t.fuses = s.fuses) (helab : t.elab_ = s.elab_) :
    idcodeOf t = idcodeOf s := by
  rw [idcodeOf, idcodeOf, hfuses, helab]

theorem idcodeOf_setInstr (s : State) (code : BitVec 8) (mask : BitVec 16) :
    idcodeOf (setInstr s code mask) = idcodeOf s :=
  idcodeOf_congr (linkOnly_setInstr s code mask).fuses (linkOnly_setInstr s code mask).elab_

theorem tapRegister_idcode {s : State} (h : s.tap.instr = 0x01) : tapRegister s = some (idcodeOf s, 32) := by
  rw [tapRegister, h]
  rfl

/-! ### The fields of the register -/

theorem member_le_of_legal {e : Config.Elab} (h : e.legal = true) : e.member ≤ 3 := by
  simp only [Config.Elab.legal, Bool.and_eq_true, decide_eq_true_eq] at h
  tauto

section
variable (s : State)

theorem idcodeOf_one : bitsOf (idcodeOf s) 0 1 = 1 := by
  simp only [bitsOf, idcodeOf, Nat.shiftRight_eq_div_pow]
  omega

theorem idcodeOf_mfr : bitsOf (idcodeOf s) 1 11 = s.fuses.mfr.toNat := by
  have hmfr : s.fuses.mfr.toNat < 2 ^ 11 := s.fuses.mfr.isLt
  simp only [bitsOf, idcodeOf, Nat.shiftRight_eq_div_pow]
  omega

variable {s} (hmember : s.elab_.member ≤ 3)
include hmember

theorem idcodeOf_part : bitsOf (idcodeOf s) 12 16 = 0x1E40 + s.elab_.member := by
  have hmfr : s.fuses.mfr.toNat < 2 ^ 11 := s.fuses.mfr.isLt
  simp only [bitsOf, idcodeOf, Nat.shiftRight_eq_div_pow]
  omega

theorem idcodeOf_version : bitsOf (idcodeOf s) 28 4 = 2 := by
  have hmfr : s.fuses.mfr.toNat < 2 ^ 11 := s.fuses.mfr.isLt
  simp only [bitsOf, idcodeOf, Nat.shiftRight_eq_div_pow]
  omega

theorem idcodeOf_lt : idcodeOf s < 2 ^ 32 := by
  have hmfr : s.fuses.mfr.toNat < 2 ^ 11 := s.fuses.mfr.isLt
  unfold idcodeOf
  omega

end

/-! ### The entry `0xE000:01` -/

/-- The row of `tap_idcode` in the catalog. -/
def idcodeEntry : Entry := ⟨0xE000, 0x01, 0x01, .inst, .u32, .ro, .f, 0, []⟩

theorem entryAt_idcode (s : State) : entryAt s 0xE000 0x01 = some idcodeEntry := by
  have hrow : (catalog.find? fun e => e.base == (locate 0xE000).base && decide (e.sub ≤ 0x01) && decide (0x01 ≤ e.subEnd))
      = some idcodeEntry := by decide +kernel
  rw [entryAt, hrow]
  rfl

theorem scalarValue_idcode (s : State) : scalarValue s idcodeEntry 0xE000 0x01 = idcodeOf s := rfl

/-- Settles O58: the register and the entry both read `idcodeOf`, and its fields do not overlap. -/
theorem identificationRegister : Obligations.IdentificationRegister := by
  refine ⟨fun s hinv => ?_, idcodeOf_mfr State.reset⟩
  have hmember := member_le_of_legal hinv.elab_
  have hregister : tapRegister (setInstr s 0x01 0) = some (idcodeOf s, 32) := by
    rw [tapRegister_idcode (setInstr_instr s 0x01 0), idcodeOf_setInstr]
  exact ⟨setInstr s 0x01 0, idcodeOf s, rfl, setInstr_frame s 0x01 0, hregister, idcodeOf_one s, idcodeOf_mfr s,
    idcodeOf_part hmember, idcodeOf_version hmember, idcodeOf_lt hmember, idcodeEntry, entryAt_idcode s,
    scalarValue_idcode s⟩

end Sys2Proof.Machine
